-- ==== Sys2Proof/Word.lean ====
section
/-! DEFINITION. The word types of the LYS-9600: bytes, 32-bit instruction words and register words,
64-bit addresses and scalar registers (R25, R43, R152). Only the types stand here. -/

namespace Sys2Proof

/-- One byte of memory. -/
abbrev Byte := BitVec 8
/-- A 32-bit word: an instruction word or a v-register. -/
abbrev Word := BitVec 32
/-- A 64-bit value: an s-register, an address, a literal. -/
abbrev DWord := BitVec 64

end Sys2Proof
end

