-- ==== Sys2Proof/Config.lean ====
section
/-! DEFINITION. What an implementation decides and the spec leaves open, as constants without a body: nothing in Lean can
evaluate one, so a claim about the model holds whatever they are. -/

namespace Sys2Proof

/-- The value a special function gives where R231 only bounds it, by the minor of the function and the operand bits (R237: it
depends on nothing else). The model uses it where it meets the bound (notes/assumptions/9.md). -/
opaque Config.specialRaw : Nat → Word → Word

/-- The choice of a place out of the places that R54 allows a template instance (notes/assumptions/10.md). -/
opaque Config.placement : Nat → Nat

/-- How a builder engine splits a list of primitives (R342: the tree depends only on descriptor, input and base;
notes/assumptions/11.md). -/
opaque Config.treeSplit : List Nat → Nat

/-- The order in which a copy engine writes its sectors (R258; notes/assumptions/12.md). -/
opaque Config.copyOrder : Nat → Nat → Nat

/-- A host physical line that belongs to a peer device, as the switch routes it (R110, R398; notes/assumptions/14.md). -/
opaque Config.peerLine : Nat → Bool

/-- Where in its arena a structure keeps a node, with the boxes of its children and the triangles of a leaf (R338: the layout of nodes is not
architected; notes/assumptions/16.md), by context and node. -/
opaque Config.nodeOffset : Nat → Nat → Nat

/-- The bytes that a builder engine writes for a node (R338: not architected; notes/assumptions/16.md), by context and node. -/
opaque Config.nodeBytes : Nat → Nat → List Byte

/-- Whether an engine other than a traversal unit refuses a request with a NACK (R59, R57: the spec bounds none of them; notes/assumptions/82.md), by
engine and the model's counter of free values. -/
opaque Config.engineFull : Nat → Nat → Bool

/-- The bytes of an arena that some nodes and some triangles occupy (R338, R344; notes/assumptions/16.md). -/
opaque Config.arenaNeed : Nat → Nat → Nat

/-- SAH (0) and OVERLAP (1) of a tree of so many nodes where a bound of it is infinite, for which R351 gives no value
(notes/assumptions/17.md). -/
opaque Config.openQuality : Nat → Nat → Word

/-- The physical core that MIGR.STAT reads for a logical core that is not mapped, for which R419 gives no value
(notes/assumptions/18.md). -/
opaque Config.noCore : Nat → Nat

/-- Whether the host grants E to a request, which R431 leaves to it (notes/assumptions/19.md), by the model's counter of free values. -/
opaque Config.hostGrants : Nat → Bool

/-- The bytes of a vault slab that goes from OFF to RETENTION, whose contents R427 says are lost (notes/assumptions/20.md), by the model's counter
of free values and the place. -/
opaque Config.lostByte : Nat → Nat → Byte

/-- The line that leaves a full set of an L1, for which R82 gives no rule (notes/assumptions/73.md), by the model's counter of free values. -/
opaque Config.l1Victim : Nat → Nat

/-- The slots of a version overflow area that `n` logged updates of .ORD epochs take (R379): a free value (DESIGN CHOICE, notes/assumptions/37.md). -/
opaque Config.ordLogSlots : Nat → Nat

end Sys2Proof
end

