-- ==== Sys2Proof/Syntax.lean ====
section
/-! DEFINITION. The instructions of the LYS-9600 as data: the operand types (R162), the fields of the
extended form (R159), of the base words (R155, R157, R158), and `Instr`, one constructor for each row of the
opcode table. A `…Base` constructor is the 32-bit base word; a `…Ext` constructor is the extended form or, where
the base word may carry a literal, that 96-bit form (R152). The rows without words are events of the hardware's
other agents and of the host; their constructors say what the event acts on. -/

namespace Sys2Proof

/-- Operand types, in the order of their codes (R162). -/
inductive OpType where
  | f32 | f16 | bf16 | e4m3 | e5m2 | e2m1 | b32 | b64 | s8 | s16 | s32 | s64 | n8 | n16 | n32 | n64
  deriving DecidableEq, Repr

/-- The fields of the extended form (R159), without MAJOR and MINOR; `lit` is the trailing literal of LEN 11. -/
structure Ext where
  stall : BitVec 3
  gn : Bool
  gp : BitVec 4
  mod : BitVec 10
  d : BitVec 9
  a : BitVec 9
  b : BitVec 9
  dk : Bool
  ak : Bool
  bk : BitVec 2
  ck : Bool
  c : BitVec 9
  ty : OpType
  pdv : Bool
  pd : BitVec 4
  imm : BitVec 14
  lit : Option DWord
  deriving DecidableEq, Repr

/-- A base word of layout B0 (R155), without MAJOR and MINOR. -/
structure Base where
  stall : BitVec 3
  gn : Bool
  gp : BitVec 3
  d : BitVec 7
  a : BitVec 7
  deriving DecidableEq, Repr

/-- A base word of layout B1 (R157), without L. -/
structure BaseBranch where
  stall : BitVec 3
  gn : Bool
  gp : BitVec 3
  off : BitVec 16
  deriving DecidableEq, Repr

/-- A REP word (R158): CNT and the step mask. -/
structure RepWord where
  stall : BitVec 3
  cnt : BitVec 6
  md : Bool
  ma : Bool
  mb : Bool
  mc : Bool
  deriving DecidableEq, Repr

/-- The longer forms of an instruction that also has a base word: the extended form (LEN 01 or 11), or the base
word with a literal (LEN 10). -/
inductive XForm where
  | ext (e : Ext)
  | baseLit (b : Base) (lit : DWord)
  deriving DecidableEq, Repr

/-- The longer forms of BRA and CALL: the extended form, or the B1 word with an absolute target (R157, R166). -/
inductive BranchForm where
  | ext (e : Ext)
  | baseLit (b : BaseBranch) (lit : DWord)
  deriving DecidableEq, Repr

/-- A gang: its partition, logical core, quadrant, gang slot and replica (R28, R360). -/
structure GangId where
  part : Nat
  lcore : Nat
  quad : Nat
  slot : Nat
  repl : Nat
  deriving DecidableEq, Repr

/-- A queue port (R56): that of a core, or, with `cvu`, that of the CVU of a cluster (R327). -/
structure PortId where
  cvu : Bool
  part : Nat
  core : Nat
  repl : Nat
  deriving DecidableEq, Repr

/-- A group: its partition, the low 32 bits of its handle (R40), and its replica. -/
structure GroupId where
  part : Nat
  handle : Nat
  repl : Nat
  deriving DecidableEq, Repr

/-- How a bring-up step fails: the step, and the REASON and DETAIL of BRING_STAT (R421, R506). -/
structure BringFail where
  step : Nat
  reason : Nat
  detail : Nat
  deriving DecidableEq, Repr

/-- The host's answer to a CXL.cache read of one of its lines (R107, R431): whether it is poisoned, and the bytes that the host has written to the line
since the device last had it, none where it wrote nothing. -/
structure HostAnswer where
  poisoned : Bool
  data : List Byte
  deriving DecidableEq, Repr

/-- The rows of the opcode table that have no words: what an agent other than an issuing wave does. -/
inductive Event where
  /-- COPY_PREWALK_DONE (R258). -/
  | copyPrewalkDone (job : Nat)
  /-- COPY_SECTOR_LAND (R258). -/
  | copySectorLand (job sector : Nat)
  /-- MATRIX_STEP (R274). -/
  | matrixStep (part core engine : Nat)
  /-- TSQ_STEP (R281). -/
  | tsqStep (part core engine : Nat)
  /-- MXE_SLOT_BOUNDARY (R284). -/
  | mxeSlotBoundary
  /-- FUTURE_COMMIT_POINT (R126). -/
  | futureCommitPoint (tag : Nat)
  /-- SQUASH_DRAIN_COMPLETE (R125). -/
  | squashDrainComplete (tag : Nat)
  /-- TAG_RECLAIM_COMPLETE (R125). -/
  | tagReclaimComplete (tag : Nat)
  /-- SINK_SLOT_START (R299). -/
  | sinkSlotStart (sink : Nat)
  /-- RAY_TRAVERSAL_END (R316). -/
  | rayTraversalEnd (ray : Nat)
  /-- RAY_CANDIDATE_READY (R317). -/
  | rayCandidateReady (ray : Nat)
  /-- BEAM_COMPLETE (R324). -/
  | beamComplete (beam : Nat)
  /-- GATHER_RESULT_RETURN (R330). -/
  | gatherResultReturn (req : Nat)
  /-- BUILD_JOB_COMPLETE (R343). -/
  | buildJobComplete (job : Nat)
  /-- ARENA_EXTENSION_SERVICE (R344). -/
  | arenaExtensionService (job : Nat) (granted : Bool)
  /-- GENERATION_RECLAIM_COMPLETE (R349). -/
  | generationReclaimComplete (part ctx gen : Nat)
  /-- REPL_COMPARISON (R366). -/
  | replComparison (fibre : Nat)
  /-- REPL_COMPARE_TIMEOUT (R366). -/
  | replCompareTimeout (fibre : Nat)
  /-- INTERVAL_BOUNDARY (R380). -/
  | intervalBoundary (part : Nat)
  /-- INTERVAL_CAPTURE (R382). -/
  | intervalCapture (part : Nat)
  /-- STARVATION_BREAK (R32). -/
  | starvationBreak (gang : GangId)
  /-- PRIMARY_WAVE_AGE_LIMIT (R34). -/
  | primaryWaveAgeLimit (gang : GangId)
  /-- GANG_TIER (R39). -/
  | gangTier (gang : GangId)
  /-- GANG_RECALL (R39). -/
  | gangRecall (gang : GangId)
  /-- TEMPLATE_INSTANCE_START (R54). -/
  | templateInstanceStart (part pipe stage : Nat)
  /-- QUEUE_ENTRY_ARRIVAL (R57). -/
  | queueEntryArrival (port : PortId)
  /-- QUEUE_PORT_RESEND (R57). -/
  | queuePortResend (port : PortId) (pipe queue : Nat)
  /-- VERTICAL_ENTRY_ARRIVAL (R59). -/
  | verticalEntryArrival (part core : Nat)
  /-- VERTICAL_PORT_RESEND (R59). -/
  | verticalPortResend (part core engine : Nat)
  /-- QUEUE_CLOSE_ARRIVAL (R482). -/
  | queueCloseArrival (part pipe queue : Nat)
  /-- STAGE_CORE_REBALANCE (R60). -/
  | stageCoreRebalance (part pipe : Nat)
  /-- BARRIER_TIMEOUT (R484). -/
  | barrierTimeout (group : GroupId) (barrier : Nat)
  /-- CONVERGE_TIMEOUT (R484). -/
  | convergeTimeout (group : GroupId) (reg : Nat)
  /-- SLEEP_EXPIRE (R190). -/
  | sleepExpire (fibre : Nat)
  /-- REPACK_BUDGET_EXPIRE (R192). -/
  | repackBudgetExpire (collection : Nat)
  /-- LOAD_RESPONSE (R79). -/
  | loadResponse (req : Nat)
  /-- REGISTRATION_REQUEST (R78). -/
  | registrationRequest (core tag block : Nat)
  /-- REGISTRY_ACK (R80). -/
  | registryAck (core tag block : Nat)
  /-- FORWARDED_REQUEST (R79). -/
  | forwardedRequest (owner tag word : Nat) (acquire : Bool)
  /-- L1_FILL (R107). -/
  | l1Fill (core tag line : Nat) (met : Bool) (victim : Option (Nat × Nat))
  /-- VAC_FILL (R124). -/
  | vacFill (tag line : Nat)
  /-- PAGE_WALK (R70). -/
  | pageWalk (part core : Nat) (va : BitVec 64)
  /-- MMP_FAULT_SERVICE (R73). -/
  | mmpFaultService (part : Nat) (va : BitVec 64)
  /-- LEASE_EXPIRE (R85). -/
  | leaseExpire (part handle : Nat)
  /-- ENGINE_WAY_TIMEOUT (R479). -/
  | engineWayTimeout (job : Nat)
  /-- CXL_MEM_READ (R109). -/
  | cxlMemRead (addr count : Nat)
  /-- CXL_MEM_WRITE (R109). -/
  | cxlMemWrite (addr : Nat) (data : List (BitVec 8))
  /-- SNP_INV (R431). -/
  | snpInv (line : Nat)
  /-- SNP_DATA (R431). -/
  | snpData (line : Nat)
  /-- SNP_CUR (R431). -/
  | snpCur (line : Nat)
  /-- CXL_CACHE_COMPLETION (R431). -/
  | cxlCacheCompletion (line : Nat) (own grantE : Bool) (answer : HostAnswer)
  /-- CXL_COMPLETION_TIMEOUT (R472). -/
  | cxlCompletionTimeout (req line : Nat)
  /-- PEER_WRITE_ACK (R110). -/
  | peerWriteAck (fibre : Nat)
  /-- CREATE (R390). -/
  | create (part : Nat)
  /-- RESET (R390). -/
  | reset (part : Nat)
  /-- RESET_COMPLETE (R504). -/
  | resetComplete (part : Nat)
  /-- SUSPEND (R416). -/
  | suspend (part : Nat)
  /-- RESUME (R390). -/
  | resume (part : Nat) (arg : BitVec 48)
  /-- DESTROY (R390). -/
  | destroy (part : Nat)
  /-- DESTROY_COMPLETE (R390). -/
  | destroyComplete (part : Nat)
  /-- PART_CMD_UNKNOWN (R390). -/
  | partCmdUnknown (part cmd : Nat)
  /-- PART_LAUNCH (R392). -/
  | partLaunch (part : Nat) (word : BitVec 64)
  /-- REQUEST_RECORD_SERVICE (R391). -/
  | requestRecordService (part : Nat)
  /-- HOST_EVENT_POST (R396). -/
  | hostEventPost (part : Nat)
  /-- HSVC_ANS (R395). -/
  | hsvcAns (part : Nat) (word : BitVec 64)
  /-- HOST_EVENT_TIMEOUT (R396). -/
  | hostEventTimeout (part seq : Nat)
  /-- FPOOL_WRITE (R75). -/
  | fpoolWrite (part : Nat) (value : BitVec 64)
  /-- FSC_CONTRACT_WRITE (R401). -/
  | fscContractWrite (part k : Nat) (value : BitVec 64)
  /-- SINK_MODE_WRITE (R399). -/
  | sinkModeWrite (offset : Nat) (value : BitVec 64)
  /-- VLT_PWR_WRITE (R427). -/
  | vltPwrWrite (part core : Nat) (value : BitVec 8)
  /-- VAULT_SLAB_WAKE_DONE (R427). -/
  | vaultSlabWakeDone (part core slab : Nat)
  /-- DBG_CTL_WRITE (R430). -/
  | dbgCtlWrite (value : BitVec 64)
  /-- DBG_RESUME (R430). -/
  | dbgResume (value : BitVec 64)
  /-- DEBUG_MEMORY_READ (R429). -/
  | debugMemoryRead (part core array offset : Nat)
  /-- REGISTER_WRITE (R388). -/
  | registerWrite (part : Option Nat) (offset : Nat) (value : BitVec 64)
  /-- FSC_PERIOD_START (R400). -/
  | fscPeriodStart (part k : Nat)
  /-- FSC_BUDGET_EXHAUSTED (R403). -/
  | fscBudgetExhausted (part k : Nat)
  /-- FSC_PREEMPT (R404). -/
  | fscPreempt (part : Nat)
  /-- PREEMPT_DEADLINE (R406). -/
  | preemptDeadline (part : Nat)
  /-- GANG_RESTORE (R407). -/
  | gangRestore (gang : GangId)
  /-- EMERGENCY_IMAGE_COPY (R409). -/
  | emergencyImageCopy (part : Nat)
  /-- SAVE_DIVERT_TIMEOUT (R501). -/
  | saveDivertTimeout (part : Nat)
  /-- THERMAL_SENSOR_SAMPLE (R426). -/
  | thermalSensorSample (core : Nat) (reading : BitVec 12)
  /-- MIGRATION_MOVE (R413). -/
  | migrationMove (part core : Nat)
  /-- COOLING_LOOP_LOSS (R424). -/
  | coolingLoopLoss (zone : Nat) (lost : Bool × Bool)
  /-- NOMINAL_TABLE_RETURN (R424). -/
  | nominalTableReturn
  /-- PERST_DEASSERT (R421). -/
  | perstDeassert (fail : Option BringFail)
  /-- FIRMWARE_RELOAD (R420). -/
  | firmwareReload (version : BitVec 16) (fail : Option BringFail)
  /-- ANS_ROLLBACK (R442). -/
  | ansRollback (part : Nat)
  /-- ANS_TERMINATE (R442). -/
  | ansTerminate (part : Nat)
  /-- ANS_RESET (R442). -/
  | ansReset (part : Nat)
  /-- ANS_RELEASE (R498). -/
  | ansRelease (part : Nat)
  /-- REPL_MISMATCH_TIMEOUT (R442). -/
  | replMismatchTimeout (part : Nat)
  /-- BOND_LANE_TEST (R470). -/
  | bondLaneTest (core channel offset : Nat) (failing : List Nat) (resent : Bool)
  /-- GDDR7_RETRAIN (R471). -/
  | gddr7Retrain (sector : Nat) (resends : Nat) (passed isWrite : Bool)
  /-- HOST_LINK_LOSS (R472). -/
  | hostLinkLoss
  /-- SUSPEND_COMPLETE (R416). -/
  | suspendComplete (part : Nat)
  /-- BACK_INVALIDATION_COMPLETE (R109). -/
  | backInvalidationComplete (line : Nat)
  deriving DecidableEq, Repr

/-- The instructions and events of the opcode table, one constructor for each row. -/
inductive Instr where
  /-- NOP (R158). -/
  | nop (stall : BitVec 3)
  /-- REP (R171). -/
  | rep (r : RepWord)
  /-- BRA_BASE (R157). -/
  | braBase (b : BaseBranch)
  /-- BRA_EXT (R166). -/
  | braExt (x : BranchForm)
  /-- CALL_BASE (R185). -/
  | callBase (b : BaseBranch)
  /-- CALL_EXT (R185). -/
  | callExt (x : BranchForm)
  /-- BRX (R185). -/
  | brx (e : Ext)
  /-- CALLX (R185). -/
  | callx (e : Ext)
  /-- RET (R185). -/
  | ret (e : Ext)
  /-- FEND_BASE (R188). -/
  | fendBase (b : Base)
  /-- FEND_EXT (R188). -/
  | fendExt (e : Ext)
  /-- YIELD_BASE (R189). -/
  | yieldBase (b : Base)
  /-- YIELD_EXT (R189). -/
  | yieldExt (e : Ext)
  /-- YIELDP (R189). -/
  | yieldp (e : Ext)
  /-- SLEEP (R190). -/
  | sleep (e : Ext)
  /-- WAKE (R190). -/
  | wake (e : Ext)
  /-- SPAWN (R191). -/
  | spawn (e : Ext)
  /-- REPACK (R192). -/
  | repack (e : Ext)
  /-- GNEW (R193). -/
  | gnew (e : Ext)
  /-- GJOIN (R194). -/
  | gjoin (e : Ext)
  /-- GLEAVE (R194). -/
  | gleave (e : Ext)
  /-- GFREE (R194). -/
  | gfree (e : Ext)
  /-- GBAR (R195). -/
  | gbar (e : Ext)
  /-- GARRIVE (R195). -/
  | garrive (e : Ext)
  /-- GWAIT (R195). -/
  | gwait (e : Ext)
  /-- CVSET (R196). -/
  | cvset (e : Ext)
  /-- CVSIGN (R46). -/
  | cvsign (e : Ext)
  /-- CVWAIT (R196). -/
  | cvwait (e : Ext)
  /-- QPUSH (R197). -/
  | qpush (e : Ext)
  /-- QPOP (R197). -/
  | qpop (e : Ext)
  /-- QPEEK (R197). -/
  | qpeek (e : Ext)
  /-- QCLOSE (R198). -/
  | qclose (e : Ext)
  /-- LAUNCH (R199). -/
  | launch (e : Ext)
  /-- LWAIT (R200). -/
  | lwait (e : Ext)
  /-- GETSR (R201). -/
  | getsr (e : Ext)
  /-- SETSR (R201). -/
  | setsr (e : Ext)
  /-- TRAP (R202). -/
  | trap (e : Ext)
  /-- SYSCALL (R202). -/
  | syscall (e : Ext)
  /-- ERET_RETRY (R203). -/
  | eretRetry (e : Ext)
  /-- ERET_SKIP (R203). -/
  | eretSkip (e : Ext)
  /-- ERET_END (R203). -/
  | eretEnd (e : Ext)
  /-- BKPT (R202). -/
  | bkpt (e : Ext)
  /-- HALT (R204). -/
  | halt (e : Ext)
  /-- TFENCE (R148). -/
  | tfence (e : Ext)
  /-- PREQ_SAVE (R418). -/
  | preqSave (e : Ext)
  /-- PREQ_RESUME (R418). -/
  | preqResume (e : Ext)
  /-- PREQ_STAT (R418). -/
  | preqStat (e : Ext)
  /-- MIGR_REQ (R419). -/
  | migrReq (e : Ext)
  /-- MIGR_STAT (R419). -/
  | migrStat (e : Ext)
  /-- IADD_BASE (R209). -/
  | iaddBase (b : Base)
  /-- IADD_EXT (R209). -/
  | iaddExt (x : XForm)
  /-- ISUB_BASE (R209). -/
  | isubBase (b : Base)
  /-- ISUB_EXT (R209). -/
  | isubExt (x : XForm)
  /-- IMIN_BASE (R209). -/
  | iminBase (b : Base)
  /-- IMIN_EXT (R209). -/
  | iminExt (x : XForm)
  /-- IMAX_BASE (R209). -/
  | imaxBase (b : Base)
  /-- IMAX_EXT (R209). -/
  | imaxExt (x : XForm)
  /-- IABS_BASE (R209). -/
  | iabsBase (b : Base)
  /-- IABS_EXT (R209). -/
  | iabsExt (x : XForm)
  /-- INEG_BASE (R209). -/
  | inegBase (b : Base)
  /-- INEG_EXT (R209). -/
  | inegExt (x : XForm)
  /-- MOV_BASE (R209). -/
  | movBase (b : Base)
  /-- MOV_EXT (R209). -/
  | movExt (x : XForm)
  /-- MOVI (R209). -/
  | movi (e : Ext)
  /-- IADD3 (R209). -/
  | iadd3 (e : Ext)
  /-- LEA (R209). -/
  | lea (e : Ext)
  /-- SEL (R209). -/
  | sel (e : Ext)
  /-- ISETP (R210). -/
  | isetp (e : Ext)
  /-- IMUL_BASE (R211). -/
  | imulBase (b : Base)
  /-- IMUL_EXT (R211). -/
  | imulExt (x : XForm)
  /-- IMULH_BASE (R211). -/
  | imulhBase (b : Base)
  /-- IMULH_EXT (R211). -/
  | imulhExt (x : XForm)
  /-- IMAD (R211). -/
  | imad (e : Ext)
  /-- IMADW (R211). -/
  | imadw (e : Ext)
  /-- DP4 (R211). -/
  | dp4 (e : Ext)
  /-- AND_BASE (R212). -/
  | andBase (b : Base)
  /-- AND_EXT (R212). -/
  | andExt (x : XForm)
  /-- OR_BASE (R212). -/
  | orBase (b : Base)
  /-- OR_EXT (R212). -/
  | orExt (x : XForm)
  /-- XOR_BASE (R212). -/
  | xorBase (b : Base)
  /-- XOR_EXT (R212). -/
  | xorExt (x : XForm)
  /-- NOT_BASE (R212). -/
  | notBase (b : Base)
  /-- NOT_EXT (R212). -/
  | notExt (x : XForm)
  /-- BLUT (R212). -/
  | blut (e : Ext)
  /-- SHL_BASE (R212). -/
  | shlBase (b : Base)
  /-- SHL_EXT (R212). -/
  | shlExt (x : XForm)
  /-- SHR_BASE (R212). -/
  | shrBase (b : Base)
  /-- SHR_EXT (R212). -/
  | shrExt (x : XForm)
  /-- SAR_BASE (R212). -/
  | sarBase (b : Base)
  /-- SAR_EXT (R212). -/
  | sarExt (x : XForm)
  /-- ROL_BASE (R212). -/
  | rolBase (b : Base)
  /-- ROL_EXT (R212). -/
  | rolExt (x : XForm)
  /-- FSHL (R212). -/
  | fshl (e : Ext)
  /-- CLZ_BASE (R151). -/
  | clzBase (b : Base)
  /-- CLZ_EXT (R151). -/
  | clzExt (x : XForm)
  /-- CTZ_BASE (R151). -/
  | ctzBase (b : Base)
  /-- CTZ_EXT (R151). -/
  | ctzExt (x : XForm)
  /-- FFS_BASE (R151). -/
  | ffsBase (b : Base)
  /-- FFS_EXT (R151). -/
  | ffsExt (x : XForm)
  /-- POPC_BASE (R151). -/
  | popcBase (b : Base)
  /-- POPC_EXT (R151). -/
  | popcExt (x : XForm)
  /-- BREV_BASE (R212). -/
  | brevBase (b : Base)
  /-- BREV_EXT (R212). -/
  | brevExt (x : XForm)
  /-- BFE (R212). -/
  | bfe (e : Ext)
  /-- BFI (R212). -/
  | bfi (e : Ext)
  /-- PRMT (R212). -/
  | prmt (e : Ext)
  /-- SADD_BASE (R214). -/
  | saddBase (b : Base)
  /-- SADD_EXT (R214). -/
  | saddExt (x : XForm)
  /-- SSUB_BASE (R214). -/
  | ssubBase (b : Base)
  /-- SSUB_EXT (R214). -/
  | ssubExt (x : XForm)
  /-- SMUL_BASE (R214). -/
  | smulBase (b : Base)
  /-- SMUL_EXT (R214). -/
  | smulExt (x : XForm)
  /-- SMIN_BASE (R214). -/
  | sminBase (b : Base)
  /-- SMIN_EXT (R214). -/
  | sminExt (x : XForm)
  /-- SMAX_BASE (R214). -/
  | smaxBase (b : Base)
  /-- SMAX_EXT (R214). -/
  | smaxExt (x : XForm)
  /-- SMOV_BASE (R214). -/
  | smovBase (b : Base)
  /-- SMOV_EXT (R214). -/
  | smovExt (x : XForm)
  /-- SMAD (R214). -/
  | smad (e : Ext)
  /-- SMOVI (R214). -/
  | smovi (e : Ext)
  /-- SSETP (R214). -/
  | ssetp (e : Ext)
  /-- SSEL (R214). -/
  | ssel (e : Ext)
  /-- SLEA (R214). -/
  | slea (e : Ext)
  /-- SAND_BASE (R214). -/
  | sandBase (b : Base)
  /-- SAND_EXT (R214). -/
  | sandExt (x : XForm)
  /-- SOR_BASE (R214). -/
  | sorBase (b : Base)
  /-- SOR_EXT (R214). -/
  | sorExt (x : XForm)
  /-- SXOR_BASE (R214). -/
  | sxorBase (b : Base)
  /-- SXOR_EXT (R214). -/
  | sxorExt (x : XForm)
  /-- SSHL_BASE (R214). -/
  | sshlBase (b : Base)
  /-- SSHL_EXT (R214). -/
  | sshlExt (x : XForm)
  /-- SSHR_BASE (R214). -/
  | sshrBase (b : Base)
  /-- SSHR_EXT (R214). -/
  | sshrExt (x : XForm)
  /-- SSAR_BASE (R214). -/
  | ssarBase (b : Base)
  /-- SSAR_EXT (R214). -/
  | ssarExt (x : XForm)
  /-- SLD (R216). -/
  | sld (e : Ext)
  /-- SST (R216). -/
  | sst (e : Ext)
  /-- SHFL (R218). -/
  | shfl (e : Ext)
  /-- VOTE (R219). -/
  | vote (e : Ext)
  /-- BALLOT (R219). -/
  | ballot (e : Ext)
  /-- MATCH (R220). -/
  | matchLanes (e : Ext)
  /-- RDLANE (R221). -/
  | rdlane (e : Ext)
  /-- WRLANE (R221). -/
  | wrlane (e : Ext)
  /-- REDUCE (R222). -/
  | reduce (e : Ext)
  /-- SCAN (R223). -/
  | scan (e : Ext)
  /-- FADD_BASE (R227). -/
  | faddBase (b : Base)
  /-- FADD_EXT (R227). -/
  | faddExt (x : XForm)
  /-- FSUB_BASE (R227). -/
  | fsubBase (b : Base)
  /-- FSUB_EXT (R227). -/
  | fsubExt (x : XForm)
  /-- FMUL_BASE (R227). -/
  | fmulBase (b : Base)
  /-- FMUL_EXT (R227). -/
  | fmulExt (x : XForm)
  /-- FMIN_BASE (R146). -/
  | fminBase (b : Base)
  /-- FMIN_EXT (R146). -/
  | fminExt (x : XForm)
  /-- FMAX_BASE (R146). -/
  | fmaxBase (b : Base)
  /-- FMAX_EXT (R146). -/
  | fmaxExt (x : XForm)
  /-- FFMA (R227). -/
  | ffma (e : Ext)
  /-- FSETP (R228). -/
  | fsetp (e : Ext)
  /-- FCLASS (R229). -/
  | fclass (e : Ext)
  /-- FRND (R227). -/
  | frnd (e : Ext)
  /-- FSCALE (R227). -/
  | fscale (e : Ext)
  /-- HADD2_BASE (R230). -/
  | hadd2Base (b : Base)
  /-- HADD2_EXT (R230). -/
  | hadd2Ext (x : XForm)
  /-- HMUL2_BASE (R230). -/
  | hmul2Base (b : Base)
  /-- HMUL2_EXT (R230). -/
  | hmul2Ext (x : XForm)
  /-- HMIN2_BASE (R230). -/
  | hmin2Base (b : Base)
  /-- HMIN2_EXT (R230). -/
  | hmin2Ext (x : XForm)
  /-- HMAX2_BASE (R230). -/
  | hmax2Base (b : Base)
  /-- HMAX2_EXT (R230). -/
  | hmax2Ext (x : XForm)
  /-- HFMA2 (R230). -/
  | hfma2 (e : Ext)
  /-- FDOT2 (R230). -/
  | fdot2 (e : Ext)
  /-- RCP_BASE (R231). -/
  | rcpBase (b : Base)
  /-- RCP_EXT (R231). -/
  | rcpExt (x : XForm)
  /-- RSQ_BASE (R231). -/
  | rsqBase (b : Base)
  /-- RSQ_EXT (R231). -/
  | rsqExt (x : XForm)
  /-- SQRT_BASE (R231). -/
  | sqrtBase (b : Base)
  /-- SQRT_EXT (R231). -/
  | sqrtExt (x : XForm)
  /-- EX2_BASE (R231). -/
  | ex2Base (b : Base)
  /-- EX2_EXT (R231). -/
  | ex2Ext (x : XForm)
  /-- LG2_BASE (R231). -/
  | lg2Base (b : Base)
  /-- LG2_EXT (R231). -/
  | lg2Ext (x : XForm)
  /-- SIN_BASE (R231). -/
  | sinBase (b : Base)
  /-- SIN_EXT (R231). -/
  | sinExt (x : XForm)
  /-- COS_BASE (R231). -/
  | cosBase (b : Base)
  /-- COS_EXT (R231). -/
  | cosExt (x : XForm)
  /-- TANH_BASE (R231). -/
  | tanhBase (b : Base)
  /-- TANH_EXT (R231). -/
  | tanhExt (x : XForm)
  /-- FCVT (R233). -/
  | fcvt (e : Ext)
  /-- F2I (R234). -/
  | f2i (e : Ext)
  /-- I2F (R235). -/
  | i2f (e : Ext)
  /-- FPACK (R236). -/
  | fpack (e : Ext)
  /-- LD (R242). -/
  | ld (e : Ext)
  /-- LDP (R244). -/
  | ldp (e : Ext)
  /-- ST (R243). -/
  | st (e : Ext)
  /-- MST (R251). -/
  | mst (e : Ext)
  /-- RST (R252). -/
  | rst (e : Ext)
  /-- PAGEREQ (R245). -/
  | pagereq (e : Ext)
  /-- PREFETCH (R246). -/
  | prefetch (e : Ext)
  /-- ATOM_ADD (R248). -/
  | atomAdd (e : Ext)
  /-- ATOM_MIN (R248). -/
  | atomMin (e : Ext)
  /-- ATOM_MAX (R248). -/
  | atomMax (e : Ext)
  /-- ATOM_AND (R248). -/
  | atomAnd (e : Ext)
  /-- ATOM_OR (R248). -/
  | atomOr (e : Ext)
  /-- ATOM_XOR (R248). -/
  | atomXor (e : Ext)
  /-- ATOM_EXCH (R248). -/
  | atomExch (e : Ext)
  /-- CAS (R248). -/
  | cas (e : Ext)
  /-- RED_ADD (R248). -/
  | redAdd (e : Ext)
  /-- RED_MIN (R248). -/
  | redMin (e : Ext)
  /-- RED_MAX (R248). -/
  | redMax (e : Ext)
  /-- RED_AND (R248). -/
  | redAnd (e : Ext)
  /-- RED_OR (R248). -/
  | redOr (e : Ext)
  /-- RED_XOR (R248). -/
  | redXor (e : Ext)
  /-- FENCE (R254). -/
  | fence (e : Ext)
  /-- CPFENCE (R255). -/
  | cpfence (e : Ext)
  /-- CPY (R258). -/
  | cpy (e : Ext)
  /-- CPYT (R257). -/
  | cpyt (e : Ext)
  /-- COPY_PREWALK_DONE (R258). -/
  | copyPrewalkDone (job : Nat)
  /-- COPY_SECTOR_LAND (R258). -/
  | copySectorLand (job sector : Nat)
  /-- LEASE (R260). -/
  | lease (e : Ext)
  /-- LREL (R261). -/
  | lrel (e : Ext)
  /-- TXBINIT (R262). -/
  | txbinit (e : Ext)
  /-- TXBEXP (R262). -/
  | txbexp (e : Ext)
  /-- TXBARR (R262). -/
  | txbarr (e : Ext)
  /-- TXBWAIT (R263). -/
  | txbwait (e : Ext)
  /-- CINV (R264). -/
  | cinv (e : Ext)
  /-- CWB (R264). -/
  | cwb (e : Ext)
  /-- TLBINV (R265). -/
  | tlbinv (e : Ext)
  /-- TLBINV_ALL (R265). -/
  | tlbinvAll (e : Ext)
  /-- MMA (R272). -/
  | mma (e : Ext)
  /-- MMAS (R276). -/
  | mmas (e : Ext)
  /-- MATRIX_STEP (R274). -/
  | matrixStep (part core engine : Nat)
  /-- TMMA (R279). -/
  | tmma (e : Ext)
  /-- TSQ_STEP (R281). -/
  | tsqStep (part core engine : Nat)
  /-- MZERO (R283). -/
  | mzero (e : Ext)
  /-- MSLOT (R286). -/
  | mslot (e : Ext)
  /-- MSTAT (R287). -/
  | mstat (e : Ext)
  /-- MXE_SLOT_BOUNDARY (R284). -/
  | mxeSlotBoundary
  /-- FUT_SPLIT (R291). -/
  | futSplit (e : Ext)
  /-- FUT_ENTER (R292). -/
  | futEnter (e : Ext)
  /-- FUT_COMMIT (R294). -/
  | futCommit (e : Ext)
  /-- FUTURE_COMMIT_POINT (R126). -/
  | futureCommitPoint (tag : Nat)
  /-- FUT_SQUASH (R295). -/
  | futSquash (e : Ext)
  /-- FUT_STAT (R296). -/
  | futStat (e : Ext)
  /-- FUT_WAIT_DONE (R297). -/
  | futWaitDone (e : Ext)
  /-- FUT_WAIT_FREE (R297). -/
  | futWaitFree (e : Ext)
  /-- SQUASH_DRAIN_COMPLETE (R125). -/
  | squashDrainComplete (tag : Nat)
  /-- TAG_RECLAIM_COMPLETE (R125). -/
  | tagReclaimComplete (tag : Nat)
  /-- FLIP (R299). -/
  | flip (e : Ext)
  /-- ICKPT (R301). -/
  | ickpt (e : Ext)
  /-- SINK_SLOT_START (R299). -/
  | sinkSlotStart (sink : Nat)
  /-- TRACE (R316). -/
  | trace (e : Ext)
  /-- TRACE_AH (R317). -/
  | traceAh (e : Ext)
  /-- RAY_TRAVERSAL_END (R316). -/
  | rayTraversalEnd (ray : Nat)
  /-- RAY_CANDIDATE_READY (R317). -/
  | rayCandidateReady (ray : Nat)
  /-- RAYGET (R317). -/
  | rayget (e : Ext)
  /-- HITACC (R318). -/
  | hitacc (e : Ext)
  /-- HITREJ (R318). -/
  | hitrej (e : Ext)
  /-- HITEND (R318). -/
  | hitend (e : Ext)
  /-- BEAM (R324). -/
  | beam (e : Ext)
  /-- BEAM_COMPLETE (R324). -/
  | beamComplete (beam : Nat)
  /-- TEX (R330). -/
  | tex (e : Ext)
  /-- TEXG (R332). -/
  | texg (e : Ext)
  /-- TEXQ (R332). -/
  | texq (e : Ext)
  /-- GATHER_RESULT_RETURN (R330). -/
  | gatherResultReturn (req : Nat)
  /-- ATLREQ (R326). -/
  | atlreq (e : Ext)
  /-- ATLMAP (R326). -/
  | atlmap (e : Ext)
  /-- BLD_BUILD (R342). -/
  | bldBuild (e : Ext)
  /-- BLD_REFIT (R342). -/
  | bldRefit (e : Ext)
  /-- BLD_REBAL (R342). -/
  | bldRebal (e : Ext)
  /-- BUILD_JOB_COMPLETE (R343). -/
  | buildJobComplete (job : Nat)
  /-- ARENA_EXTENSION_SERVICE (R344). -/
  | arenaExtensionService (job : Nat) (granted : Bool)
  /-- BLD_PUB (R355). -/
  | bldPub (e : Ext)
  /-- BLD_PIN (R356). -/
  | bldPin (e : Ext)
  /-- BLD_UNPIN (R356). -/
  | bldUnpin (e : Ext)
  /-- BLD_GEN (R357). -/
  | bldGen (e : Ext)
  /-- BLD_QUAL (R358). -/
  | bldQual (e : Ext)
  /-- GENERATION_RECLAIM_COMPLETE (R349). -/
  | generationReclaimComplete (part ctx gen : Nat)
  /-- SIGRD (R376). -/
  | sigrd (e : Ext)
  /-- SIGCHK (R376). -/
  | sigchk (e : Ext)
  /-- REPL_COMPARISON (R366). -/
  | replComparison (fibre : Nat)
  /-- REPL_COMPARE_TIMEOUT (R366). -/
  | replCompareTimeout (fibre : Nat)
  /-- INTERVAL_BOUNDARY (R380). -/
  | intervalBoundary (part : Nat)
  /-- INTERVAL_CAPTURE (R382). -/
  | intervalCapture (part : Nat)
  /-- STARVATION_BREAK (R32). -/
  | starvationBreak (gang : GangId)
  /-- PRIMARY_WAVE_AGE_LIMIT (R34). -/
  | primaryWaveAgeLimit (gang : GangId)
  /-- GANG_TIER (R39). -/
  | gangTier (gang : GangId)
  /-- GANG_RECALL (R39). -/
  | gangRecall (gang : GangId)
  /-- TEMPLATE_INSTANCE_START (R54). -/
  | templateInstanceStart (part pipe stage : Nat)
  /-- QUEUE_ENTRY_ARRIVAL (R57). -/
  | queueEntryArrival (port : PortId)
  /-- QUEUE_PORT_RESEND (R57). -/
  | queuePortResend (port : PortId) (pipe queue : Nat)
  /-- VERTICAL_ENTRY_ARRIVAL (R59). -/
  | verticalEntryArrival (part core : Nat)
  /-- VERTICAL_PORT_RESEND (R59). -/
  | verticalPortResend (part core engine : Nat)
  /-- QUEUE_CLOSE_ARRIVAL (R482). -/
  | queueCloseArrival (part pipe queue : Nat)
  /-- STAGE_CORE_REBALANCE (R60). -/
  | stageCoreRebalance (part pipe : Nat)
  /-- BARRIER_TIMEOUT (R484). -/
  | barrierTimeout (group : GroupId) (barrier : Nat)
  /-- CONVERGE_TIMEOUT (R484). -/
  | convergeTimeout (group : GroupId) (reg : Nat)
  /-- SLEEP_EXPIRE (R190). -/
  | sleepExpire (fibre : Nat)
  /-- REPACK_BUDGET_EXPIRE (R192). -/
  | repackBudgetExpire (collection : Nat)
  /-- LOAD_RESPONSE (R79). -/
  | loadResponse (req : Nat)
  /-- REGISTRATION_REQUEST (R78). -/
  | registrationRequest (core tag block : Nat)
  /-- REGISTRY_ACK (R80). -/
  | registryAck (core tag block : Nat)
  /-- FORWARDED_REQUEST (R79). -/
  | forwardedRequest (owner tag word : Nat) (acquire : Bool)
  /-- L1_FILL (R107). -/
  | l1Fill (core tag line : Nat) (met : Bool) (victim : Option (Nat × Nat))
  /-- VAC_FILL (R124). -/
  | vacFill (tag line : Nat)
  /-- PAGE_WALK (R70). -/
  | pageWalk (part core : Nat) (va : BitVec 64)
  /-- MMP_FAULT_SERVICE (R73). -/
  | mmpFaultService (part : Nat) (va : BitVec 64)
  /-- LEASE_EXPIRE (R85). -/
  | leaseExpire (part handle : Nat)
  /-- ENGINE_WAY_TIMEOUT (R479). -/
  | engineWayTimeout (job : Nat)
  /-- CXL_MEM_READ (R109). -/
  | cxlMemRead (addr count : Nat)
  /-- CXL_MEM_WRITE (R109). -/
  | cxlMemWrite (addr : Nat) (data : List (BitVec 8))
  /-- SNP_INV (R431). -/
  | snpInv (line : Nat)
  /-- SNP_DATA (R431). -/
  | snpData (line : Nat)
  /-- SNP_CUR (R431). -/
  | snpCur (line : Nat)
  /-- CXL_CACHE_COMPLETION (R431). -/
  | cxlCacheCompletion (line : Nat) (own grantE : Bool) (answer : HostAnswer)
  /-- CXL_COMPLETION_TIMEOUT (R472). -/
  | cxlCompletionTimeout (req line : Nat)
  /-- PEER_WRITE_ACK (R110). -/
  | peerWriteAck (fibre : Nat)
  /-- CREATE (R390). -/
  | create (part : Nat)
  /-- RESET (R390). -/
  | reset (part : Nat)
  /-- RESET_COMPLETE (R504). -/
  | resetComplete (part : Nat)
  /-- SUSPEND (R416). -/
  | suspend (part : Nat)
  /-- RESUME (R390). -/
  | resume (part : Nat) (arg : BitVec 48)
  /-- DESTROY (R390). -/
  | destroy (part : Nat)
  /-- DESTROY_COMPLETE (R390). -/
  | destroyComplete (part : Nat)
  /-- PART_CMD_UNKNOWN (R390). -/
  | partCmdUnknown (part cmd : Nat)
  /-- PART_LAUNCH (R392). -/
  | partLaunch (part : Nat) (word : BitVec 64)
  /-- REQUEST_RECORD_SERVICE (R391). -/
  | requestRecordService (part : Nat)
  /-- HOST_EVENT_POST (R396). -/
  | hostEventPost (part : Nat)
  /-- HSVC_ANS (R395). -/
  | hsvcAns (part : Nat) (word : BitVec 64)
  /-- HOST_EVENT_TIMEOUT (R396). -/
  | hostEventTimeout (part seq : Nat)
  /-- FPOOL_WRITE (R75). -/
  | fpoolWrite (part : Nat) (value : BitVec 64)
  /-- FSC_CONTRACT_WRITE (R401). -/
  | fscContractWrite (part k : Nat) (value : BitVec 64)
  /-- SINK_MODE_WRITE (R399). -/
  | sinkModeWrite (offset : Nat) (value : BitVec 64)
  /-- VLT_PWR_WRITE (R427). -/
  | vltPwrWrite (part core : Nat) (value : BitVec 8)
  /-- VAULT_SLAB_WAKE_DONE (R427). -/
  | vaultSlabWakeDone (part core slab : Nat)
  /-- DBG_CTL_WRITE (R430). -/
  | dbgCtlWrite (value : BitVec 64)
  /-- DBG_RESUME (R430). -/
  | dbgResume (value : BitVec 64)
  /-- DEBUG_MEMORY_READ (R429). -/
  | debugMemoryRead (part core array offset : Nat)
  /-- REGISTER_WRITE (R388). -/
  | registerWrite (part : Option Nat) (offset : Nat) (value : BitVec 64)
  /-- FSC_PERIOD_START (R400). -/
  | fscPeriodStart (part k : Nat)
  /-- FSC_BUDGET_EXHAUSTED (R403). -/
  | fscBudgetExhausted (part k : Nat)
  /-- FSC_PREEMPT (R404). -/
  | fscPreempt (part : Nat)
  /-- PREEMPT_DEADLINE (R406). -/
  | preemptDeadline (part : Nat)
  /-- GANG_RESTORE (R407). -/
  | gangRestore (gang : GangId)
  /-- EMERGENCY_IMAGE_COPY (R409). -/
  | emergencyImageCopy (part : Nat)
  /-- SAVE_DIVERT_TIMEOUT (R501). -/
  | saveDivertTimeout (part : Nat)
  /-- THERMAL_SENSOR_SAMPLE (R426). -/
  | thermalSensorSample (core : Nat) (reading : BitVec 12)
  /-- MIGRATION_MOVE (R413). -/
  | migrationMove (part core : Nat)
  /-- COOLING_LOOP_LOSS (R424). -/
  | coolingLoopLoss (zone : Nat) (lost : Bool × Bool)
  /-- NOMINAL_TABLE_RETURN (R424). -/
  | nominalTableReturn
  /-- PERST_DEASSERT (R421). -/
  | perstDeassert (fail : Option BringFail)
  /-- FIRMWARE_RELOAD (R420). -/
  | firmwareReload (version : BitVec 16) (fail : Option BringFail)
  /-- ANS_ROLLBACK (R442). -/
  | ansRollback (part : Nat)
  /-- ANS_TERMINATE (R442). -/
  | ansTerminate (part : Nat)
  /-- ANS_RESET (R442). -/
  | ansReset (part : Nat)
  /-- ANS_RELEASE (R498). -/
  | ansRelease (part : Nat)
  /-- REPL_MISMATCH_TIMEOUT (R442). -/
  | replMismatchTimeout (part : Nat)
  /-- BOND_LANE_TEST (R470). -/
  | bondLaneTest (core channel offset : Nat) (failing : List Nat) (resent : Bool)
  /-- GDDR7_RETRAIN (R471). -/
  | gddr7Retrain (sector : Nat) (resends : Nat) (passed isWrite : Bool)
  /-- HOST_LINK_LOSS (R472). -/
  | hostLinkLoss
  /-- SUSPEND_COMPLETE (R416). -/
  | suspendComplete (part : Nat)
  /-- BACK_INVALIDATION_COMPLETE (R109). -/
  | backInvalidationComplete (line : Nat)
  deriving DecidableEq, Repr

noncomputable section

/-- The row of an event. -/
def Event.toInstr : Event → Instr
  | .copyPrewalkDone job => .copyPrewalkDone job
  | .copySectorLand job sector => .copySectorLand job sector
  | .matrixStep part core engine => .matrixStep part core engine
  | .tsqStep part core engine => .tsqStep part core engine
  | .mxeSlotBoundary => .mxeSlotBoundary
  | .futureCommitPoint tag => .futureCommitPoint tag
  | .squashDrainComplete tag => .squashDrainComplete tag
  | .tagReclaimComplete tag => .tagReclaimComplete tag
  | .sinkSlotStart sink => .sinkSlotStart sink
  | .rayTraversalEnd ray => .rayTraversalEnd ray
  | .rayCandidateReady ray => .rayCandidateReady ray
  | .beamComplete beam => .beamComplete beam
  | .gatherResultReturn req => .gatherResultReturn req
  | .buildJobComplete job => .buildJobComplete job
  | .arenaExtensionService job granted => .arenaExtensionService job granted
  | .generationReclaimComplete part ctx gen => .generationReclaimComplete part ctx gen
  | .replComparison fibre => .replComparison fibre
  | .replCompareTimeout fibre => .replCompareTimeout fibre
  | .intervalBoundary part => .intervalBoundary part
  | .intervalCapture part => .intervalCapture part
  | .starvationBreak gang => .starvationBreak gang
  | .primaryWaveAgeLimit gang => .primaryWaveAgeLimit gang
  | .gangTier gang => .gangTier gang
  | .gangRecall gang => .gangRecall gang
  | .templateInstanceStart part pipe stage => .templateInstanceStart part pipe stage
  | .queueEntryArrival port => .queueEntryArrival port
  | .queuePortResend port pipe queue => .queuePortResend port pipe queue
  | .verticalEntryArrival part core => .verticalEntryArrival part core
  | .verticalPortResend part core engine => .verticalPortResend part core engine
  | .queueCloseArrival part pipe queue => .queueCloseArrival part pipe queue
  | .stageCoreRebalance part pipe => .stageCoreRebalance part pipe
  | .barrierTimeout group barrier => .barrierTimeout group barrier
  | .convergeTimeout group reg => .convergeTimeout group reg
  | .sleepExpire fibre => .sleepExpire fibre
  | .repackBudgetExpire collection => .repackBudgetExpire collection
  | .loadResponse req => .loadResponse req
  | .registrationRequest core tag block => .registrationRequest core tag block
  | .registryAck core tag block => .registryAck core tag block
  | .forwardedRequest owner tag word acquire => .forwardedRequest owner tag word acquire
  | .l1Fill core tag line met victim => .l1Fill core tag line met victim
  | .vacFill tag line => .vacFill tag line
  | .pageWalk part core va => .pageWalk part core va
  | .mmpFaultService part va => .mmpFaultService part va
  | .leaseExpire part handle => .leaseExpire part handle
  | .engineWayTimeout job => .engineWayTimeout job
  | .cxlMemRead addr count => .cxlMemRead addr count
  | .cxlMemWrite addr data => .cxlMemWrite addr data
  | .snpInv line => .snpInv line
  | .snpData line => .snpData line
  | .snpCur line => .snpCur line
  | .cxlCacheCompletion line own grantE answer => .cxlCacheCompletion line own grantE answer
  | .cxlCompletionTimeout req line => .cxlCompletionTimeout req line
  | .peerWriteAck fibre => .peerWriteAck fibre
  | .create part => .create part
  | .reset part => .reset part
  | .resetComplete part => .resetComplete part
  | .suspend part => .suspend part
  | .resume part arg => .resume part arg
  | .destroy part => .destroy part
  | .destroyComplete part => .destroyComplete part
  | .partCmdUnknown part cmd => .partCmdUnknown part cmd
  | .partLaunch part word => .partLaunch part word
  | .requestRecordService part => .requestRecordService part
  | .hostEventPost part => .hostEventPost part
  | .hsvcAns part word => .hsvcAns part word
  | .hostEventTimeout part seq => .hostEventTimeout part seq
  | .fpoolWrite part value => .fpoolWrite part value
  | .fscContractWrite part k value => .fscContractWrite part k value
  | .sinkModeWrite offset value => .sinkModeWrite offset value
  | .vltPwrWrite part core value => .vltPwrWrite part core value
  | .vaultSlabWakeDone part core slab => .vaultSlabWakeDone part core slab
  | .dbgCtlWrite value => .dbgCtlWrite value
  | .dbgResume value => .dbgResume value
  | .debugMemoryRead part core array offset => .debugMemoryRead part core array offset
  | .registerWrite part offset value => .registerWrite part offset value
  | .fscPeriodStart part k => .fscPeriodStart part k
  | .fscBudgetExhausted part k => .fscBudgetExhausted part k
  | .fscPreempt part => .fscPreempt part
  | .preemptDeadline part => .preemptDeadline part
  | .gangRestore gang => .gangRestore gang
  | .emergencyImageCopy part => .emergencyImageCopy part
  | .saveDivertTimeout part => .saveDivertTimeout part
  | .thermalSensorSample core reading => .thermalSensorSample core reading
  | .migrationMove part core => .migrationMove part core
  | .coolingLoopLoss zone lost => .coolingLoopLoss zone lost
  | .nominalTableReturn => .nominalTableReturn
  | .perstDeassert fail => .perstDeassert fail
  | .firmwareReload version fail => .firmwareReload version fail
  | .ansRollback part => .ansRollback part
  | .ansTerminate part => .ansTerminate part
  | .ansReset part => .ansReset part
  | .ansRelease part => .ansRelease part
  | .replMismatchTimeout part => .replMismatchTimeout part
  | .bondLaneTest core channel offset failing resent => .bondLaneTest core channel offset failing resent
  | .gddr7Retrain sector resends passed isWrite => .gddr7Retrain sector resends passed isWrite
  | .hostLinkLoss => .hostLinkLoss
  | .suspendComplete part => .suspendComplete part
  | .backInvalidationComplete line => .backInvalidationComplete line

end

end Sys2Proof
end

