-- ==== Sys2Proof/Machine/Forms.lean ====
section
/-! DEFINITION. The encoding rules of the extended form, one table entry for each MAJOR and MINOR: which TYPE codes an
instruction accepts, which MOD bits it gives a meaning to, and what each register field names (R159 to R164,
and the forms table of each instruction chapter). The static checks of R169, the register uses of R160 and R37,
and the step mask of REP (R171, R172) are all read off this one table. -/

namespace Sys2Proof

/-! ### Type codes and fields of MOD -/

/-- Code of an operand type (R162). -/
def OpType.code : OpType → BitVec 4
  | .f32 => 0 | .f16 => 1 | .bf16 => 2 | .e4m3 => 3 | .e5m2 => 4 | .e2m1 => 5 | .b32 => 6 | .b64 => 7
  | .s8 => 8 | .s16 => 9 | .s32 => 10 | .s64 => 11 | .n8 => 12 | .n16 => 13 | .n32 => 14 | .n64 => 15

/-- The operand type of a code (R162). -/
def OpType.ofCode (c : BitVec 4) : OpType :=
  match c.toNat with
  | 0 => .f32 | 1 => .f16 | 2 => .bf16 | 3 => .e4m3 | 4 => .e5m2 | 5 => .e2m1 | 6 => .b32 | 7 => .b64
  | 8 => .s8 | 9 => .s16 | 10 => .s32 | 11 => .s64 | 12 => .n8 | 13 => .n16 | 14 => .n32 | _ => .n64

/-- Width in bits of an element of a type (R140, R162). -/
def OpType.width : OpType → Nat
  | .f32 | .b32 | .s32 | .n32 => 32
  | .f16 | .bf16 | .s16 | .n16 => 16
  | .e4m3 | .e5m2 | .s8 | .n8 => 8
  | .e2m1 => 4
  | .b64 | .s64 | .n64 => 64

/-- The S types. -/
def OpType.signed : OpType → Bool
  | .s8 | .s16 | .s32 | .s64 => true
  | .f32 | .f16 | .bf16 | .e4m3 | .e5m2 | .e2m1 | .b32 | .b64 | .n8 | .n16 | .n32 | .n64 => false

/-- The floating-point types. -/
def OpType.isFloat : OpType → Bool
  | .f32 | .f16 | .bf16 | .e4m3 | .e5m2 | .e2m1 => true
  | .b32 | .b64 | .s8 | .s16 | .s32 | .s64 | .n8 | .n16 | .n32 | .n64 => false

/-- The 64-bit types, whose v-register operands are pairs (R207). -/
def OpType.wide (t : OpType) : Bool := t.width == 64

/-- RND of the arithmetic class (R163). -/
def Ext.rnd (e : Ext) : Nat := (e.mod.extractLsb' 8 2).toNat
/-- SAT of the arithmetic class (R163). -/
def Ext.sat (e : Ext) : Bool := e.mod.getLsbD 7
/-- XOP of the arithmetic class (R163). -/
def Ext.xop (e : Ext) : BitVec 7 := e.mod.extractLsb' 0 7
/-- SYNC of the memory class (R163). -/
def Ext.sync (e : Ext) : Nat := (e.mod.extractLsb' 8 2).toNat
/-- SCOPE of the memory class (R163). -/
def Ext.scope (e : Ext) : Nat := (e.mod.extractLsb' 5 3).toNat
/-- WIN of the memory class (R163). -/
def Ext.win (e : Ext) : Nat := (e.mod.extractLsb' 2 3).toNat
/-- IRREV of the memory class (R163). -/
def Ext.irrev (e : Ext) : Bool := e.mod.getLsbD 1
/-- DORD of the memory class (R163). -/
def Ext.dord (e : Ext) : Bool := e.mod.getLsbD 0

/-! ### Forms -/

/-- How many registers a v-register field names: one, one or a pair by TYPE, a pair, a range, or the range of
the count field C of LD, LDP and ST (R239). -/
inductive Wid where
  | one | typ | pair | span (n : Nat) | cnt
  deriving DecidableEq, Repr

/-- What a field D, A or C holds. -/
inductive Slot where
  /-- Unused: the field and its kind bit are zero (R160). -/
  | no
  /-- Unused in a scalar major: the field is zero and the kind bit is one (R213). -/
  | noS
  /-- A v-register; the kind bit is zero. -/
  | v (w : Wid)
  /-- `n` consecutive s-registers; the kind bit is one. -/
  | s (n : Nat)
  /-- A v-register operand of width `w`, or `n` s-registers, by the kind bit. -/
  | vs (w : Wid) (n : Nat)
  /-- A predicate number in C[3:0] (R207). -/
  | p
  /-- A plain number out of a list; the kind bit is zero. -/
  | num (ok : List Nat)
  deriving DecidableEq, Repr

/-- What B and BK hold. -/
inductive BSlot where
  /-- Unused: B is zero and BK is the value given. -/
  | no (bk : Nat)
  /-- A source with the BK values given; `w` is the width of a v-register, `n` counts s-registers; `lit64` says
  that a literal is not held to 32 bits (R166); `nonneg` that a negative IMM is refused (R182). -/
  | src (bks : List Nat) (w : Wid) (n : Nat) (lit64 nonneg : Bool)
  /-- The index of a memory operand, with the BK values given (R164). -/
  | index (bks : List Nat)
  deriving DecidableEq, Repr

/-- What PDV and PD hold (R160). -/
inductive PdUse where
  | no | yes | opt
  deriving DecidableEq, Repr

/-- The limits on MOD of a memory-class instruction (R163, R238); `scopeFree` lets SCOPE stand without SYNC. -/
structure MemMod where
  syncs : List Nat
  wins : List Nat
  irrev : Bool
  dord : Bool
  scopeFree : Bool
  deriving DecidableEq, Repr

/-- The encoding rules of one instruction. -/
structure Form where
  types : List OpType
  modMask : BitVec 10 := 0
  mem : Option MemMod := none
  d : Slot := .no
  /-- D is a source as well (`2`), only a source (`1`), or only a destination (`0`). -/
  dSrc : Nat := 0
  a : Slot := .no
  b : BSlot := .no 0
  c : Slot := .no
  pd : PdUse := .no
  /-- IMM has a use of the instruction's own. -/
  ownImm : Bool := false
  deriving DecidableEq, Repr

/-- A register use: `count` registers from `num` of the v-file or (`sfile`) the s-file. -/
structure RegUse where
  sfile : Bool
  num : Nat
  count : Nat
  rd : Bool
  wr : Bool
  deriving DecidableEq, Repr

/-- A register use covers a register. -/
def RegUse.covers (u : RegUse) (sfile : Bool) (n : Nat) : Bool := u.sfile == sfile && u.num ≤ n && n < u.num + u.count

/-- The length in bytes of an extended form (R152). -/
def Ext.len (e : Ext) : Nat := if e.lit.isSome then 20 else 12
/-- The length in bytes of a longer form (R152). -/
def XForm.len : XForm → Nat
  | .ext e => e.len
  | .baseLit _ _ => 12

/-- How many registers a field of a width names. -/
def Wid.count (w : Wid) (e : Ext) : Nat :=
  match w with
  | .one => 1
  | .typ => if e.ty.wide then 2 else 1
  | .pair => 2
  | .span n => n
  | .cnt => if e.c = 0 then (if e.ty.wide then 2 else 1) else e.c.toNat

/-- The field must be even: it names a pair (R160). -/
def Wid.even (w : Wid) (e : Ext) : Bool :=
  match w with
  | .one | .span _ => false
  | .typ => e.ty.wide
  | .pair => true
  | .cnt => e.c == 0 && e.ty.wide

/-! ### Type lists -/

def tS : List OpType := [.s8, .s16, .s32, .s64]
def tSN : List OpType := [.s8, .s16, .s32, .s64, .n8, .n16, .n32, .n64]
def t3264 : List OpType := [.s32, .n32, .s64, .n64]
def tB : List OpType := [.b32, .b64]
def tF : List OpType := [.f32, .f16, .bf16, .e4m3, .e5m2, .e2m1]
def tS64 : List OpType := [.s64, .n64]
def tS64B : List OpType := [.s64, .n64, .b64]
/-- The sizes of R239. -/
def tAccess : List OpType :=
  [.f32, .f16, .bf16, .e4m3, .e5m2, .b32, .b64, .s8, .s16, .s32, .s64, .n8, .n16, .n32, .n64]
/-- The types of SLD and SST (R215). -/
def tScalarAccess : List OpType := [.b32, .b64, .s8, .s16, .s32, .s64, .n8, .n16, .n32, .n64]

/-! ### The forms of the instruction chapters -/

/-- B as a general source: BK 0 to 3. -/
def bAny (w : Wid) : BSlot := .src [0, 1, 2, 3] w 1 false false
/-- B of a scalar instruction: 64-bit, BK 1 to 3 (R213). -/
def bScalar : BSlot := .src [1, 2, 3] .one 1 true false

/-- Memory-class MOD of an ordinary access. -/
def memMod (syncs : List Nat) (irrev : Bool) : MemMod :=
  { syncs := syncs, wins := [0, 1, 2, 3, 4], irrev := irrev, dord := false, scopeFree := false }
/-- Base slot of a memory operand (R164). -/
def baseSlot : Slot := .vs .pair 1
/-- Index slot of a memory operand (R164). -/
def indexSlot : BSlot := .index [0, 1, 2]

/-- Majors 0x01 to 0x06 (R183; R417 for PREQ and MIGR). -/
def formFlow (major minor : Nat) (e : Ext) : Option Form :=
  let t : List OpType := [.b32]
  match major, minor with
  | 1, 0 => some { types := t, b := .src [2, 3] .one 1 true false }
  | 1, 1 => some { types := t, d := .v .pair, b := .src [2, 3] .one 1 true false }
  | 1, 2 => some { types := t, a := .vs .pair 1 }
  | 1, 3 => some { types := t, d := .v .pair, a := .vs .pair 1 }
  | 1, 4 => some { types := t, a := .v .pair }
  | 2, 0 => some { types := t }
  | 2, 1 => some { types := t }
  | 2, 2 => some { types := t, pd := .yes }
  | 2, 3 => some { types := t, b := .src [0, 1, 2] .one 1 false true }
  | 2, 4 => some { types := t, pd := .yes, a := .vs .one 1 }
  | 2, 5 => some { types := t, modMask := 1, pd := .yes, a := .vs .pair 1, b := .src [0, 1, 2] .one 1 false true,
                   c := if e.mod.getLsbD 0 then .s 1 else .no }
  | 2, 6 => some { types := t, a := .v .one, b := .src [1, 2] .one 1 false true }
  | 3, 0 => some { types := t, modMask := 1, pd := .yes, d := .s 1 }
  | 3, 1 => some { types := t, pd := .yes, a := .s 1 }
  | 3, 2 => some { types := t, pd := .yes }
  | 3, 3 => some { types := t, pd := .yes, a := .s 1 }
  | 3, 4 => some { types := t, modMask := 3 }
  | 3, 5 => some { types := t, modMask := 3 }
  | 3, 6 => some { types := t, modMask := 3 }
  | 3, 7 => some { types := t, modMask := 7, b := .src [1, 2] .one 1 false true }
  | 3, 8 => some { types := t, modMask := 7 }
  | 3, 9 => some { types := t, modMask := 7 }
  | 4, 0 => some { types := t, modMask := 7, a := .v (.span 16) }
  | 4, 1 => some { types := t, modMask := 7, pd := .yes, d := .v (.span 16) }
  | 4, 2 => some { types := t, modMask := 7, d := .v .one }
  | 4, 3 => some { types := t, modMask := 7 }
  | 5, 0 => some { types := t, modMask := 1, d := .s 1, a := .s 1, b := .src [1, 2] .one 1 false false,
                   c := if e.mod.getLsbD 0 then .s 1 else .no }
  | 5, 1 => some { types := t, d := .s 1, a := .s 1 }
  | 6, 0 => some { types := t, modMask := 15,
                   d := .vs (if [2, 10, 11, 12, 13].contains (e.mod.extractLsb' 0 4).toNat then .pair else .one) 1 }
  | 6, 1 => some { types := t, modMask := 15,
                   b := .src [0, 1, 2] (if [12, 13].contains (e.mod.extractLsb' 0 4).toNat then .pair else .one) 1
                     false false }
  | 6, 2 => some { types := t, ownImm := true }
  | 6, 3 => some { types := t, d := .v .one, ownImm := true }
  | 6, 4 => some { types := t, modMask := 3, pd := .yes, a := .s 1, b := .src [1, 2] .one 1 false false }
  | 6, 5 => some { types := t, ownImm := true }
  | 6, 6 => some { types := t }
  | 6, 7 => some { types := t }
  | 6, 8 => some { types := t, modMask := 3, d := .s 1, a := .s 1, b := .src [1, 2] .one 1 false false }
  | 6, 9 => some { types := t, modMask := 1, d := .s 1, a := .s 1, b := .src [1] .one 1 false false }
  | _, _ => none

/-- Majors 0x08 to 0x0C (R209 to R212). -/
def formInteger (major minor : Nat) : Option Form :=
  let rr : Slot := .vs .typ 1
  let one : Slot := .vs .one 1
  let bin (t : List OpType) (m : BitVec 10) : Form := { types := t, modMask := m, d := .v .typ, a := rr, b := bAny .typ }
  let un (t : List OpType) (m : BitVec 10) : Form := { types := t, modMask := m, d := .v .typ, b := bAny .typ }
  let tLog := t3264 ++ tB
  match major, minor with
  | 0x08, 0 => some (bin tSN 0x80)
  | 0x08, 1 => some (bin tSN 0x80)
  | 0x08, 2 => some (bin tSN 0)
  | 0x08, 3 => some (bin tSN 0)
  | 0x08, 4 => some (un tS 0x80)
  | 0x08, 5 => some (un tS 0x80)
  | 0x08, 6 => some (un (tSN ++ tB) 0)
  | 0x08, 7 => some { un (t3264 ++ tB) 0x7F with b := .src [2, 3] .typ 1 false false }
  | 0x08, 8 => some { bin tSN 0x80 with c := rr }
  | 0x08, 9 => some { types := [.s32, .n32], modMask := 7, d := .v .pair, a := .vs .pair 1, b := bAny .one }
  | 0x08, 10 => some { bin (tSN ++ tB) 0 with c := .p }
  | 0x08, 11 => some { types := tSN, modMask := 7, a := rr, b := bAny .typ, pd := .yes }
  | 0x09, 0 => some (bin tSN 0x80)
  | 0x09, 1 => some (bin t3264 0)
  | 0x09, 2 => some { bin tSN 0x80 with c := rr }
  | 0x09, 3 => some { types := [.s32, .n32], modMask := 0x80, d := .v .pair, a := one, b := bAny .one, c := .vs .pair 1 }
  | 0x09, 4 => some { types := [.s8, .n8], modMask := 0x81, d := .v .one, a := one, b := bAny .one, c := one }
  | 0x0A, 0 => some (bin tLog 0)
  | 0x0A, 1 => some (bin tLog 0)
  | 0x0A, 2 => some (bin tLog 0)
  | 0x0A, 3 => some (un tLog 0)
  | 0x0A, 4 => some { bin tLog 0 with b := .src [0, 1, 3] .typ 1 false false, c := rr, ownImm := true }
  | 0x0B, 0 => some { bin tLog 0 with b := bAny .one }
  | 0x0B, 1 => some { bin tLog 0 with b := bAny .one }
  | 0x0B, 2 => some { bin tLog 0 with b := bAny .one }
  | 0x0B, 3 => some { bin tLog 0 with b := bAny .one }
  | 0x0B, 4 => some { bin tLog 0 with c := one }
  | 0x0C, 0 => some { un (tLog ++ [.s8, .s16, .n8, .n16]) 0 with d := .v .one }
  | 0x0C, 1 => some { un (tLog ++ [.s8, .s16, .n8, .n16]) 0 with d := .v .one }
  | 0x0C, 2 => some { un (tLog ++ [.s8, .s16, .n8, .n16]) 0 with d := .v .one }
  | 0x0C, 3 => some { un (tLog ++ [.s8, .s16, .n8, .n16]) 0 with d := .v .one }
  | 0x0C, 4 => some (un tLog 0)
  | 0x0C, 5 => some { bin t3264 0 with b := bAny .one }
  | 0x0C, 6 => some { bin tLog 0 with b := bAny .one, c := rr }
  | 0x0C, 7 => some { bin [.b32] 0 with c := rr }
  | _, _ => none

/-- Majors 0x10 to 0x12 (R214, R215). -/
def formScalar (major minor : Nat) : Option Form :=
  let bin (t : List OpType) (m : BitVec 10) : Form := { types := t, modMask := m, d := .s 1, a := .s 1, b := bScalar }
  match major, minor with
  | 0x10, 0 => some (bin tS64 0x80)
  | 0x10, 1 => some (bin tS64 0x80)
  | 0x10, 2 => some (bin tS64 0x80)
  | 0x10, 3 => some (bin tS64 0)
  | 0x10, 4 => some (bin tS64 0)
  | 0x10, 5 => some { bin tS64B 0 with a := .noS }
  | 0x10, 6 => some { bin tS64 0x80 with c := .s 1 }
  | 0x10, 7 => some { types := [.b64], d := .s 1, dSrc := 2, a := .noS, b := .src [2, 3] .one 1 true false }
  | 0x10, 8 => some { types := tS64, modMask := 7, d := .noS, a := .s 1, b := bScalar, pd := .yes }
  | 0x10, 9 => some { bin tS64B 0 with c := .p }
  | 0x10, 10 => some (bin tS64 7)
  | 0x11, 0 => some (bin tS64B 0)
  | 0x11, 1 => some (bin tS64B 0)
  | 0x11, 2 => some (bin tS64B 0)
  | 0x11, 3 => some (bin tS64B 0)
  | 0x11, 4 => some (bin tS64B 0)
  | 0x11, 5 => some (bin tS64B 0)
  | 0x12, 0 => some { types := tScalarAccess, mem := some (memMod [0, 1] false), d := .s 1, a := .s 1, b := .index [1, 2] }
  | 0x12, 1 => some { types := tScalarAccess, mem := some (memMod [0, 2] true), d := .s 1, dSrc := 1, a := .s 1,
                      b := .index [1, 2] }
  | _, _ => none

/-- Majors 0x14 and 0x15 (R217, R222). -/
def formLane (major minor : Nat) : Option Form :=
  let tRed := [OpType.f32, .f16, .bf16, .s32, .n32, .s64, .n64, .b32, .b64]
  match major, minor with
  | 0x14, 0 => some { types := tB, modMask := 3, d := .v .typ, a := .v .typ, b := bAny .one, pd := .opt }
  | 0x14, 1 => some { types := [.b32], modMask := 3, c := .p, pd := .yes }
  | 0x14, 2 => some { types := [.b32], d := .vs .pair 1, c := .p }
  | 0x14, 3 => some { types := tB, d := .v .pair, a := .v .typ, pd := .opt }
  | 0x14, 4 => some { types := tB, d := .s 1, a := .v .typ, b := .src [1, 2] .one 1 true false, pd := .opt }
  | 0x14, 5 => some { types := tB, d := .v .typ, a := .s 1, b := .src [1, 2] .one 1 true false }
  | 0x15, 0 => some { types := tRed, modMask := 7, d := .s 1, a := .v .typ }
  | 0x15, 1 => some { types := tRed, modMask := 15, d := .v .typ, a := .v .typ }
  | _, _ => none

/-- Majors 0x18, 0x19, 0x1E and 0x1F (R227, R230 to R236). -/
def formFloat (major minor : Nat) : Option Form :=
  let one : Slot := .vs .one 1
  let bin (t : List OpType) (m : BitVec 10) : Form := { types := t, modMask := m, d := .v .one, a := one, b := bAny .one }
  let un (t : List OpType) (m : BitVec 10) : Form := { types := t, modMask := m, d := .v .one, b := bAny .one }
  let tH := [OpType.f16, .bf16]
  match major, minor with
  | 0x18, 0 => some (bin [.f32] 0x380)
  | 0x18, 1 => some (bin [.f32] 0x380)
  | 0x18, 2 => some (bin [.f32] 0x380)
  | 0x18, 3 => some (bin [.f32] 0)
  | 0x18, 4 => some (bin [.f32] 0)
  | 0x18, 5 => some { bin [.f32] 0x380 with c := one }
  | 0x18, 6 => some { types := [.f32], modMask := 15, a := one, b := bAny .one, pd := .yes }
  | 0x18, 7 => some (un [.f32] 0)
  | 0x18, 8 => some (un [.f32] 0x300)
  | 0x18, 9 => some (bin [.f32] 0x300)
  | 0x19, 0 => some (bin tH 0x380)
  | 0x19, 1 => some (bin tH 0x380)
  | 0x19, 2 => some (bin tH 0)
  | 0x19, 3 => some (bin tH 0)
  | 0x19, 4 => some { bin tH 0x380 with c := one }
  | 0x19, 5 => some { bin tH 0x380 with c := one }
  | 0x1E, 0 => some (un [.f32] 0x300)
  | 0x1E, 1 => some (un [.f32] 0)
  | 0x1E, 2 => some (un [.f32] 0x300)
  | 0x1E, 3 => some (un [.f32] 0)
  | 0x1E, 4 => some (un [.f32] 0)
  | 0x1E, 5 => some (un [.f32] 0)
  | 0x1E, 6 => some (un [.f32] 0)
  | 0x1E, 7 => some (un [.f32] 0)
  | 0x1F, 0 => some (un tF 0x3BF)
  | 0x1F, 1 => some { un tSN 0x307 with d := .v .typ }
  | 0x1F, 2 => some { un tSN 0x387 with b := bAny .typ }
  | 0x1F, 3 => some { bin [.f32] 0x3BF with dSrc := 2 }
  | _, _ => none

/-- Majors 0x20 to 0x27 and 0x37 (R238, R239, R247). -/
def formMemory (major minor : Nat) (e : Ext) : Option Form :=
  let acc (t : List OpType) (m : MemMod) : Form := { types := t, mem := some m, a := baseSlot, b := indexSlot }
  let tInt := t3264
  let tLogic := tB ++ t3264
  let ordOk := e.ty == .f32 || e.ty == .f16
  let atom (t : List OpType) (dord : Bool) : Form :=
    { acc t { memMod [0, 1, 2, 3] true with dord := dord } with d := .v .typ, c := .vs .typ 1 }
  let red (t : List OpType) (dord : Bool) : Form :=
    { acc t { memMod [0, 2] true with dord := dord } with d := .v .typ, dSrc := 1 }
  let t6 : List OpType := [.b32]
  let nowin (syncs : List Nat) : MemMod := { memMod syncs false with wins := [0] }
  let txb : MemMod := { memMod [0] false with wins := [0, 2] }
  let cntC : Slot := if e.ty = .b32 then .num [0, 4, 8, 16] else .num [0]
  match major, minor with
  | 0x20, 0 => some { acc tAccess (memMod [0, 1] false) with d := .v .cnt, c := cntC }
  | 0x20, 1 => some { acc tAccess (memMod [0] false) with d := .v .cnt, c := cntC, pd := .yes }
  | 0x21, 0 => some { acc tAccess (memMod [0, 2] true) with d := .v .cnt, dSrc := 1, c := cntC }
  | 0x22, 0 => some { acc tAccess (memMod [0, 2] true) with d := .v .typ, dSrc := 1, c := .s 1 }
  | 0x22, 1 => some { acc [.f32, .f16, .bf16, .s32, .n32, .s64, .n64, .b32, .b64] (memMod [0, 2] true) with
                      d := .v .typ, dSrc := 1, c := .s 1 }
  | 0x23, 0 => some (acc t6 (memMod [0] false))
  | 0x23, 1 => some { acc t6 (memMod [0] false) with c := .num [0, 1] }
  | 0x24, 0 => some (atom (t3264 ++ [.f32, .f16]) ordOk)
  | 0x24, 1 => some (atom tInt false)
  | 0x24, 2 => some (atom tInt false)
  | 0x24, 3 => some (atom tLogic false)
  | 0x24, 4 => some (atom tLogic false)
  | 0x24, 5 => some (atom tLogic false)
  | 0x24, 6 => some (atom (.f32 :: tLogic) false)
  | 0x24, 7 => some { atom tLogic false with dSrc := 2 }
  | 0x25, 0 => some (red (t3264 ++ [.f32, .f16]) ordOk)
  | 0x25, 1 => some (red tInt false)
  | 0x25, 2 => some (red tInt false)
  | 0x25, 3 => some (red tLogic false)
  | 0x25, 4 => some (red tLogic false)
  | 0x25, 5 => some (red tLogic false)
  | 0x26, 0 => some { types := t6, mem := some (nowin [1, 2, 3]) }
  | 0x26, 1 => some { types := t6, mem := some { nowin [0] with scopeFree := true }, b := .no 2, ownImm := true }
  | 0x27, 0 => some { acc t6 (memMod [0, 2] true) with d := .s 1, c := .s 2 }
  | 0x27, 1 => some { acc t6 (memMod [0, 2] true) with d := .s 1, c := .s 3 }
  | 0x27, 2 => some { acc t6 (memMod [0] false) with d := .s 1, c := .s 1 }
  | 0x27, 3 => some { types := t6, mem := some (nowin [0]), a := .s 1, pd := .yes }
  | 0x27, 4 => some { acc t6 txb with c := .vs .one 1 }
  | 0x27, 5 => some { acc t6 txb with c := .vs .one 1 }
  | 0x27, 6 => some (acc t6 txb)
  | 0x27, 7 => some { acc t6 txb with c := .vs .one 1 }
  | 0x37, 0 => some (acc t6 (memMod [0] false))
  | 0x37, 1 => some (acc t6 (memMod [0] false))
  | 0x37, 2 =>
    if e.c = 1 then some { types := t6, mem := some { nowin [0] with scopeFree := true }, b := .no 2, c := .num [1] }
    else some { acc t6 { nowin [0] with scopeFree := true } with c := .num [0] }
  | _, _ => none

/-- Majors 0x28 to 0x36 (R268, R289, R305, R353, R375). -/
def formEngine (major minor : Nat) (e : Ext) : Option Form :=
  let t6 : List OpType := [.b32]
  let tMat := [OpType.e4m3, .e5m2, .f16, .bf16, .e2m1, .s8, .n8]
  let frag : Wid := .span (if e.ty = .e2m1 then 26 else 24)
  let bS : BSlot := .src [1] .one 1 false false
  let dl : Bool := e.mod.getLsbD 0
  match major, minor with
  | 0x28, 0 => some { types := tMat, modMask := 0x1F, d := .v (.span 16), dSrc := 2, a := .v frag,
                      b := .src [0] frag 1 false false, c := .v .one }
  | 0x28, 1 => some { types := tMat, modMask := 0x7F, d := .v (.span 16), dSrc := 2, a := .vs frag 2,
                      b := .src [0, 1] frag 2 false false, c := .v .one }
  | 0x28, 2 => some { types := tMat, modMask := 0x98, d := .s 1, dSrc := 2, a := .s 2,
                      b := .src [1] .one 2 false false, c := .s 1 }
  | 0x28, 3 => some { types := t6, d := .v (.span 16) }
  | 0x29, 0 => some { types := t6, pd := .yes, a := .s 1, b := bS }
  | 0x29, 1 => some { types := t6, pd := .yes, d := .s 1, a := .s 1 }
  | 0x2C, 0 => some { types := t6, d := .s 2, b := .src [1, 2] .one 1 false false }
  | 0x2C, 1 => some { types := t6, pd := .yes, b := .src [0, 1, 2] .one 1 false false }
  | 0x2C, 2 => some { types := t6, d := .s 1, a := .s 1 }
  | 0x2C, 3 => some { types := t6, d := .s 1, a := .s 1 }
  | 0x2C, 4 => some { types := t6, d := .s 2, a := .s 1 }
  | 0x2C, 5 => some { types := t6, modMask := 1, a := .s 1 }
  | 0x2D, 0 => some { types := t6, pd := .yes, a := .s 1, b := bS }
  | 0x2D, 1 => some { types := t6, pd := .yes }
  | 0x30, 0 => some { types := t6, modMask := 1, d := if dl then .no else .v (.span 8), a := .v (.span 8), b := bS, c := .s 1 }
  | 0x30, 1 => some { types := t6, d := .s 1, a := .s 1, b := bS, c := .s 1 }
  | 0x30, 2 => some { types := t6 }
  | 0x30, 3 => some { types := t6 }
  | 0x30, 4 => some { types := t6 }
  | 0x30, 5 => some { types := t6, d := .v (.span 8) }
  | 0x31, 0 => some { types := t6, modMask := 3, d := .v (.span 4), a := .v (.span (if dl || e.mod.getLsbD 1 then 3 else 2)), b := bS, c := .s 1 }
  | 0x31, 1 => some { types := t6, modMask := 15, d := .v (.span 4), a := .v (.span (if dl || e.mod.getLsbD 1 then 3 else 2)), b := bS, c := .s 1 }
  | 0x31, 2 => some { types := t6, d := .v (.span 4), b := bS, c := .vs .one 1 }
  | 0x32, 0 => some { types := t6, pd := .yes, d := .v .one, a := .v .pair, b := bS }
  | 0x32, 1 => some { types := t6, pd := .yes, d := .v .one, a := .v .pair, b := bS }
  | 0x34, 0 => some { types := t6, d := .s 1, a := .s 1 }
  | 0x34, 1 => some { types := t6, d := .s 1, a := .s 1 }
  | 0x34, 2 => some { types := t6, d := .s 1, a := .s 1 }
  | 0x34, 3 => some { types := t6, d := .s 1, a := .s 1 }
  | 0x34, 4 => some { types := t6, d := .s 1, a := .s 1 }
  | 0x34, 5 => some { types := t6, pd := .yes, a := .s 1, b := bS }
  | 0x34, 6 => some { types := t6, d := .s 1, a := .s 1 }
  | 0x34, 7 => some { types := t6, d := .s 2, a := .s 1 }
  | 0x36, 0 => some { types := [.b64], d := .vs .pair 1 }
  | 0x36, 1 => some { types := t6, pd := .yes }
  | _, _ => none

/-- The form of MAJOR and MINOR (R167); none where the opcode map assigns nothing (R168). -/
def formOf (major minor : Nat) (e : Ext) : Option Form :=
  if major < 0x07 then formFlow major minor e
  else if major < 0x0D then formInteger major minor
  else if major < 0x13 then formScalar major minor
  else if major < 0x16 then formLane major minor
  else if major < 0x20 then formFloat major minor
  else if major < 0x28 ∨ major = 0x37 then formMemory major minor e
  else formEngine major minor e

/-! ### Further limits of single instructions -/

/-- Elements of a 32-bit register at a format's width. -/
def elemsOf (t : OpType) : Nat := 32 / t.width

/-- Limits on MOD, IMM and kind bits that one instruction alone has (R169); the rule stands at each line. -/
def extraOk (major minor : Nat) (e : Ext) : Bool :=
  let x := e.xop.toNat
  match major, minor with
  -- R182, R201: SETSR writes registers 12 to 15 alone
  | 0x06, 1 => 12 ≤ (e.mod.extractLsb' 0 4).toNat
  -- R183: codes 0 to 8,191
  | 0x06, 2 => !e.imm.msb
  | 0x06, 3 => !e.imm.msb
  | 0x06, 5 => !e.imm.msb
  -- R183, R417: mode 3 is reserved
  | 0x06, 4 => (e.mod.extractLsb' 0 2).toNat != 3
  | 0x06, 8 => (e.mod.extractLsb' 0 2).toNat != 3
  -- R210: conditions 6 and 7
  | 0x08, 11 => x < 6
  | 0x10, 8 => x < 6
  -- R212: IMM[13:8] of BLUT
  | 0x0A, 4 => e.imm.extractLsb' 8 6 == 0
  -- R217: VOTE 3
  | 0x14, 1 => x != 3
  -- R222: operations and their types
  | 0x15, 0 => redTypeOk (x % 8) e.ty
  | 0x15, 1 => redTypeOk (x % 8) e.ty
  -- R228: conditions 14 and 15
  | 0x18, 6 => x < 14
  -- R232: conversion selectors
  | 0x1F, 0 => x % 8 ≤ 5 && x / 8 < elemsOf e.ty
  | 0x1F, 1 => x % 4 ≤ 2 && x / 4 < (if x % 4 = 0 then 1 else 2)
  | 0x1F, 2 => x ≤ 2
  | 0x1F, 3 => 1 ≤ x % 8 && x % 8 ≤ 5 && x / 8 < (if x % 8 ≤ 2 then 1 else if x % 8 ≤ 4 then 2 else 4)
  -- R255: path codes of CPFENCE
  | 0x26, 1 => e.imm.extractLsb' 6 8 == 0 && (e.imm.extractLsb' 0 3).toNat ≤ 4 && (e.imm.extractLsb' 3 3).toNat ≤ 4
  -- R265: scopes of TLBINV
  | 0x37, 2 => 2 ≤ e.scope && e.scope ≤ 4
  -- R269, R270: formats and operand sources
  | 0x28, 0 => matFmtOk e
  | 0x28, 1 => matFmtOk e && e.mod.getLsbD 5 == e.ak && e.mod.getLsbD 6 == e.bk.getLsbD 0 && (e.ak || e.bk.getLsbD 0)
  | 0x28, 2 => matFmtOk e
  -- R306: .L with .ATL
  | 0x31, 0 => !(e.mod.getLsbD 0 && e.mod.getLsbD 1)
  | 0x31, 1 => !(e.mod.getLsbD 0 && e.mod.getLsbD 1)
  | _, _ => true
where
  /-- The types of a reduction (R222). -/
  redTypeOk (op : Nat) (t : OpType) : Bool :=
    if op < 3 then [OpType.f32, .f16, .bf16, .s32, .n32, .s64, .n64].contains t
    else if op < 6 then [OpType.b32, .b64, .s32, .n32, .s64, .n64].contains t
    else false
  /-- The rows of the format table of R270: I4 only with S8 and N8, XB not with F16, BF16 and E2M1. -/
  matFmtOk (e : Ext) : Bool :=
    let i4 := e.mod.getLsbD 4
    let xb := e.mod.getLsbD 3
    match e.ty with
    | .e4m3 | .e5m2 => !i4
    | .f16 | .bf16 | .e2m1 => !i4 && !xb
    | .s8 | .n8 => true
    | .f32 | .b32 | .b64 | .s16 | .s32 | .s64 | .n16 | .n32 | .n64 => false

/-! ### Rejections and the static check -/

/-- Why the words at the PC are no legal instruction (R152 to R169). -/
inductive Reject where
  /-- Fewer words than LEN asks for; a fetch never gives so few. -/
  | truncated
  /-- A reserved MAJOR, or a MINOR the map does not assign (R168). -/
  | reserved
  /-- A base word where the major or minor has no base layout, or LEN ≠ 00 in major 0x00 (R158, R168). -/
  | noBase
  /-- SUB ≥ 2, or reserved bits of NOP and REP (R158). -/
  | badSub
  /-- A trailing literal that no field selects, or a field that selects one that is not there (R166). -/
  | literal
  /-- A TYPE outside the instruction's list (R162). -/
  | badType
  /-- A reserved MOD bit, or a modifier value the instruction does not accept (R163, R169). -/
  | badMod
  /-- A register number, kind bit or unused field (R155, R160, R164, R213). -/
  | badField
  /-- PDV or PD (R160). -/
  | badPred
  /-- IMM (R160, R182). -/
  | badImm
  deriving DecidableEq, Repr

/-- A register field `n` with kind bit `k` is legal for its slot. -/
def slotOk (s : Slot) (k : Bool) (n : BitVec 9) (e : Ext) : Bool :=
  let v (w : Wid) := !(w.even e && n.getLsbD 0)
  let sreg (c : Nat) := n.toNat + c ≤ 192
  match s with
  | .no => n == 0 && !k
  | .noS => n == 0 && k
  | .v w => !k && v w
  | .s c => k && sreg c
  | .vs w c => if k then sreg c else v w
  | .p => n.toNat < 16 && !k
  | .num ok => ok.contains n.toNat && !k

/-- B, BK, IMM and the literal are legal (R160, R161, R164, R166). -/
def bSlotOk (f : Form) (e : Ext) : Bool :=
  let noLit := e.lit.isNone
  let immZero := f.ownImm || e.imm == 0
  match f.b with
  | .no bk => e.bk.toNat == bk && e.b == 0 && immZero && noLit
  | .src bks w n lit64 nonneg =>
    bks.contains e.bk.toNat &&
    match e.bk.toNat with
    | 0 => !(w.even e && e.b.getLsbD 0) && immZero && noLit
    | 1 => decide (e.b.toNat + n ≤ 192) && immZero && noLit
    | 2 => e.b == 0 && noLit && !(nonneg && e.imm.msb)
    | _ => e.b == 0 && immZero &&
      match e.lit with
      | some l => lit64 || w.even e || l.extractLsb' 32 32 == 0
      | none => false
  | .index bks =>
    bks.contains e.bk.toNat &&
    (match e.bk.toNat with
      | 0 => true
      | 1 => decide (e.b.toNat < 192)
      | _ => e.b == 0) &&
    (noLit || e.imm == 0)

/-- MOD is legal (R163, R169, R238). -/
def modOk (f : Form) (e : Ext) : Bool :=
  match f.mem with
  | none => e.mod &&& ~~~f.modMask == 0
  | some m =>
    m.syncs.contains e.sync && m.wins.contains e.win && (m.irrev || !e.irrev) && (m.dord || !e.dord) &&
    (m.scopeFree || e.sync != 0 || e.scope == 0)

/-- PDV and PD are legal (R160). -/
def predOk (f : Form) (e : Ext) : Bool :=
  match f.pd with
  | .no => !e.pdv && e.pd == 0
  | .yes => e.pdv
  | .opt => e.pdv || e.pd == 0

/-- The static checks of R169 on an extended form; `none` where it is legal. -/
def checkForm (f : Form) (e : Ext) : Option Reject :=
  if !f.types.contains e.ty then some .badType
  else if !modOk f e then some .badMod
  else if !(slotOk f.d e.dk e.d e && slotOk f.a e.ak e.a e && slotOk f.c e.ck e.c e) then some .badField
  else if !predOk f e then some .badPred
  else if !bSlotOk f e then (if e.lit.isSome then some .literal else if e.imm ≠ 0 then some .badImm else some .badField)
  else none

/-- The whole static check of an extended form of MAJOR and MINOR. -/
def checkExt (major minor : Nat) (e : Ext) : Option Reject :=
  match formOf major minor e with
  | none => some .reserved
  | some f =>
    match checkForm f e with
    | some r => some r
    | none => if extraOk major minor e then none else some .badMod

/-! ### Base words -/

/-- The types ExpandBase gives (R156). -/
def baseType (major : Nat) : OpType :=
  match major with
  | 0x02 => .b32
  | 0x10 | 0x11 => .s64
  | 0x18 | 0x1E => .f32
  | 0x19 => .f16
  | _ => .s32

/-- Sources(x) of R156: the number of register sources. -/
def baseSources (major minor : Nat) : Nat :=
  match major, minor with
  | 0x02, _ => 0
  | 0x08, 4 | 0x08, 5 | 0x08, 6 => 1
  | 0x0A, 3 => 1
  | 0x0C, _ => 1
  | 0x10, 5 => 1
  | 0x1E, _ => 1
  | _, _ => 2

/-- ExpandBase (R156): the extended form a B0 word means. -/
def expandBase (major minor : Nat) (b : Base) (lit : Option DWord) : Ext :=
  let k := major == 0x10 || major == 0x11
  let zero := baseSources major minor == 0
  { stall := b.stall, gn := b.gn, gp := b.gp.setWidth 4, mod := 0
    d := b.d.setWidth 9
    a := if baseSources major minor == 2 then b.d.setWidth 9 else 0
    b := if lit.isSome then 0 else b.a.setWidth 9
    dk := k, ak := k
    bk := if lit.isSome then 3 else if k then 1 else 0
    ck := false, c := 0, ty := baseType major, pdv := false, pd := 0, imm := 0
    lit := if zero then none else lit }

/-- The static checks of a B0 word (R155, R156, R169). -/
def checkBase (major minor : Nat) (b : Base) (lit : Option DWord) : Option Reject :=
  if baseSources major minor == 0 then
    if lit.isSome then some .literal else if b.d ≠ 0 ∨ b.a ≠ 0 then some .badField else none
  else if lit.isSome ∧ b.a ≠ 0 then some .badField
  else if (major == 0x10 || major == 0x11) && (b.d.getLsbD 6 || b.a.getLsbD 6) then some .badField
  else checkExt major minor (expandBase major minor b lit)

/-- The extended form of a longer form. -/
def XForm.toExt (major minor : Nat) : XForm → Ext
  | .ext e => e
  | .baseLit b lit => expandBase major minor b (some lit)

/-- The static checks of a longer form. -/
def checkX (major minor : Nat) : XForm → Option Reject
  | .ext e => checkExt major minor e
  | .baseLit b lit => checkBase major minor b (some lit)

/-- The static checks of the longer forms of BRA and CALL (R157): under LEN 10, OFF is zero. -/
def checkBranch (minor : Nat) : BranchForm → Option Reject
  | .ext e => checkExt 1 minor e
  | .baseLit b _ => if b.off = 0 then none else some .badField

/-- The minors with an asterisk in the opcode map (R167): those with a B0 word. -/
def hasBase (major minor : Nat) : Bool :=
  match major with
  | 0x02 => minor < 2
  | 0x08 => minor < 7
  | 0x09 => minor < 2
  | 0x0A => minor < 4
  | 0x0B => minor < 4
  | 0x0C => minor < 5
  | 0x10 => minor < 6
  | 0x11 => minor < 6
  | 0x18 => minor < 5
  | 0x19 => minor < 4
  | 0x1E => minor < 8
  | _ => false

/-! ### Register uses -/

/-- The register use of a field, if it names registers. -/
def slotUse (s : Slot) (k : Bool) (n : BitVec 9) (rd wr : Bool) (e : Ext) : List RegUse :=
  match s with
  | .no | .noS | .p | .num _ => []
  | .v w => [⟨false, n.toNat, w.count e, rd, wr⟩]
  | .s c => [⟨true, n.toNat, c, rd, wr⟩]
  | .vs w c => if k then [⟨true, n.toNat, c, rd, wr⟩] else [⟨false, n.toNat, w.count e, rd, wr⟩]

/-- The register use of B. -/
def bSlotUse (s : BSlot) (e : Ext) : List RegUse :=
  match s with
  | .no _ => []
  | .src _ w n _ _ =>
    if e.bk = 0 then [⟨false, e.b.toNat, w.count e, true, false⟩]
    else if e.bk = 1 then [⟨true, e.b.toNat, n, true, false⟩] else []
  | .index _ =>
    if e.bk = 0 then [⟨false, e.b.toNat, 1, true, false⟩]
    else if e.bk = 1 then [⟨true, e.b.toNat, 1, true, false⟩] else []

/-- Every register an extended form reads or writes (R160, R175). -/
def Form.uses (f : Form) (e : Ext) : List RegUse :=
  slotUse f.d e.dk e.d (f.dSrc != 0) (f.dSrc != 1) e ++ slotUse f.a e.ak e.a true false e ++
  bSlotUse f.b e ++ slotUse f.c e.ck e.c true false e

/-- The register uses of MAJOR, MINOR and fields. -/
def usesOf (major minor : Nat) (e : Ext) : List RegUse :=
  match formOf major minor e with
  | some f => f.uses e
  | none => []

/-! ### Repeats -/

/-- REP may prefix an instruction of this major (R172). -/
def repMajor (major : Nat) : Bool :=
  (0x08 ≤ major && major ≤ 0x0C) || (0x10 ≤ major && major ≤ 0x12) || major == 0x14 || major == 0x15 ||
  major == 0x18 || major == 0x19 || major == 0x1E || major == 0x1F || (0x20 ≤ major && major ≤ 0x25)

/-- The step of a field: 2 for a pair, 1 for any other register, 0 where it holds no register (R171, R172). -/
def slotStep (s : Slot) (k : Bool) (e : Ext) : Nat :=
  match s with
  | .no | .noS | .p | .num _ => 0
  | .v w => if w.even e then 2 else 1
  | .s _ => 1
  | .vs w _ => if k then 1 else if w.even e then 2 else 1

/-- The step of B. -/
def bSlotStep (s : BSlot) (e : Ext) : Nat :=
  match s with
  | .no _ => 0
  | .src _ w _ _ _ => if e.bk = 0 then (if w.even e then 2 else 1) else if e.bk = 1 then 1 else 0
  | .index _ => if e.bk = 0 ∨ e.bk = 1 then 1 else 0

/-- The step mask names only operands that are registers (R172). -/
def repMaskOk (r : RepWord) (f : Form) (e : Ext) : Bool :=
  (!r.md || slotStep f.d e.dk e != 0) && (!r.ma || slotStep f.a e.ak e != 0) &&
  (!r.mb || bSlotStep f.b e != 0) && (!r.mc || slotStep f.c e.ck e != 0)

/-- The fields of repeat `i` (R171). -/
def repStep (r : RepWord) (f : Form) (e : Ext) (i : Nat) : Option Ext :=
  let st (m : Bool) (n : BitVec 9) (w : Nat) : Nat := if m then n.toNat + i * w else n.toNat
  let d := st r.md e.d (slotStep f.d e.dk e)
  let a := st r.ma e.a (slotStep f.a e.ak e)
  let b := st r.mb e.b (bSlotStep f.b e)
  let c := st r.mc e.c (slotStep f.c e.ck e)
  if d < 512 ∧ a < 512 ∧ b < 512 ∧ c < 512 then
    some { e with d := BitVec.ofNat 9 d, a := BitVec.ofNat 9 a, b := BitVec.ofNat 9 b, c := BitVec.ofNat 9 c }
  else none

end Sys2Proof
end

