-- ==== Sys2Proof/Machine/Map.lean ====
section
/-! DEFINITION. Finite maps over natural keys as lists in one canonical form: keys strictly rising, and no entry equal to
what an unlisted key reads as. Memory and the register files are such maps. -/

namespace Sys2Proof.Machine

/-- The value at a key; `d` is what an unlisted key reads as. -/
def mapGet {β : Type} (d : β) : List (Nat × β) → Nat → β
  | [], _ => d
  | (k, v) :: r, a => if a = k then v else mapGet d r a

/-- The map with the value at a key replaced; the default value is not listed. -/
def mapSet {β : Type} [DecidableEq β] (d : β) : List (Nat × β) → Nat → β → List (Nat × β)
  | [], a, x => if x = d then [] else [(a, x)]
  | (k, v) :: r, a, x =>
    if a < k then (if x = d then (k, v) :: r else (a, x) :: (k, v) :: r)
    else if a = k then (if x = d then r else (k, x) :: r)
    else (k, v) :: mapSet d r a x

/-- Keys rise strictly from above `lo`, and no value is the default. -/
def mapWfFrom {β : Type} [DecidableEq β] (d : β) : Option Nat → List (Nat × β) → Bool
  | _, [] => true
  | lo, (k, v) :: r => (match lo with | none => true | some l => decide (l < k)) && decide (v ≠ d) && mapWfFrom d (some k) r

/-- The canonical form. -/
def mapWf {β : Type} [DecidableEq β] (d : β) (m : List (Nat × β)) : Bool := mapWfFrom d none m

/-- What a byte of memory that nothing has written reads as: zero (the vaults by R421; elsewhere
notes/assumptions/2.md). -/
def unwritten : Byte := 0

/-- The canonical form of memory. -/
def Memory.wf (m : List Host.Cell) : Bool := mapWf unwritten m

end Sys2Proof.Machine
end

