-- ==== Sys2Proof/Machine/State.lean ====
section
/-! DEFINITION. The state of the machine as plain data, and the state after reset. Every piece of state the spec names
has a field (INVENTORY.md, '## State'); a docstring names the rule. Fields marked MODEL are the model's own. -/

namespace Sys2Proof.Machine

/-! ### Faults and refusals -/

/-- Why the machine stops with a fault. -/
inductive Fault where
  /-- Raised by an access whose page entry or table base names a device physical address at or above 64 GiB, which the
  spec says does not exist (R76). Safe: the model stops where the spec gives no effect. -/
  | noSuchDeviceAddress (pa : Nat)
  deriving DecidableEq, Repr

/-- Why an instruction has no meaning. -/
inductive Refusal where
  /-- Raised by an arm of `exec` whose instruction has no meaning yet. Safe: the model stops. -/
  | notModelled (mnemonic : String)
  deriving DecidableEq, Repr

/-! ### Registers -/

/-- An element of a v-register file with its poison bit (R25, R105). -/
structure PWord where
  val : Word
  poison : Bool
  deriving DecidableEq, Repr

/-- An s-register with its poison bit (R43, R105). -/
structure PDWord where
  val : DWord
  poison : Bool
  deriving DecidableEq, Repr

/-! ### Fibres -/

/-- The states of R61, without TIERED and SAVED, which lie over another state. -/
inductive FState where
  | runnable | waitMemory | waitBarrier | waitConverge | sleeping | parkedHit | ended
  deriving DecidableEq, Repr

/-- What a fibre that is not RUNNABLE waits for (R61). The doc of each says whether the instruction issues again when
the wait ends (retry) or the fibre continues after it (advance). -/
inductive Wait where
  /-- Nothing. -/
  | none
  /-- A register of the next instruction has a result that has not returned (retry). -/
  | pending
  /-- Room in the core's queue port, or in its vertical port (R56, R59; retry). -/
  | port (vertical : Bool)
  /-- The service of an absent page (R73; retry). -/
  | page (va : Nat)
  /-- Acknowledgement of every earlier store and atomic (R80; retry). -/
  | acks
  /-- Return of every earlier load and acknowledgement of every earlier store (R292; retry). -/
  | loadsAndAcks
  /-- The commit point of the fibre's COMMITTING tag (R126; retry). -/
  | commitHold (tag : Nat)
  /-- The commit point of the tag that the fibre commits (R294; the commit point advances it). -/
  | commit (tag : Nat)
  /-- FUT.WAIT.DONE: a commit or squash point of the tag (R297; the event advances it). -/
  | tagDone (tag : Nat)
  /-- FUT.WAIT.FREE: the tag becomes FREE (R297; the event advances it). -/
  | tagFree (tag : Nat)
  /-- LWAIT: the end of a pipeline (R200; retry). -/
  | pipe (handle : Nat)
  /-- CPFENCE: earlier work of a path, visible at a scope (R108; retry). -/
  | path (code scope : Nat)
  /-- TXBWAIT: a phase completion of the barrier at a memory key (R263; the update advances it). -/
  | txb (key : Nat)
  /-- GBAR and GWAIT: completion of the open phase (R195; completion advances it). -/
  | barrier (b : Nat)
  /-- GARRIVE, or GBAR with `stay`, that arrives in the next phase (R195; completion makes the arrival). -/
  | barrierNext (b : Nat) (stay : Bool)
  /-- CVWAIT: completion of the open round (R196; completion advances it). -/
  | round (cv : Nat)
  /-- CVSIGN by a fibre that has signed the open round (R47; completion makes the signature). -/
  | signNext (cv : Nat)
  /-- MMA whose round is incomplete (R272; retry at completion). -/
  | mmaRound (cv : Nat) (rnd : Nat)
  /-- A step set whose operands have not been read (R273; the step advances it). -/
  | stepSet (id : Nat)
  /-- REPACK: the end of a collection (R192; the end advances it). -/
  | repack (id : Nat)
  /-- SLEEP: WAKE, or the clock given (R190; advance). -/
  | sleep (due : Option Nat)
  /-- RAYGET: a state of the bound ray (R317; retry). -/
  | ray
  /-- A hold (R202; ERET decides). -/
  | held
  /-- Room in a forwarding buffer or for the leader's result (R370, R372; retry). -/
  | forward
  /-- A child of a follower replica whose parent has not reached the n-th SPAWN that creates it (R370). -/
  | born (n : Nat)
  /-- A comparison point (R366; agreement issues the instruction). -/
  | compare
  /-- A vault slab that wakes from RETENTION (R428; retry). -/
  | slab (core slab : Nat)
  /-- A host line whose CXL.cache request is out (R431; retry). -/
  | hostLine (line : Nat)
  /-- BLD.PUB: earlier jobs of its tag (R355; retry). -/
  | jobs
  /-- TMMA: the tile sequencer (R281; completion advances it). -/
  | tmma (id : Nat)
  /-- A copy's pre-walk (R258; retry). -/
  | prewalk (job : Nat)
  /-- TLBINV: copies that hold a dropped translation (R265; retry). -/
  | tlb
  /-- The acceptance of earlier requests by an engine below the core (R59; retry). -/
  | engine (e : Nat)
  /-- Room in the port of the cluster's CVU (R328; retry). -/
  | cvu
  /-- Acknowledgement by a peer (R110, R431; retry). -/
  | peer
  deriving DecidableEq, Repr

/-- A hold under R202: the cause code (R438), the register SYSCALL names, the length in bytes by which ERET.SKIP
advances (none after a fetch fault on the first word, R448), whether the debugger resumes it (BKPT), and whether it was
in PARKED-HIT (R61). -/
structure Hold where
  cause : Nat
  answer : Option Nat
  len : Option Nat
  debugger : Bool
  deriving DecidableEq, Repr

/-- A scoreboard entry of a fibre: a register whose result is not yet written (R173 to R176). `lat` is the fixed
latency, `dist` the distance from the writer to the next instruction, `done` the clock at which the result is written,
`pc` the writer's address. -/
structure SbEntry where
  kind : Nat
  num : Nat
  lat : Nat
  dist : Nat
  done : Nat
  pc : DWord
  deriving DecidableEq, Repr

/-- A physical place: memory key, and the attributes of its page (R69). -/
structure Loc where
  key : Nat
  vers : Bool
  cached : Bool
  grain : Nat
  deriving DecidableEq, Repr

/-- A journal entry of a replicated fibre: an aligned 16-byte piece, its byte mask and data (R367). -/
structure JEntry where
  va : Nat
  loc : Loc
  mask : BitVec 16
  data : List Byte
  irrev : Bool
  /-- The tag of the fibre when it stored (R118). -/
  tag : Nat
  deriving DecidableEq, Repr

/-- A result that the leader of a replica set forwards (R370): the registers it writes, (number, s-file, value), its predicates,
and what else the followers need, such as a rank. -/
structure Fwd where
  regs : List (Nat × Bool × PDWord)
  preds : List (Nat × Bool)
  info : List Nat
  deriving DecidableEq, Repr

/-- A fibre (R25, R26) with what the hardware keeps for it. -/
structure Fibre where
  /-- MODEL: a number that no other fibre of the run has. -/
  uid : Nat
  /-- MODEL: the number of the fibre of replica 0 in its replica set (R362); its own where it has no partner. -/
  setId : Nat
  part : Nat
  pipe : Nat
  stage : Nat
  repl : Nat
  /-- Logical core the fibre reads in LCORE, and the logical core it lies on (its partner in a replica, R360). -/
  lcore : Nat
  onCore : Nat
  quad : Nat
  slot : Nat
  lane : Nat
  fid : Nat
  launchIdx : Nat
  priv : Nat
  pc : DWord
  preds : BitVec 16
  win : Nat
  cur : Nat
  home : Nat
  rank : Nat
  tag : Nat
  flags : BitVec 5
  ftz : DWord
  repcnt : Nat
  vregs : List (Nat × PWord)
  st : FState
  wait : Wait
  hold : Option Hold
  /-- Bytes by which the fibre advances when a wait ends by advancing. -/
  ilen : Nat
  /-- TIERED and SAVED lie over `st` (R61). -/
  tiered : Bool
  saved : Bool
  /-- The next instruction issues at this clock or later (R30), and the clock of the last issue (R32). -/
  readyAt : Nat
  lastIssue : Nat
  sb : List SbEntry
  /-- The REP word at the PC has issued and its repeats run on (R187). -/
  repLive : Bool
  /-- Length in bytes of the prefixed instruction. -/
  repLen : Nat
  /-- Stores whose registration has not been acknowledged: (core, tag, block) (R78, R80). -/
  unacked : List (Nat × Nat × Nat)
  /-- Writes to peer memory not yet acknowledged (R110). -/
  peerUnacked : Nat
  sig : DWord
  journal : List JEntry
  /-- Results of the leader that the fibre has not yet taken (R370, R372), and what the result being forwarded carries. -/
  forwarded : List Fwd
  info : List Nat
  /-- MODEL: in a follower replica, the fibre whose SPAWN created this one, and the number of SPAWNs this one has executed. -/
  parent : Nat
  spawns : Nat
  /-- MODEL: WAKEs that reached the replica set before this replica's SLEEP (R370). -/
  wakes : Nat
  /-- The handle that an LWAIT at the PC waits for (R200, R206). -/
  lwait : Option Nat
  /-- The event that FUT.COMMIT or FUT.WAIT at the PC waits for has come (R294, R297). -/
  served : Bool
  /-- The comparison point at the PC has been agreed, and its instruction may act (R366). -/
  agreed : Bool
  /-- The clock at which the fibre reached the comparison point that it waits at (R366). -/
  pointAt : Nat
  /-- An engine has written global memory for the fibre since its last comparison point (R373). -/
  engWrote : Bool
  /-- Rounds the fibre signed: (group, convergence register, round), and whether an MMA has used it (R272). -/
  signed : List (Nat × Nat × Nat × Bool)
  boundRay : Option Nat
  /-- The service of a page the fibre waited for has failed: the page and the reason (R458, R459). -/
  pageFail : Option (Nat × Nat)
  deriving DecidableEq, Repr

/-! ### Groups -/

/-- A convergence register (R46): set size (0: never set), signers of the open round, the number of completed rounds, and the clock of the round's first signature (R484). -/
structure CvReg where
  size : Nat
  signers : List Nat
  count : Nat
  round : Nat
  since : Option Nat
  /-- The clocks at which the completed rounds completed (R484). -/
  done : List Nat
  deriving DecidableEq, Repr

/-- A barrier of a group (R44, R195): open, its expected and its arrived members, the clock of its first arrival, and the pipeline of the fibre that
made it, whose watchdog runs (R484). -/
structure Barrier where
  isOpen : Bool
  expected : List Nat
  lost : Nat
  arrived : List Nat
  since : Nat
  pipe : Nat
  deriving DecidableEq, Repr

/-- A buffered .ORD update (R378): order key, site, operand, type, and the register that takes the old value. -/
structure OrdUpdate where
  launchIdx : Nat
  seq : Nat
  uid : Nat
  pipe : Nat
  loc : Loc
  tag : Nat
  f16 : Bool
  val : Word
  dst : Option Nat
  deriving DecidableEq, Repr

/-- A group context (R40 to R47). -/
structure Group where
  part : Nat
  handle : Nat
  repl : Nat
  elastic : Bool
  copyRight : Bool
  creator : Nat
  everJoined : Bool
  /-- Members by rank: (rank, uid). -/
  members : List (Nat × Nat)
  /-- Ranks of lost members (R42). -/
  lost : List Nat
  sregs : List (Nat × PDWord)
  /-- s-registers whose result has not returned, with the clock of a fixed latency (none: variable). -/
  pend : List (Nat × Option Nat)
  /-- s-registers whose last write is a token: an instruction that reads one acquires (R99). -/
  tokens : List Nat
  cvs : List CvReg
  bars : List Barrier
  ord : List OrdUpdate
  deriving DecidableEq, Repr

/-! ### Pipelines -/

/-- A stage record (R50). -/
structure StageRec where
  arg : DWord
  coreMax : Nat
  coreMin : Nat
  inq : Option Nat
  crEn : Bool
  crGrp : Nat
  elastic : Bool
  shape : Nat
  gcount : Nat
  gsize : Nat
  prio : Nat
  win : Nat
  entry : DWord
  /-- Cores assigned now (R60), and a NACK in the period. -/
  cores : List Nat
  nacked : Bool
  deriving DecidableEq, Repr

/-- An entry of a queue or of a port (R56, R132): the tag, the sixteen words, and the sender. -/
structure QEntry where
  tag : Nat
  words : List Word
  fid : Nat
  deriving DecidableEq, Repr

/-- A queue (R51, R57, R198). `dropping` lists the ports whose entries it drops until the resend. -/
structure Queue where
  launching : Bool
  depth : Nat
  base : Nat
  entries : List QEntry
  closed : Bool
  dropping : List PortId
  deriving DecidableEq, Repr

/-- A pending template instance (R54): its stage, core hint, tag, and the entry that started it. -/
structure PendInst where
  stage : Nat
  core : Option Nat
  tag : Nat
  entry : Option QEntry
  deriving DecidableEq, Repr

/-- A pipeline (R48, R49, R199, R200). `ended` is none while it runs, else its STATUS and CAUSE. -/
structure Pipe where
  part : Nat
  handle : Nat
  supervisor : Bool
  contract : Option Nat
  determ : Bool
  check : Bool
  barwd : Nat
  convwd : Nat
  repl : Nat
  /-- Live replicas, and the cores of replica 0 with their partners by replica. -/
  live : List Nat
  cores : List Nat
  partners : List (List Nat)
  stages : List StageRec
  queues : List Queue
  pending : List PendInst
  /-- Explicit pins: (structure context, generation) (R348). -/
  pins : List (Nat × Nat)
  ended : Option (Nat × Nat)
  /-- Sources that hold the pipeline saved (R404, R407): 0 PREQ, 1 boundary, 2 SUSPEND, 3 FSC. -/
  holds : List Nat
  /-- The replica that leads (R362). -/
  leader : Nat
  /-- The clock since which every fibre of it has been SAVED (R484). -/
  savedSince : Option Nat
  deriving DecidableEq, Repr

/-! ### Ports -/

/-- An entry of a queue port's replay window (R56, R198): a push or a close; whether it has been sent since its last
resend, and the stores of the pusher that it waits for (R99). -/
structure PortEntry where
  pipe : Nat
  queue : Nat
  close : Bool
  entry : QEntry
  uid : Nat
  sent : Bool
  waitFor : List (Nat × Nat × Nat)
  deriving DecidableEq, Repr

/-- Back-off of a port for one queue (R57): (pipeline, queue), consecutive NACKs, and the clock of the resend. -/
structure Backoff where
  pipe : Nat
  queue : Nat
  nacks : Nat
  due : Nat
  deriving DecidableEq, Repr

/-- A queue port (R56). -/
structure Port where
  id : PortId
  window : List PortEntry
  backoff : List Backoff
  deriving DecidableEq, Repr

/-- A vertical port (R15, R59): requests in send order, (engine, request): engine 0 the TRU, 1 the TFU, 2 the CVU, 3 the CPE; and its back-offs. -/
structure VPort where
  part : Nat
  core : Nat
  window : List (Nat × Nat)
  /-- (engine, NACKs, due clock; none: nothing waits). -/
  backoff : List (Nat × Nat × Option Nat)
  deriving DecidableEq, Repr

/-! ### Memory structures -/

/-- A word of an L1 (R77): core, tag, word key, data, valid bytes, dirty bytes, RLS, poison, foreign, and the block size
of its page's grain. -/
structure L1Word where
  core : Nat
  tag : Nat
  key : Nat
  data : Word
  valid : BitVec 4
  dirty : BitVec 4
  rls : Bool
  poison : Bool
  foreign : Bool
  grain : Nat
  deriving DecidableEq, Repr

/-- A registry entry (R78, R83): block key, tag, owner core, and the grain. -/
structure RegEntry where
  block : Nat
  tag : Nat
  owner : Nat
  deriving DecidableEq, Repr

/-- A version of a sector (R118): tag, sector key, written-byte mask. -/
structure VerRec where
  tag : Nat
  sector : Nat
  mask : BitVec 32
  deriving DecidableEq, Repr

/-- A version line (R121 to R124): tag, line key, partition, and whether it holds an overflow slot. -/
structure VerLine where
  tag : Nat
  line : Nat
  part : Nat
  slotted : Bool
  deriving DecidableEq, Repr

/-- A TLB entry (R71): the micro-TLB of a logical core, or the TLB of a cluster. -/
structure TlbEntry where
  part : Nat
  cluster : Bool
  place : Nat
  entry : BitVec 128
  deriving DecidableEq, Repr

/-- A lease (R85, R260): line keys, expiry clock. -/
structure Lease where
  part : Nat
  handle : Nat
  lines : List Nat
  expiry : Nat
  deriving DecidableEq, Repr

/-- An element of a load: the destination register, the place, the bytes, and the address. -/
structure LoadElem where
  reg : Nat
  loc : Loc
  n : Nat
  va : Nat
  deriving DecidableEq, Repr

/-- A load that has missed (R79): the fibre, the elements asked for, and how the result is extended. -/
structure LoadReq where
  id : Nat
  uid : Nat
  core : Nat
  tag : Nat
  acq : Bool
  inval : Bool
  /-- The fibres in whose program order the load stands (R240). -/
  us : List Nat
  /-- Elements in ascending order; those of an s-register make one 64-bit value. -/
  elems : List LoadElem
  sreg : Bool
  ty : OpType
  /-- The group of an s-register destination. -/
  grp : Nat
  cancelled : Bool
  deriving DecidableEq, Repr

/-- A host line in the VAC under CXL.cache (R84, R431): 0 I, 1 S, 2 E, 3 M; the request that is out (0 RdShared, 1 RdOwn, 2 DirtyEvict,
R473), the fibre it serves and its clock; the host's own copy while the VAC's differs from it; and the snoops that came while a fill was in flight
(0 SnpInv, 1 SnpData, 2 SnpCur, R107). -/
structure HostLine where
  line : Nat
  mesi : Nat
  request : Option Nat
  uid : Option Nat
  since : Nat
  backup : List Byte
  snoops : List Nat
  /-- The L1s that a PREFETCH brings the line into: core, tag, grain (R246). -/
  into : List (Nat × Nat × Nat)
  deriving DecidableEq, Repr

/-- A write to peer memory that the peer has not acknowledged (R110): the writing fibre, the other fibres in whose program order it stands (R240), the
place, the bytes it replaces, its clock. -/
structure PeerWrite where
  uid : Nat
  also : List Nat
  key : Nat
  old : List Byte
  since : Nat
  deriving DecidableEq, Repr

/-- A reducing store whose writes have not all been made through the collective path (R252, R479): the fibres of its wave, the tag, the writes
left in ascending destination, and the clock since which one has waited for a way. -/
structure Reducing where
  id : Nat
  part : Nat
  pipe : Nat
  repl : Nat
  uid : Nat
  us : List Nat
  tag : Nat
  left : List (Loc × List Byte)
  stuck : Option Nat
  deriving DecidableEq, Repr

/-! ### Engine work -/

/-- What a request of an engine waits for, and the page and the reason of a service that failed (R307, R458). -/
structure EngineWait where
  wait : Wait
  pageFail : Option (Nat × Nat)
  deriving DecidableEq, Repr

/-- The failing gather reads of one issue of an instruction, until all of its requests have ended (R489). -/
structure GatherFail where
  call : Nat
  uid : Nat
  pc : DWord
  cause : Nat
  addr : Nat
  detail : Nat
  reason : Nat
  count : Nat
  deriving DecidableEq, Repr

/-- A copy sector still to land: source and destination places, and data and error mark read before an overlap (R258). -/
structure CopySector where
  idx : Nat
  src : Loc
  dst : Loc
  data : Option (List Byte × Bool)
  deriving DecidableEq, Repr

/-- A copy in flight (R258). -/
structure Copy where
  id : Nat
  part : Nat
  pipe : Nat
  uids : List Nat
  fid : Nat
  grp : Nat
  repl : Nat
  cluster : Nat
  token : Nat
  tag : Nat
  total : Nat
  left : List CopySector
  /-- Every sector of the copy, which a rollback issues again (R385). -/
  all : List CopySector
  txb : Option Nat
  /-- Its pre-walk is done, and it reads once the acknowledgements that a .REL copy needs are there. -/
  started : Bool
  rel : Bool
  /-- Pages whose translation it holds: the first address and SZ (R259). -/
  pages : List (Nat × Nat)
  /-- The clock since which a sector has waited for a way (R479). -/
  stuck : Option Nat
  deriving DecidableEq, Repr

/-- A BEAM in flight (R324). -/
structure Beam where
  id : Nat
  part : Nat
  pipe : Nat
  uid : Nat
  grp : Nat
  repl : Nat
  token : Nat
  tag : Nat
  ctx : Nat
  gen : Nat
  uids : List Nat
  /-- Where the tile's eight rows of 128 bytes lie, and the entries computed for them (R323). -/
  rows : List (Nat × Loc)
  data : List (List Byte)
  /-- Pixels hit. -/
  hits : Nat
  /-- The nodes that it reads, (context, node), and how the reads have gone. -/
  reads : List (Nat × Nat)
  got : Option Bool
  placed : Bool
  /-- The number of the instruction's issue, and its address (R489). -/
  call : Nat
  pc : DWord
  eng : EngineWait
  /-- The clock since which an entry has waited for a way (R479). -/
  stuck : Option Nat
  deriving DecidableEq, Repr

/-- A hit (R310): t, u, v, instance, geometry, primitive, back. -/
structure Hit where
  t : Word
  u : Word
  v : Word
  inst : Nat
  geom : Nat
  prim : Nat
  back : Bool
  deriving DecidableEq, Repr

/-- A ray slot (R316 to R320). `decisions` lists the answers to the candidates delivered so far: 0 rejected, 1 accepted, 2 accepted as the end;
`shown` is the candidate delivered and undecided, `ready` a state that waits for RAYGET: its record, and whether it is the final one. -/
structure Ray where
  id : Nat
  part : Nat
  uid : Nat
  /-- The lowest active fibre of the wave (R435). -/
  lead : Nat
  core : Nat
  repl : Nat
  ctx : Nat
  gen : Nat
  tag : Nat
  words : List Word
  ctl : DWord
  bound : Bool
  dst : Nat
  placed : Bool
  decisions : List Nat
  shown : Bool
  ready : Option (List Word × Bool)
  call : Nat
  pc : DWord
  eng : EngineWait
  deriving DecidableEq, Repr

/-- A texture request of a TFU (R330), as the instruction's operands. -/
structure Gather where
  id : Nat
  uid : Nat
  lead : Nat
  part : Nat
  core : Nat
  repl : Nat
  minor : Nat
  mod : BitVec 10
  dst : Nat
  coords : List Word
  /-- The descriptor's 256 bits, and whether its read met a mark. -/
  desc : Nat
  bad : Bool
  sampler : DWord
  tag : Nat
  placed : Bool
  call : Nat
  pc : DWord
  eng : EngineWait
  deriving DecidableEq, Repr

/-- A signer of a step set (R273). -/
structure Signer where
  uid : Nat
  row : Nat
  minor : Nat
  e : Ext
  /-- C row as it stood at issue. -/
  crow : List PWord
  /-- The descriptor pairs of A and B as they stood at issue (R276). -/
  descs : List PDWord
  deriving DecidableEq, Repr

/-- A step set (R273): group, register, round, its signers, and the engine once bound. -/
structure StepSet where
  id : Nat
  part : Nat
  pipe : Nat
  grp : Nat
  repl : Nat
  cv : Nat
  round : Nat
  completed : Nat
  signers : List Signer
  core : Nat
  /-- Once bound: the engine, and a number that orders the bound requests (R275, R285). -/
  bound : Option (Nat × Nat)
  deriving DecidableEq, Repr

/-- A TMMA in flight (R281). -/
structure Tmma where
  id : Nat
  part : Nat
  pipe : Nat
  uid : Nat
  uids : List Nat
  grp : Nat
  repl : Nat
  core : Nat
  engine : Nat
  e : Ext
  descA : DWord × DWord
  descB : DWord × DWord
  descC : DWord
  shape : DWord
  next : Nat
  /-- Orders the next step among the requests that are ready (R275). -/
  seq : Nat
  deriving DecidableEq, Repr

/-! ### Structures of the builder -/

/-- A triangle of a generation (R338, R340). -/
structure Tri where
  geom : Nat
  prim : Nat
  isOpaque : Bool
  verts : List Word
  deriving DecidableEq, Repr

/-- An instance of a generation (R340, R342). -/
structure InstRec where
  index : Nat
  mask : Nat
  ctx : Nat
  gen : Nat
  w2o : List Word
  lo : List Word
  hi : List Word
  deriving DecidableEq, Repr

/-- A node of a tree: its box, its children, its primitives. Two generations share a node where its number is the same (R342, R349); 0 is a node
that has none yet. -/
structure BNode where
  id : Nat
  lo : List Word
  hi : List Word
  kids : List Nat
  prims : List Nat
  deriving DecidableEq, Repr

/-- What a job stages (R342, R351): the tree, its primitives and its counters. -/
structure GenData where
  nodes : List BNode
  tris : List Tri
  insts : List InstRec
  counts : List Nat
  sah : Word
  overlap : Word
  refits : Nat
  degen : Nat
  /-- SAH of the last full build or rebalance (R352). -/
  baseSah : Word
  deriving DecidableEq, Repr

/-- A generation (R347): number, state (1 CURRENT, 2 RETIRED, 3 RECLAIMING, 4 FREE), the tag it is current for, its
pins by rays and BEAMs. -/
structure Gen where
  num : Nat
  state : Nat
  tag : Nat
  pins : Nat
  /-- Published after the last boundary, and the generation it replaced (R350, R385). -/
  fresh : Bool
  replaced : Option Nat
  data : GenData
  deriving DecidableEq, Repr

/-- A structure context (R337, R338). -/
structure StructCtx where
  part : Nat
  idx : Nat
  seq : Nat
  top : Bool
  live : Bool
  arena : Nat
  size : Nat
  original : Nat
  extensions : Nat
  maxGen : Nat
  staged : List (Nat × GenData)
  gens : List Gen
  deriving DecidableEq, Repr

/-- A builder job (R339, R343). -/
structure Job where
  id : Nat
  part : Nat
  pipe : Nat
  uids : List Nat
  grp : Nat
  repl : Nat
  token : Nat
  kind : Nat
  desc : List Word
  ctx : Nat
  fresh : Bool
  tag : Nat
  /-- The descriptor's address, and the instruction's (R492). -/
  addr : Nat
  pc : DWord
  eng : EngineWait
  /-- It waits for the service of an arena extension; one has been refused (R344). -/
  growWait : Bool
  refused : Bool
  deriving DecidableEq, Repr

/-! ### Partitions -/

/-- A frame contract (R400 to R403). -/
structure Contract where
  reg : DWord
  adm : Bool
  start : Option Nat
  spent : Nat
  delivered : Bool
  overrun : Bool
  period : Nat
  deriving DecidableEq, Repr

/-- A host event that has no answer (R395, R396). `written` says that it stands in the ring. -/
structure HostEvent where
  seq : Nat
  kind : Nat
  addr : Nat
  len : Nat
  acc : Nat
  arg : Nat
  clock : Nat
  due : Option Nat
  uid : Option Nat
  pipe : Nat
  written : Bool
  deriving DecidableEq, Repr

/-- A page service in progress (R73, R74, R245). -/
structure PageSvc where
  va : Nat
  acc : Nat
  request : Bool
  /-- The region entry that decides, and PART_MODE, at the moment of the fault (R75, R397). -/
  region : Option Nat
  mode : BitVec 5
  hostSeq : Option Nat
  frame : Option Nat
  failed : Option Nat
  /-- A page of the save area: the logical core and the offset in its image, and whether a restore reads it (R409, R501). -/
  save : Option (Nat × Nat × Bool)
  deriving DecidableEq, Repr

/-- A migration (R411 to R413): source logical core, target physical core, state 1 requested, 2 moving. -/
structure Migr where
  src : Nat
  dst : Nat
  state : Nat
  deadline : Nat
  deriving DecidableEq, Repr

/-- A pre-emption request (R404): pipelines, source and deadline clock. -/
structure Preq where
  source : Nat
  pipes : List Nat
  deadline : Nat
  deriving DecidableEq, Repr

/-- A flip record (R299): surface base and frame value. -/
structure FlipRec where
  base : Nat
  frame : Nat
  deriving DecidableEq, Repr

/-- What a capture of an interval boundary, or the images of a suspension, hold (R383, R410): the pipelines with their queues, the fibres and
groups, their requests in flight, the port windows, the scratchpads and vaults by logical core and offset, with the words that carry a mark (R464), and the pending records of sinks. -/
structure Capture where
  pipes : List Pipe
  fibres : List Fibre
  groups : List Group
  rays : List Ray
  gathers : List Gather
  loads : List LoadReq
  pendV : List (Nat × Nat)
  copies : List Copy
  beams : List Beam
  jobs : List Job
  ports : List Port
  vports : List VPort
  scratch : List (Nat × List Host.Cell × List Nat)
  vault : List (Nat × List Host.Cell × List Nat)
  pending : List (Nat × Option FlipRec)
  deriving DecidableEq, Repr

/-- An answer awaited on a record (R442): SEQ, pipeline, cause, the fibre it names, the fibres it holds, and the 2 ms limit. -/
structure Awaited where
  seq : Nat
  pipe : Nat
  cause : Nat
  uid : Nat
  held : List Nat
  due : Option Nat
  deriving DecidableEq, Repr

/-- A line of an .ORD epoch (R379): line key, the pipeline whose lifetime is the epoch (none: the interval), prior bytes, first group, shared, and
the log of updates. -/
structure OrdLine where
  line : Nat
  pipe : Option Nat
  prior : List Byte
  grp : Nat
  shared : Bool
  log : List OrdUpdate
  deriving DecidableEq, Repr

/-- A partition: its page of registers (R388) and what the hardware keeps for it. -/
structure Partition where
  /-- PART_STAT.STATE: 0 DOWN, 1 IDLE, 2 RUNNING, 3 SUSPENDED, 4 RESETTING (R389). -/
  state : Nat
  lstat : Nat
  ovrcnt : Nat
  clus : BitVec 32
  mode : BitVec 5
  res : DWord
  reqva : DWord
  preemptDl : Nat
  saveCtl : DWord
  emergBase : DWord
  hsvcBase : DWord
  ptRoot : DWord
  prvBase : DWord
  voaCtl : DWord
  voaTaken : Bool
  intCtl : DWord
  contracts : List Contract
  /-- The logical map and VOA_CTL in force, and the registers of the page, which take effect at CREATE (R122, R388, R390). -/
  lmap : List (BitVec 8)
  lmapPage : List (BitVec 8)
  voaPage : DWord
  replMap : List Word
  vltPwr : List (BitVec 8)
  /-- Slabs whose wake is in progress: (logical core, slab). -/
  waking : List (Nat × Nat)
  /-- Writes of VLT_PWR that wait for accesses begun on a slab (R428): logical core and value, oldest first. -/
  slabWrites : List (Nat × BitVec 8)
  errlog : DWord
  logHead : Nat
  fpool : DWord
  /-- Frames handed out: runs of 4 KiB frames, (first frame of the device, count) (R75). -/
  framesOut : List (Nat × Nat)
  regions : List (BitVec 128)
  hostCount : Nat
  hostDone : Nat
  hostEvents : List HostEvent
  reqSeq : Nat
  services : List PageSvc
  /-- INTERVAL (R201, R380 to R382): the open interval tag, and the intervals committed. -/
  openInterval : Option Nat
  intervals : Nat
  nextIntervalTag : Nat
  boundaryAt : Nat
  ickpt : Bool
  boundary : Bool
  rollback : Bool
  captures : List (Option Capture)
  lastCapture : Nat
  /-- The images of the last suspension in the save area, with its base (R408, R416). -/
  image : Option (Nat × Capture)
  /-- A SUSPEND in progress, and a RESUME that waits for the pages of its save area, by its base (R416). -/
  suspending : Bool
  resuming : Option Nat
  /-- A launch word whose descriptor waits for the service of a page (R392). -/
  launchWait : Option (DWord × EngineWait)
  /-- The ANS that the MMP acquired last (R442). -/
  ansSeen : DWord
  errorWake : Bool
  leaseCount : Nat
  pipeCount : Nat
  fidCount : Nat
  groupSeq : List (Nat × Nat)
  preqs : List Preq
  migrs : List Migr
  emergency : Option Nat
  /-- Cores whose image waits for the emergency area, with the clock since which it waits (R409). -/
  diverting : List (Nat × Nat)
  awaited : List Awaited
  ordLines : List OrdLine
  deriving DecidableEq, Repr

/-! ### Device -/

/-- A future tag (R125, R296). -/
structure TagRec where
  /-- 0 FREE, 1 LIVE, 2 COMMITTING, 3 SQUASHED, 4 RECLAIMING. -/
  state : Nat
  part : Nat
  set : DWord
  /-- The split set's parent is an interval tag (R114, R302). -/
  interval : Bool
  cmt : Bool
  winner : Nat
  /-- While COMMITTING: the s-register of the FUT.COMMIT that names it (R294). -/
  answer : Option (GroupId × Nat)
  flips : List (Nat × FlipRec)
  deriving DecidableEq, Repr

/-- A slot of a matrix engine (R284), and a write that waits for the slot boundary (R286). -/
structure MxeSlot where
  core : Nat
  engine : Nat
  slot : Nat
  handle : Nat
  part : Nat
  excl : Bool
  next : Option (Nat × Bool)
  deriving DecidableEq, Repr

/-- A sink (R299, R399). -/
structure Sink where
  mode : DWord
  time : DWord
  timing : DWord
  pclk : DWord
  nextMode : Option DWord
  nextTime : Option DWord
  nextTiming : Option DWord
  nextPclk : Option DWord
  current : Option FlipRec
  pending : Option FlipRec
  /-- The surface last shown, none for black. -/
  shown : Option FlipRec
  owner : Option Nat
  slotAt : Nat
  deriving DecidableEq, Repr

/-- Gang bookkeeping (R32 to R34, R39): starvation counter, break at the next issue, first slot in the next clock, the clock
since which the primary wave has been ready, and the clock of the last issue. -/
structure GangRec where
  id : GangId
  starve : Nat
  breakNext : Bool
  force : Bool
  readySince : Option Nat
  lastIssue : Nat
  deriving DecidableEq, Repr

/-- MODEL: an issue of this clock: the gang, the slices it occupies (R29, R33), whether it is the gang's primary
wave, whether it stands in the primary wave's place (R32), and whether it took the second issue slot (R33). -/
structure SlotUse where
  gang : GangId
  slices : BitVec 16
  primary : Bool
  inPlace : Bool
  second : Bool
  deriving DecidableEq, Repr

/-- MODEL: a wave chosen for an issue slot of this clock (R33): its fibres, and their PC. -/
structure Chosen where
  use : SlotUse
  uids : List Nat
  pc : DWord
  deriving DecidableEq, Repr

/-- MODEL: the waves of a gang that are ready in this clock (R30): whether its primary wave is, and whether a secondary one is (R32, R34). -/
structure GangView where
  gang : GangId
  primary : Bool
  secondary : Bool
  deriving DecidableEq, Repr

/-- MODEL: what a clock begins with: the waves chosen for its issue slots, and what each gang had ready (R30 to R34). -/
structure ClockPlan where
  chosen : List Chosen
  views : List GangView
  deriving DecidableEq, Repr

/-- A REPACK collection (R192). -/
structure Collect where
  id : Nat
  part : Nat
  lcore : Nat
  quad : Nat
  stage : Nat
  pipe : Nat
  repl : Nat
  pc : DWord
  grp : Nat
  tag : Nat
  arrivals : List (Nat × Nat)
  due : Nat
  /-- In a follower replica, the leader's reassignment that it waits to repeat: (replica set, slot, lane) (R370). -/
  plan : List (Nat × Nat × Nat)
  deriving DecidableEq, Repr

/-- A corrected record into which later ones merge (R440): its key, its first clock, its sequence numbers in the
partition log and in the device log, and the occurrences. -/
structure MergeRec where
  cause : Nat
  addr : Nat
  pcore : Nat
  clock : Nat
  part : Option Nat
  pseq : Nat
  dseq : Nat
  count : Nat
  deriving DecidableEq, Repr

/-- An error that a check of the hardware meets (R467 to R471). Where a register or a sector stands in an array is the hardware's own choice
(R19, R123), so an error of an array that is not addressed says what its word holds. -/
inductive MemError where
  /-- A 64-bit word of an array of SRAM: physical core, array (R473), byte offset; the bit that was corrected, or none where two bits are
  wrong; the registers (fibre, number), or the sector (tag, key of its home copy), that the word holds (R468). -/
  | cell (core array offset : Nat) (bit : Option Nat) (regs : List (Nat × Nat)) (sector : Option (Nat × Nat))
  /-- A transfer over the bond that passed after resends: its first failing beat, and the resends (R470). -/
  | bond (core channel offset beat resends : Nat)
  /-- A burst of a GDDR 7 sector that passed after resends (R471). -/
  | burst (sector resends : Nat)
  /-- A flag of the on-die ECC of a GDDR 7 device (R471). -/
  | device (sector : Nat) (corrected : Bool)
  /-- A structure that cannot carry poison: its code, the physical core at which it stands, and the partition that owns it (R439, R467). -/
  | ofStructure (code core : Nat) (part : Option Nat)
  /-- The next write of a record to a partition's log meets it, in the SRAM of the VAC slice or in GDDR 7 (R437). -/
  | logWrite (part : Nat) (gddr : Bool)
  deriving DecidableEq, Repr

/-- The state of the machine. -/
structure State where
  /-- CLOCK (R201). -/
  clock : Nat
  /-- SYS_STAT (R423). -/
  ready : Bool
  failed : Bool
  trip : Bool
  step : Nat
  fwver : BitVec 16
  table : Nat
  /-- BRING_STAT (R506). -/
  bringDetail : BitVec 16
  bringReason : BitVec 4
  bringStep : BitVec 3
  /-- Each thermal zone's reading of the cooling loops: the top one lost, the bottom one lost (R17, R424). -/
  loops : List (Bool × Bool)
  /-- THERM_STAT (R425): TEMP, THROT, TRIPPED of each core. -/
  therm : List (BitVec 12 × Bool × Bool)
  dbgDark : Bool
  dbgEn : BitVec 16
  /-- The words returned to the last debug read (R429). -/
  dbgData : List DWord
  cmdStat : Nat
  destroyWait : Option Nat
  sinks : List Sink
  /-- Device log (R437): records by sequence number, count, selector. -/
  dlog : List (Nat × BitVec 512)
  dlogHead : Nat
  dlogSel : DWord
  /-- MSI-X vectors raised (R395, R430, R443, R505), oldest first. -/
  msix : List Nat
  linkLost : Bool
  tags : List TagRec
  parts : List Partition
  pipes : List Pipe
  fibres : List Fibre
  groups : List Group
  ports : List Port
  vports : List VPort
  rays : List Ray
  gathers : List Gather
  gfails : List GatherFail
  copies : List Copy
  beams : List Beam
  jobs : List Job
  structs : List StructCtx
  stepSets : List StepSet
  tmmas : List Tmma
  mxe : List MxeSlot
  collects : List Collect
  gangs : List GangRec
  /-- Memory: one canonical list of cells over every space (Ops.lean gives the keys). -/
  mem : List Host.Cell
  l1 : List L1Word
  registry : List RegEntry
  vers : List VerRec
  verLines : List VerLine
  hostLines : List HostLine
  /-- Lines of device memory that the host caches through CXL.mem (R109). -/
  hostHeld : List Nat
  /-- Writes to peer memory that wait for their acknowledgement (R110, R472). -/
  peerWrites : List PeerWrite
  /-- Reducing stores under way in the collective path (R252). -/
  reducing : List Reducing
  /-- Transaction barriers: the keys of the objects that a barrier instruction or a copy has named (R90, R91; notes/assumptions/35.md). -/
  txbs : List Nat
  /-- The words of the last answer to the host: of a CXL.mem read, or of a snoop that met M (R109, R431). -/
  hostData : List PWord
  tlb : List TlbEntry
  leases : List Lease
  loads : List LoadReq
  /-- Words of memory that hold poison (R464). -/
  poisoned : List Nat
  /-- Spare lanes used: (core, channel, lanes) (R469). -/
  spares : List (Nat × Nat × Nat)
  /-- Corrected records that later ones may merge into (R440). -/
  merged : List MergeRec
  /-- Errors that the checks of the hardware have met and not yet served, oldest first, with the fibre whose access each served (R465 to R471).
  MODEL: an input. -/
  errors : List (MemError × Option Nat)
  /-- v-registers whose result has not returned: (fibre, register). -/
  pendV : List (Nat × Nat)
  /-- MODEL: the wave that issues, as fibre numbers in ascending gang lane. -/
  cur : List Nat
  /-- MODEL: events of other agents that are due, oldest first. -/
  agenda : List Event
  /-- MODEL: events due at a clock. -/
  timers : List (Nat × Event)
  /-- MODEL: the first word of the instruction that issues, which the record of ILLEGAL_OP reports (R438). -/
  curWord : Word
  /-- MODEL: the issues of this clock, latest first. -/
  slots : List SlotUse
  /-- MODEL: the choice of waves for this clock, once it is made. -/
  plan : Option ClockPlan
  /-- MODEL: counters of fibres, requests and free values. -/
  nextUid : Nat
  nextId : Nat
  free : Nat
  deriving DecidableEq, Repr

/-! ### Reset -/

/-- A partition after reset: DOWN, its registers zero, PREEMPT_DL 36,000 (R388, R389, R421). -/
def Partition.reset : Partition :=
  { state := 0, lstat := 0, ovrcnt := 0, clus := 0, mode := 0, res := 0, reqva := 0, preemptDl := 36000, saveCtl := 0
    emergBase := 0, hsvcBase := 0, ptRoot := 0, prvBase := 0, voaCtl := 0, voaTaken := false, intCtl := 0
    contracts := List.replicate 16 { reg := 0, adm := false, start := none, spent := 0, delivered := false, overrun := false, period := 0 }
    lmap := List.replicate 128 0, lmapPage := List.replicate 128 0, voaPage := 0, replMap := List.replicate 128 0, vltPwr := List.replicate 128 0, waking := [], slabWrites := []
    errlog := 0, logHead := 0, fpool := 0, framesOut := [], regions := List.replicate 16 0
    hostCount := 0, hostDone := 0, hostEvents := [], reqSeq := 0, services := []
    openInterval := none, intervals := 0, nextIntervalTag := 0, boundaryAt := 0, ickpt := false, boundary := false
    rollback := false, captures := [none, none], lastCapture := 0, image := none, suspending := false, resuming := none, launchWait := none, ansSeen := 0, errorWake := false, leaseCount := 0, pipeCount := 0
    fidCount := 0, groupSeq := [], preqs := [], migrs := [], emergency := none, diverting := [], awaited := []
    ordLines := [] }

/-- A sink after reset (R299, R399). -/
def Sink.reset : Sink :=
  { mode := 0, time := 0, timing := 0, pclk := 0, nextMode := none, nextTime := none, nextTiming := none
    nextPclk := none, current := none, pending := none, shown := none, owner := none, slotAt := 0 }

/-- A tag after reset: FREE (R125). -/
def TagRec.reset : TagRec :=
  { state := 0, part := 0, set := 0, interval := false, cmt := false, winner := 0, answer := none, flips := [] }

/-- The machine right after reset: the device at READY, every partition DOWN, no fibre, nothing in memory (R7, R421).
The values the spec does not give are named in notes/assumptions/1.md. -/
def State.reset : State :=
  { clock := 0, ready := true, failed := false, trip := false, step := 6, fwver := 0, table := 0
    bringDetail := 0, bringReason := 0, bringStep := 0, loops := List.replicate 8 (false, false)
    therm := List.replicate 128 (0, false, false), dbgDark := false, dbgEn := 0, dbgData := [], cmdStat := 0
    destroyWait := none, sinks := List.replicate 20 Sink.reset, dlog := [], dlogHead := 0, dlogSel := 0, msix := []
    linkLost := false, tags := List.replicate 96 TagRec.reset, parts := List.replicate 16 Partition.reset
    pipes := [], fibres := [], groups := [], ports := [], vports := [], rays := [], gathers := [], gfails := [], copies := []
    beams := [], jobs := [], structs := [], stepSets := [], tmmas := [], mxe := [], collects := [], gangs := []
    mem := [], l1 := [], registry := [], vers := [], verLines := [], hostLines := [], hostHeld := [], peerWrites := [], reducing := [], txbs := [], hostData := [], tlb := [], leases := []
    loads := [], poisoned := [], spares := [], merged := [], errors := [], pendV := []
    cur := [], curWord := 0, agenda := [], timers := [], slots := [], plan := none, nextUid := 0, nextId := 0, free := 0 }

end Sys2Proof.Machine
end

