-- ==== Sys2Proof/Machine/Get.lean ====
section
/-! DEFINITION. Reading and writing the parts of the state: fibres, groups, pipelines, partitions, tags, and the
registers of a fibre and of a group. The special registers' behaviour (p0 reads 1, R25) lives here. -/

namespace Sys2Proof.Machine

/-! ### Lists keyed by a number -/

/-- Replace the elements that satisfy `p`. -/
def mapIf {α : Type} (p : α → Bool) (f : α → α) (l : List α) : List α := l.map fun x => if p x then f x else x

/-- The element at an index, or a default. -/
def nth {α : Type} (d : α) (l : List α) (i : Nat) : α := l.getD i d

/-- Add a number to a list that has no repeats. -/
def addOnce (l : List Nat) (x : Nat) : List Nat := if l.contains x then l else l ++ [x]

/-- Insertion sort by a number. -/
def sortInsert {α : Type} (key : α → Nat) (x : α) : List α → List α
  | [] => [x]
  | y :: r => if key x < key y then x :: y :: r else y :: sortInsert key x r

/-- A list in ascending order of a number; equal elements keep their order. -/
def sortBy {α : Type} (key : α → Nat) (l : List α) : List α := l.foldl (fun acc x => sortInsert key x acc) []

/-- The least element by a number; the first of equals. -/
def minBy {α : Type} (key : α → Nat) : List α → Option α
  | [] => none
  | x :: r =>
    match minBy key r with
    | none => some x
    | some y => if key y < key x then some y else some x

/-! ### Fibres -/

/-- A fibre that no fibre is. -/
def Fibre.blank : Fibre :=
  { uid := 0, setId := 0, part := 0, pipe := 0, stage := 0, repl := 0, lcore := 0, onCore := 0, quad := 0, slot := 0, lane := 0
    fid := 0, launchIdx := 0, priv := 0, pc := 0, preds := 1, win := 16, cur := 0, home := 0, rank := 0, tag := 0
    flags := 0, ftz := 0, repcnt := 0, vregs := [], st := .ended, wait := .none, hold := none, ilen := 0
    tiered := false, saved := false, readyAt := 0, lastIssue := 0, sb := [], repLive := false, repLen := 0
    unacked := [], peerUnacked := 0, sig := 0, journal := [], forwarded := [], info := [], parent := 0, spawns := 0, wakes := 0, served := false, lwait := none, agreed := false, pointAt := 0, engWrote := false, signed := []
    boundRay := none, pageFail := none }

/-- The fibre of a number. -/
def State.fibre (s : State) (uid : Nat) : Fibre := (s.fibres.find? fun f => f.uid == uid).getD Fibre.blank

/-- Change the fibre of a number. -/
def State.updFibre (s : State) (uid : Nat) (g : Fibre → Fibre) : State :=
  { s with fibres := mapIf (fun f => f.uid == uid) g s.fibres }

/-- Change every fibre. -/
def State.mapFibres (s : State) (g : Fibre → Fibre) : State := { s with fibres := s.fibres.map g }

/-- Live fibres: those that have not ended. -/
def Fibre.live (f : Fibre) : Bool := f.st != .ended

/-- The gang of a fibre (R28). -/
def Fibre.gang (f : Fibre) : GangId := ⟨f.part, f.onCore, f.quad, f.slot, f.repl⟩

/-- The group a fibre is a member of. -/
def Fibre.groupId (f : Fibre) : GroupId := ⟨f.part, f.cur, f.repl⟩

/-- RUNNABLE and neither TIERED nor SAVED (R61). -/
def Fibre.runs (f : Fibre) : Bool := f.st == .runnable && !f.tiered && !f.saved

/-- The fibre is SAVED: a REP word issues again when it resumes (R187), and the results it waited for are written (R449). -/
def Fibre.save (f : Fibre) : Fibre := { f with saved := true, repLive := false, sb := [] }

/-- The fibre's window is in the tier, as a save leaves it (R187, R449). -/
def Fibre.tier (f : Fibre) : Fibre := { f with tiered := true, repLive := false, sb := [] }

/-- A predicate of a fibre; p0 reads 1 (R25). -/
def Fibre.pred (f : Fibre) (n : Nat) : Bool := n == 0 || f.preds.getLsbD n

/-- Write a predicate; a write to p0 is discarded (R25). -/
def Fibre.setPred (f : Fibre) (n : Nat) (b : Bool) : Fibre :=
  if n = 0 ∨ 16 ≤ n then f
  else { f with preds := if b then f.preds ||| (1#16 <<< n) else f.preds &&& ~~~(1#16 <<< n) }

/-- The value of an element that nothing has written: zero, no poison (R27). -/
def zeroWord : PWord := ⟨0, false⟩
/-- The value of an s-register that nothing has written (R43). -/
def zeroDWord : PDWord := ⟨0, false⟩

/-- A v-register. -/
def Fibre.v (f : Fibre) (n : Nat) : PWord := mapGet zeroWord f.vregs n

/-- Write a v-register; a poisoned element holds zero data (R105). -/
def Fibre.setV (f : Fibre) (n : Nat) (x : PWord) : Fibre :=
  { f with vregs := mapSet zeroWord f.vregs n (if x.poison then ⟨0, true⟩ else x) }

/-- A pair v(n):v(n+1), bits 31:0 in the even register. -/
def Fibre.vPair (f : Fibre) (n : Nat) : PDWord :=
  let lo := f.v n
  let hi := f.v (n + 1)
  ⟨hi.val ++ lo.val, lo.poison || hi.poison⟩

/-- Write a pair; poison marks both elements. -/
def Fibre.setPair (f : Fibre) (n : Nat) (x : PDWord) : Fibre :=
  (f.setV n ⟨x.val.extractLsb' 0 32, x.poison⟩).setV (n + 1) ⟨x.val.extractLsb' 32 32, x.poison⟩

/-- Write a range of v-registers. -/
def Fibre.setRange (f : Fibre) (n : Nat) : List PWord → Fibre
  | [] => f
  | x :: r => (f.setV n x).setRange (n + 1) r

/-- The guard of an instruction is true for the fibre (R165). -/
def Fibre.guard (f : Fibre) (e : Ext) : Bool := f.pred e.gp.toNat != e.gn

/-! ### Groups -/

/-- A group that no group is. -/
def Group.blank : Group :=
  { part := 0, handle := 0, repl := 0, elastic := false, copyRight := false, creator := 0, everJoined := false
    members := [], lost := [], sregs := [], pend := [], tokens := []
    cvs := List.replicate 8 { size := 0, signers := [], count := 0, round := 0, since := none, done := [] }
    bars := List.replicate 4 { isOpen := false, expected := [], lost := 0, arrived := [], since := 0, pipe := 0 }, ord := [] }

/-- A group is the one a handle names. -/
def Group.is (g : Group) (i : GroupId) : Bool := g.part == i.part && g.handle == i.handle && g.repl == i.repl

/-- The group of a handle; none where the handle is stale. -/
def State.group? (s : State) (i : GroupId) : Option Group := s.groups.find? fun g => g.is i

/-- The group of a handle. -/
def State.group (s : State) (i : GroupId) : Group := (s.group? i).getD Group.blank

/-- Change a group. -/
def State.updGroup (s : State) (i : GroupId) (g : Group → Group) : State :=
  { s with groups := mapIf (fun x => x.is i) g s.groups }

/-- An s-register of a group (R43). -/
def Group.sreg (g : Group) (n : Nat) : PDWord := mapGet zeroDWord g.sregs n

/-- Write an s-register; a poisoned register holds zero data (R105). What it held of a token is gone. -/
def Group.setS (g : Group) (n : Nat) (x : PDWord) : Group :=
  { g with sregs := mapSet zeroDWord g.sregs n (if x.poison then ⟨0, true⟩ else x), tokens := g.tokens.filter fun k => k != n }

/-- An s-register a fibre sees: that of its current group (R43). -/
def State.sreg (s : State) (f : Fibre) (n : Nat) : PDWord := (s.group f.groupId).sreg n

/-- Write an s-register of a fibre's current group. -/
def State.setS (s : State) (i : GroupId) (n : Nat) (x : PDWord) : State := s.updGroup i fun g => g.setS n x

/-- The cluster of a group handle (R40). -/
def handleCluster (h : Nat) : Nat := h / 2 ^ 7 % 32

/-- The number of members, lost ones included (R41, R42). -/
def Group.size (g : Group) : Nat := g.members.length + g.lost.length

/-! ### Pipelines -/

/-- A pipeline that no pipeline is. -/
def Pipe.blank : Pipe :=
  { part := 0, handle := 0, supervisor := false, contract := none, determ := false, check := false, barwd := 0, convwd := 0
    repl := 0, live := [0], cores := [], partners := [], stages := [], queues := [], pending := [], pins := []
    ended := some (0, 0), holds := [], leader := 0, savedSince := none }

/-- The pipeline of a handle in a partition. -/
def State.pipe? (s : State) (part handle : Nat) : Option Pipe := s.pipes.find? fun p => p.part == part && p.handle == handle

/-- The pipeline of a handle in a partition. -/
def State.pipe (s : State) (part handle : Nat) : Pipe := (s.pipe? part handle).getD Pipe.blank

/-- The pipeline of a fibre. -/
def State.pipeOf (s : State) (f : Fibre) : Pipe := s.pipe f.part f.pipe

/-- Change a pipeline. -/
def State.updPipe (s : State) (part handle : Nat) (g : Pipe → Pipe) : State :=
  { s with pipes := mapIf (fun p => p.part == part && p.handle == handle) g s.pipes }

/-- Change queue `q` of a pipeline. -/
def State.updQueue (s : State) (part handle q : Nat) (g : Queue → Queue) : State :=
  s.updPipe part handle fun p => { p with queues := p.queues.modify q g }

/-- A running pipeline. -/
def Pipe.runs (p : Pipe) : Bool := p.ended.isNone

/-- The stage of a fibre. -/
def State.stageOf (s : State) (f : Fibre) : Option StageRec := (s.pipeOf f).stages[f.stage]?

/-- The pipeline runs replicated: more than one live replica (R360, R373). -/
def Pipe.replicated (p : Pipe) : Bool := p.repl != 0 && 1 < p.live.length

/-! ### Partitions, tags, sinks -/

/-- A partition. -/
def State.partn (s : State) (p : Nat) : Partition := nth Partition.reset s.parts p

/-- Change a partition. -/
def State.updPart (s : State) (p : Nat) (g : Partition → Partition) : State := { s with parts := s.parts.modify p g }

/-- A future tag. -/
def State.tagRec (s : State) (t : Nat) : TagRec := nth TagRec.reset s.tags t

/-- Change a future tag. -/
def State.updTag (s : State) (t : Nat) (g : TagRec → TagRec) : State := { s with tags := s.tags.modify t g }

/-- A sink. -/
def State.sink (s : State) (k : Nat) : Sink := nth Sink.reset s.sinks k

/-- Change a sink. -/
def State.updSink (s : State) (k : Nat) (g : Sink → Sink) : State := { s with sinks := s.sinks.modify k g }

/-- The physical core of a logical core; none where LMAP has no valid entry (R387, R388). -/
def Partition.phys? (p : Partition) (c : Nat) : Option Nat :=
  let b := nth 0 p.lmap c
  if b.getLsbD 7 then some (b.extractLsb' 0 7).toNat else none

/-- The physical core of a logical core. -/
def Partition.phys (p : Partition) (c : Nat) : Nat := (p.phys? c).getD 0

/-- The physical core under a fibre. -/
def State.coreOf (s : State) (f : Fibre) : Nat := (s.partn f.part).phys f.onCore

/-- How many CLOCKs hold how many arithmetic clocks of a physical core: 1.8 GHz under the nominal table, 0.9 GHz with the top loop lost, 1.2 GHz with
the bottom loop lost, and half of that on a throttled core (R424, R426). -/
def State.clockRatio (s : State) (core : Nat) : Nat × Nat :=
  let r := if s.table = 1 then (2, 1) else if s.table = 2 then (3, 2) else (1, 1)
  if (nth (0, false, false) s.therm core).2.1 then (2 * r.1, r.2) else r

/-- The CLOCK of the n-th arithmetic clock of a core after its present one: stall counts and latencies count the clocks in force (R424). -/
def State.coreClock (s : State) (core n : Nat) : Nat :=
  let r := s.clockRatio core
  ((s.clock * r.2 / r.1 + n) * r.1 + r.2 - 1) / r.2

/-- The logical core that logical core `c` denotes within a replica (R360). -/
def State.replCore (s : State) (f : Fibre) (c : Nat) : Nat :=
  if f.repl = 0 then c
  else
    let e := nth 0 (s.partn f.part).replMap c
    if f.repl = 1 then (e.extractLsb' 0 7).toNat else (e.extractLsb' 8 7).toNat

/-- A fresh number for a request. -/
def State.fresh (s : State) : Nat × State := (s.nextId, { s with nextId := s.nextId + 1 })

/-- Put an event on the agenda. -/
def State.post (s : State) (e : Event) : State := { s with agenda := s.agenda ++ [e] }

/-- Set an event for a clock. -/
def State.timer (s : State) (due : Nat) (e : Event) : State := { s with timers := s.timers ++ [(due, e)] }

/-! ### Bits and bytes -/

/-- Bits `hi` down to `lo` of a number. -/
def bits (x lo n : Nat) : Nat := x / 2 ^ lo % 2 ^ n

/-- The bytes of a number, least significant first. -/
def leBytes : Nat → Nat → List Byte
  | 0, _ => []
  | n + 1, x => BitVec.ofNat 8 x :: leBytes n (x / 256)

/-- The number of a list of bytes, least significant first. -/
def ofLeBytes : List Byte → Nat
  | [] => 0
  | b :: r => b.toNat + 256 * ofLeBytes r

/-- The words of a list of bytes. -/
def wordsOfBytes : List Byte → List Word
  | a :: b :: c :: d :: r => BitVec.ofNat 32 (ofLeBytes [a, b, c, d]) :: wordsOfBytes r
  | _ => []

end Sys2Proof.Machine
end

