-- ==== Sys2Proof/Machine/Mem.lean ====
section
/-! DEFINITION. Memory, versions, and the caches that a program can observe: the one byte map over every space, the
copy an access reaches (R116 to R118), the L1 words with DIRTY and RLS, registration, forwarding and promotion
(R77 to R83), release and acquire (R80, R81). -/

namespace Sys2Proof.Machine

/-! ### Keys

A byte of memory is named by a number: its space times 2^52 plus its offset. -/

/-- The size of a space. -/
def spaceSize : Nat := 2 ^ 52
/-- Device memory by physical address, and host memory by host physical address (R76). -/
def devKey (pa : Nat) : Nat := pa % spaceSize
def hostKey (pa : Nat) : Nat := spaceSize + pa % spaceSize
/-- The scratchpad of a physical core (R62). -/
def spdKey (core o : Nat) : Nat := 2 * spaceSize + core * 2 ^ 18 + o % 2 ^ 18
/-- The addressed vault of a physical core (R62). -/
def vltKey (core o : Nat) : Nat := 3 * spaceSize + core * 2 ^ 20 + o % 2 ^ 20
/-- The version, under tag `t`, of a byte whose home key is `k` (R118). -/
def verKey (t k : Nat) : Nat := (16 + 2 * t) * spaceSize + k
/-- The home copy is in host memory. -/
def isHostKey (k : Nat) : Bool := k / spaceSize == 1
/-- Device physical addresses end at 64 GiB (R76). -/
def deviceSize : Nat := 2 ^ 36

/-! ### Bytes -/

/-- One byte of memory: the one operation that reads memory. -/
def State.byte (s : State) (key : Nat) : Byte := mapGet unwritten s.mem key

/-- Write one byte of memory: the one operation that writes memory. -/
def State.setByte (s : State) (key : Nat) (b : Byte) : State := { s with mem := mapSet unwritten s.mem key b }

/-- `n` bytes from a key up. -/
def State.bytes (s : State) (key : Nat) : Nat → List Byte
  | 0 => []
  | n + 1 => s.byte key :: s.bytes (key + 1) n

/-- Write bytes from a key up. -/
def State.setBytes (s : State) (key : Nat) : List Byte → State
  | [] => s
  | b :: r => (s.setByte key b).setBytes (key + 1) r

/-- A little-endian number of `n` bytes. -/
def State.readNat (s : State) (key n : Nat) : Nat := ofLeBytes (s.bytes key n)

/-- Write a little-endian number of `n` bytes. -/
def State.writeNat (s : State) (key n x : Nat) : State := s.setBytes key (leBytes n x)

/-- The word of a key is poisoned in memory (R464). -/
def State.memPoison (s : State) (key : Nat) : Bool := s.poisoned.contains (key / 4)

/-- Mark or clear the poison of a word of memory. -/
def State.setMemPoison (s : State) (key : Nat) (p : Bool) : State :=
  { s with poisoned := if p then addOnce s.poisoned (key / 4) else s.poisoned.filter (fun k => k != key / 4) }

/-- The bytes over which one mark stands: a 64-bit word of a scratchpad or vault, a sector elsewhere (R464). -/
def granuleSize (key : Nat) : Nat := if key / spaceSize = 2 ∨ key / spaceSize = 3 then 8 else 32

/-- Mark the granule of a key. -/
def State.markGranule (s : State) (key : Nat) : State :=
  let n := granuleSize key
  (List.range (n / 4)).foldl (fun s i => s.setMemPoison (key / n * n + 4 * i) true) s

/-- Mark the granules of a sector of 32 bytes. -/
def State.markGranules (s : State) (key : Nat) : State := (List.range 4).foldl (fun s i => s.markGranule (key + 8 * i)) s

/-- Clear the marks of the granules that `n` bytes from a key up cover; a partial write leaves its granule marked (R464). -/
def State.clearMarks (s : State) (key n : Nat) : State :=
  { s with poisoned := s.poisoned.filter fun k =>
      let g := granuleSize (4 * k)
      let b := 4 * k / g * g
      !(decide (key ≤ b) && decide (b + g ≤ key + n)) }

/-! ### Versions -/

/-- The interval tag open in a partition (R115, R381). -/
def State.interval (s : State) (part : Nat) : Option Nat := (s.partn part).openInterval

/-- Chain(f) without the trunk (R117). -/
def State.chain (s : State) (part f : Nat) : List Nat :=
  (if f = 0 then [] else [f]) ++ (match s.interval part with | some t => if t = f then [] else [t] | none => [])

/-- VersionExists (R117). -/
def State.hasVersion (s : State) (sector t : Nat) : Bool := s.vers.any fun r => r.tag == t && r.sector == sector

/-- The tag whose copy of a sector an access of tag `f` reads: VersionLookup (R117); 0 is the home copy. -/
def State.lookupTag (s : State) (part f sector : Nat) : Nat :=
  ((s.chain part f).find? fun t => s.hasVersion sector t).getD 0

/-- The tag whose version an access of tag `f` writes: the fibre's, or the open interval's (R115, R118). -/
def State.writeTag (s : State) (part f : Nat) : Nat := if f ≠ 0 then f else (s.interval part).getD 0

/-- The key of the copy under a tag. -/
def copyKey (t key : Nat) : Nat := if t = 0 then key else verKey t key

/-- The copy an access of tag `f` reads at a place: the tag and the key. -/
def State.readCopy (s : State) (part f : Nat) (l : Loc) : Nat × Nat :=
  let t := if l.vers then s.lookupTag part f (l.key / 32) else 0
  (t, copyKey t l.key)

/-! ### Registration and the L1 -/

/-- A block by its first byte and its grain (R78). -/
def blockOf (key grain : Nat) : Nat := key / (32 * 4 ^ grain) * (32 * 4 ^ grain) * 4 + grain
/-- The first byte of a block, and its size. -/
def blockBase (b : Nat) : Nat := b / 4
def blockSize (b : Nat) : Nat := 32 * 4 ^ (b % 4)
/-- A byte lies in a block. -/
def inBlock (b key : Nat) : Bool := blockBase b ≤ key && key < blockBase b + blockSize b

/-- The word of an L1: core, tag, word key. -/
def State.l1Word (s : State) (core tag key : Nat) : Option L1Word :=
  s.l1.find? fun w => w.core == core && w.tag == tag && w.key == key / 4 * 4

/-- Replace a word of an L1. -/
def State.setL1 (s : State) (w : L1Word) : State :=
  { s with l1 := w :: s.l1.filter fun x => !(x.core == w.core && x.tag == w.tag && x.key == w.key) }

/-- The owner of a registered block (R78). -/
def State.owner (s : State) (tag key grain : Nat) : Option Nat :=
  (s.registry.find? fun r => r.tag == tag && r.block == blockOf key grain).map fun r => r.owner

/-- The grain under which a copy's block is registered. -/
def State.knownGrain (s : State) (tag key : Nat) : Nat :=
  ((s.registry.find? fun r => r.tag == tag && inBlock r.block key).map fun r => r.block % 4).getD 0

/-- What a write to a home copy does to the line's state at the host: a host line of the VAC goes to M, and the host keeps its own copy
(R431). Before a write-back to a device line that the host caches is accepted, its back-invalidation completes (R109); it takes no time of its own
(notes/assumptions/77.md). -/
def State.touchLine (s : State) (t key : Nat) : State :=
  if t ≠ 0 then s
  else if isHostKey key then
    match s.hostLines.find? fun h => h.line == key / 128 with
    | some h =>
      if h.mesi = 0 ∨ h.mesi = 3 then s
      else { s with hostLines := mapIf (fun (x : HostLine) => x.line == key / 128) (fun (x : HostLine) =>
               { x with mesi := 3, backup := s.bytes (key / 128 * 128) 128 }) s.hostLines }
    | none => s
  else { s with hostHeld := s.hostHeld.filter fun x => x != key / 128 }

/-- Put the dirty bytes of a word into the copy it belongs to, with its poison. -/
def State.flushWord (s : State) (w : L1Word) : State :=
  let k := copyKey w.tag w.key
  let s := s.touchLine w.tag w.key
  let s := (List.range 4).foldl (fun s i =>
    if w.dirty.getLsbD i then s.setByte (k + i) (w.data.extractLsb' (8 * i) 8) else s) s
  if w.dirty ≠ 0 ∧ w.poison then s.markGranule k else s

/-- Write back the dirty words of an L1 that satisfy `p`, and clear DIRTY and RLS; a sector all of whose bytes are written loses its mark (R464). -/
def State.writeBack (s : State) (p : L1Word → Bool) : State :=
  let q (w : L1Word) := w.dirty != 0 && p w
  let s' := s.l1.foldl (fun t w => if q w then t.flushWord w else t) s
  let full (sector : Nat) : Bool := (s.l1.filter fun w => q w && w.dirty == 15 && !w.poison && copyKey w.tag w.key / 32 == sector).length == 8
  { s' with
    poisoned := s'.poisoned.filter fun k => !full (k / 8)
    l1 := mapIf q (fun w => { w with dirty := 0, rls := false, foreign := false }) s'.l1 }

/-- Drop the registrations of a core whose blocks hold no dirty word of it any longer. DESIGN CHOICE (notes/assumptions/72.md): a block that a
promotion leaves with unreleased dirty words keeps its registration, which R79 does not say. -/
def State.dropRegs (s : State) (core : Nat) : State :=
  { s with registry := s.registry.filter fun r =>
      r.owner != core || s.l1.any fun w => w.core == core && w.tag == r.tag && w.dirty != 0 && inBlock r.block w.key }

/-- The registry makes the owner of a block write back its dirty words (R78, R83, R86). -/
def State.recallBlock (s : State) (tag key grain : Nat) : State :=
  match s.owner tag key grain with
  | none => s
  | some o =>
    let b := blockOf key grain
    let s := s.writeBack fun w => w.core == o && w.tag == tag && inBlock b w.key
    { s with registry := s.registry.filter fun r => !(r.tag == tag && r.block == b) }

/-- Promotion (R79): an owner writes back every word whose RLS is set and releases those registrations. -/
def State.promote (s : State) (core : Nat) : State := (s.writeBack fun w => w.core == core && w.rls).dropRegs core

/-- A release sets RLS on every dirty word of the core's L1 (R80). -/
def State.setRls (s : State) (core : Nat) : State :=
  { s with l1 := mapIf (fun w => w.core == core && w.dirty != 0) (fun w => { w with rls := true }) s.l1 }

/-- An acquire at CLUSTER scope or wider invalidates every clean word of the core's L1 (R81). -/
def State.selfInval (s : State) (core : Nat) : State :=
  { s with l1 := s.l1.filter fun w => w.core != core || w.dirty != 0 }

/-- Invalidate the word of a key in a core's L1 where it is clean, since the core has been told of a later write (R103). -/
def State.dropWord (s : State) (core tag key : Nat) : State :=
  { s with l1 := s.l1.filter fun w => !(w.core == core && w.tag == tag && w.key == key / 4 * 4 && w.dirty == 0) }

/-- A store by another path or at a site leaves no clean copy of the sector in an L1
(notes/assumptions/13.md). -/
def State.dropClean (s : State) (tag key : Nat) : State :=
  { s with l1 := s.l1.filter fun w => !(w.tag == tag && w.key / 32 == key / 32 && w.dirty == 0) }

/-! ### Current data of a copy -/

/-- The current value of a word of a copy: the registrant's dirty bytes over the home copy; never poison for a race
(R118, R258). The second component is a memory-error mark. -/
def State.currentWord (s : State) (tag key grain : Nat) : Word × Bool :=
  let k := key / 4 * 4
  let base := BitVec.ofNat 32 (s.readNat (copyKey tag k) 4)
  match (s.owner tag k grain).bind fun o => s.l1Word o tag k with
  | none => (base, s.memPoison (copyKey tag k))
  | some w =>
    let d := (List.range 4).foldl (fun (acc : Nat) i =>
      acc + (if w.dirty.getLsbD i then (w.data.extractLsb' (8 * i) 8).toNat else (base.extractLsb' (8 * i) 8).toNat) * 2 ^ (8 * i)) 0
    (BitVec.ofNat 32 d, if w.dirty = 0 then s.memPoison (copyKey tag k) else w.poison)

/-- A word of the home copy as a read of the hardware with acquire semantics gets it (R70, R79): what an owner has released is written back first,
and a word that it holds unreleased gives poison, whose data is zero (R105; DEDUCED, notes/assumptions/88.md). -/
def State.acquiredWord (s : State) (key : Nat) : Word :=
  match (s.owner 0 key (s.knownGrain 0 key)).bind fun o => s.l1Word o 0 key with
  | some w => if w.dirty ≠ 0 ∧ !w.rls then 0 else (s.currentWord 0 key (s.knownGrain 0 key)).1
  | none => (s.currentWord 0 key (s.knownGrain 0 key)).1

/-- The current bytes of a copy from a key up, and whether a word of them carries a memory-error mark. -/
def State.currentBytes (s : State) (tag key grain n : Nat) : List Byte × Bool :=
  ((List.range n).map fun i => ((s.currentWord tag (key + i) grain).1.extractLsb' (8 * ((key + i) % 4)) 8),
   (List.range n).any fun i => (s.currentWord tag (key + i) grain).2)

/-- What a read on behalf of an engine or of the hardware returns at a place (R120, R258, R307). DESIGN CHOICE (notes/assumptions/87.md): such a
read of a spilled version takes no way for its fetch-back (R123). -/
def State.engineRead (s : State) (part f : Nat) (l : Loc) (n : Nat) : List Byte × Bool :=
  let t := if l.vers then s.lookupTag part f (l.key / 32) else 0
  s.currentBytes t l.key l.grain n

/-! ### Creating versions -/

/-- Slices, sets and ways of the VAC (R76, R121, R124). -/
def vacSlice (key : Nat) : Nat :=
  (List.range 7).foldl (fun acc k => acc ^^^ (key % spaceSize / 2 ^ (7 * k + 7) % 128)) 0
def vacSet (key : Nat) : Nat := key % spaceSize / 2 ^ 14 % 1024

/-- Ways of a set under lease (R85). -/
def State.leasedWays (s : State) (key : Nat) : Nat :=
  s.leases.foldl (fun n l => n + (l.lines.filter fun k => vacSlice k == vacSlice key && vacSet k == vacSet key).length) 0

/-- A tag whose versions must not be lost: LIVE or COMMITTING, or an open interval's (R121, R124). -/
def State.keepsVersions (s : State) (t : Nat) : Bool :=
  (s.tagRec t).state == 1 || (s.tagRec t).state == 2 || s.parts.any fun p => p.openInterval == some t

/-- Versions of LIVE, COMMITTING or interval tags in a set that hold no overflow slot (R124). -/
def State.unslotted (s : State) (key : Nat) : List VerLine :=
  s.verLines.filter fun v => !v.slotted && s.keepsVersions v.tag && vacSlice v.line == vacSlice key && vacSet v.line == vacSet key

/-- The slots of a partition's overflow area (R122, R123). -/
def Partition.voaSlots (p : Partition) : Nat :=
  let sz := bits p.voaCtl.toNat 0 5
  if 26 ≤ sz ∧ sz ≤ 32 then 3 * 2 ^ (sz - 9) else 0

/-- The slots of a partition's overflow area that are in use: spilled versions, and the log of its .ORD epochs, of which the spec says that it lies
there and not how much of it an update takes: a free value (R123, R379; DESIGN CHOICE, notes/assumptions/37.md). -/
def State.slotsUsed (s : State) (part more : Nat) : Nat :=
  let n := (s.partn part).ordLines.foldl (fun n l => n + l.log.length) more
  (s.verLines.filter fun w => w.slotted && w.part == part).length + if n = 0 then 0 else Config.ordLogSlots n

/-- A way for a line that is not in its set (R124): none where every way not under lease holds a version without a slot and no victim finds a
slot in its own partition's area. -/
def State.roomIn (s : State) (line : Nat) : Option State :=
  let here := s.unslotted line
  if here.length + s.leasedWays line < 16 then some s
  else
    match here.find? fun v => s.slotsUsed v.part 0 < (s.partn v.part).voaSlots with
    | none => none
    | some v => some { s with verLines := mapIf (fun w => w == v) (fun w => { w with slotted := true }) s.verLines }

/-- A way for a version line under tag `t` that is written: a new version, or one that is fetched back from its slot (R123, R124); none when
VERSION_FULL applies. -/
def State.takeWay (s : State) (part t line : Nat) : Option State :=
  if (s.unslotted line).any fun v => v.tag == t && v.line == line then some s
  else
    let add (s : State) : State := { s with verLines := s.verLines ++ [{ tag := t, line := line, part := part, slotted := false }] }
    (s.roomIn line).map fun s => if s.verLines.any fun v => v.tag == t && v.line == line then s else add s

/-- A way for the line of a copy that is read at its home slice: a fill, or a version fetched back from its slot (R123, R124). A line that stands
there, as a version without a slot or under lease, needs none. -/
def State.readWay (s : State) (t line : Nat) : Option State :=
  if (s.unslotted line).any (fun v => v.tag == t && v.line == line) || (t == 0 && s.leases.any fun l => l.lines.contains line) then some s
  else s.roomIn line

/-- A way for a line that an engine writes (R124, R479): windows and uncached pages of host memory need none. -/
def State.engineWay (s : State) (part t : Nat) (l : Loc) : Option State :=
  if t ≠ 0 then s.takeWay part t (l.key / 128 * 128)
  else if 2 * spaceSize ≤ l.key ∨ (isHostKey l.key ∧ !l.cached) then some s else s.readWay 0 (l.key / 128 * 128)

/-- Create a tag's version of a sector where it has none (R118): a copy of what VersionLookup returns. -/
def State.createVersion (s : State) (part t : Nat) (l : Loc) : State :=
  let sector := l.key / 32
  if t = 0 ∨ !l.vers ∨ s.hasVersion sector t then s
  else
    let src := s.lookupTag part t sector
    let base := sector * 32
    let d := (s.currentBytes src base l.grain 32).1
    let marks := (List.range 8).filter fun i => (s.currentWord src (base + 4 * i) l.grain).2
    let s := s.setBytes (verKey t base) d
    let s := marks.foldl (fun s i => s.setMemPoison (verKey t base + 4 * i) true) s
    { s with vers := s.vers ++ [{ tag := t, sector := sector, mask := 0 }] }

/-- Mark bytes written in a tag's version (R118). -/
def State.markWritten (s : State) (t key n : Nat) : State :=
  if t = 0 then s
  else
    let add (r : VerRec) : VerRec := { r with mask := r.mask ||| ((1#32 <<< n) - 1#32) <<< (key % 32) }
    { s with vers := mapIf (fun r => r.tag == t && r.sector == key / 32) add s.vers }

/-! ### Stores and loads of one piece -/

/-- A write at the home slice to the copy of tag `t`. The registrant's words are written back first (R78, R86). -/
def State.homeWriteAs (s : State) (part t : Nat) (l : Loc) (d : List Byte) : State :=
  let s := s.createVersion part t l
  let s := (s.recallBlock t l.key l.grain).touchLine t l.key
  let s := (s.setBytes (copyKey t l.key) d).markWritten t l.key d.length
  (s.clearMarks (copyKey t l.key) d.length).dropClean t l.key

/-- A write at the home copy: sites, uncached pages, engines, the host. `f` is the tag of the access. -/
def State.homeWrite (s : State) (part f : Nat) (l : Loc) (d : List Byte) : State :=
  s.homeWriteAs part (if l.vers then s.writeTag part f else 0) l d

/-- A read at the home copy, the registrant's words first written back. -/
def State.homeRead (s : State) (part f : Nat) (l : Loc) (n : Nat) : List Byte × Bool × State :=
  let t := if l.vers then s.lookupTag part f (l.key / 32) else 0
  let s := s.recallBlock t l.key l.grain
  (s.bytes (copyKey t l.key) n, s.memPoison (copyKey t l.key), s)

/-- A store into the L1 of a core (R77, R78): the word becomes DIRTY and its RLS clears; the registration goes to the
home registry, and the fibre's releases wait for it. -/
def State.cachedStore (s : State) (uid part core f : Nat) (l : Loc) (d : List Byte) : State :=
  let t := if l.vers then s.writeTag part f else 0
  let s := (s.createVersion part t l).markWritten t l.key d.length
  let key := l.key / 4 * 4
  let o := l.key % 4
  let old : L1Word := (s.l1Word core t key).getD
    { core := core, tag := t, key := key, data := 0, valid := 0, dirty := 0, rls := false, poison := false, foreign := false, grain := l.grain }
  let m : BitVec 4 := ((1#4 <<< d.length) - 1#4) <<< o
  let data := (List.range 4).foldl (fun (acc : Nat) i =>
      acc + (if m.getLsbD i then (d.getD (i - o) 0).toNat else (old.data.extractLsb' (8 * i) 8).toNat) * 2 ^ (8 * i)) 0
  let w := { old with data := BitVec.ofNat 32 data, valid := old.valid ||| m, dirty := old.dirty ||| m, rls := false
                      poison := old.poison, grain := l.grain }
  let s := s.setL1 w
  let b := blockOf key l.grain
  if s.owner t key l.grain = some core then s
  else
    let s := if s.agenda.contains (.registrationRequest core t b) then s else s.post (.registrationRequest core t b)
    s.updFibre uid fun x => { x with unacked := if x.unacked.contains (core, t, b) then x.unacked else x.unacked ++ [(core, t, b)] }

/-- A load of one piece of at most four bytes that hits the core's L1 (R77): the bytes and the poison. An acquire at CLUSTER scope or wider
takes only what the core itself has written: a clean word may be older than a write that R102 orders before the acquire. -/
def State.l1Hit (s : State) (part core f : Nat) (l : Loc) (n : Nat) (wide : Bool) : Option (List Byte × Bool) :=
  if !l.cached then none
  else
    let t := (s.readCopy part f l).1
    match s.l1Word core t l.key with
    | none => none
    | some w =>
      let m : BitVec 4 := ((1#4 <<< n) - 1#4) <<< (l.key % 4)
      if (if wide then w.dirty else w.valid) &&& m = m then
        some ((List.range n).map (fun i => w.data.extractLsb' (8 * (l.key % 4 + i)) 8), w.poison)
      else none

/-- The word of an L1 miss as the home slice answers it (R79). `acq` marks an acquire, `open_` a requester that never
receives poison for a race: a replicated fibre of the owner's pipeline (R368) or an engine. The bytes the owner holds dirty lie
over the home copy. -/
def State.serveWord (s : State) (core tag key grain : Nat) (acq open_ : Bool) : Word × Bool × State :=
  let k := key / 4 * 4
  match s.owner tag k grain with
  | none => (BitVec.ofNat 32 (s.readNat (copyKey tag k) 4), s.memPoison (copyKey tag k), s)
  | some o =>
    let released := match s.l1Word o tag k with | some w => w.rls | none => false
    let s := if acq || released then s.promote o else s
    match s.l1Word o tag k with
    | some w =>
      if w.dirty ≠ 0 ∧ o ≠ core ∧ !open_ then (0, true, s)
      else
        let (d, p) := s.currentWord tag k grain
        (d, p, s)
    | none => (BitVec.ofNat 32 (s.readNat (copyKey tag k) 4), s.memPoison (copyKey tag k), s)

/-- Install the words of a sector that is filled for a core, but for bytes the core itself holds dirty (R77, R79); a word that another core holds
dirty leaves no older copy of it beside the words that are installed (R106). -/
def State.fillSector (s : State) (core tag key grain : Nat) : State :=
  (List.range 8).foldl (fun s i =>
    let k := key / 32 * 32 + 4 * i
    let foreignDirty := match (s.owner tag k grain).bind fun o => if o = core then none else s.l1Word o tag k with
      | some w => w.dirty != 0
      | none => false
    if foreignDirty then s.dropWord core tag k
    else
      let base := s.readNat (copyKey tag k) 4
      match s.l1Word core tag k with
      | none => s.setL1 { core := core, tag := tag, key := k, data := BitVec.ofNat 32 base, valid := 15, dirty := 0, rls := false
                          poison := s.memPoison (copyKey tag k), foreign := false, grain := grain }
      | some w =>
        let d := (List.range 4).foldl (fun (acc : Nat) j =>
          acc + (if w.dirty.getLsbD j then (w.data.extractLsb' (8 * j) 8).toNat else base / 2 ^ (8 * j) % 256) * 2 ^ (8 * j)) 0
        s.setL1 { w with data := BitVec.ofNat 32 d, valid := 15 }) s

/-! ### Sets of an L1 (R77, R82) -/

/-- The set of an L1 in which a line lies. DESIGN CHOICE (notes/assumptions/73.md): R77 gives 512 sets and no index. -/
def l1Set (key : Nat) : Nat := key / 128 % 512

/-- The lines that a core's L1 holds in a set: (tag, first byte). -/
def State.l1Lines (s : State) (core set : Nat) : List (Nat × Nat) :=
  s.l1.foldl (fun ls w =>
    let x := (w.tag, w.key / 128 * 128)
    if w.core == core && l1Set w.key == set && !ls.contains x then ls ++ [x] else ls) []

/-- A victim line of an L1 moves sideways to the L1 of core `dest` of its cluster where every dirty word of it is released, it is not foreign, and
the set there has an invalid way; else its dirty words are written back (R82). The line carries its data: a clean word that is no longer current, or
that the other L1 holds already, stays behind (R103). The registry records the new owner; dirty words of a moved block in other lines are written
back, as an entry has one owner (notes/assumptions/73.md). -/
def State.evictLine (s : State) (core tag line dest : Nat) : State :=
  let mine (w : L1Word) : Bool := w.core == core && w.tag == tag && w.key / 128 == line / 128
  let dirty := s.l1.filter fun w => mine w && w.dirty != 0
  if !dirty.isEmpty && dirty.all (fun w => w.rls && !w.foreign) && dest != core && dest / 4 == core / 4 && decide ((s.l1Lines dest (l1Set line)).length < 16) then
    let blocks := dirty.foldl (fun bs w => addOnce bs (blockOf w.key w.grain)) []
    let s := s.writeBack fun w => w.core == core && w.tag == tag && w.key / 128 != line / 128 && blocks.contains (blockOf w.key w.grain)
    let held := s.l1.any fun w => w.core == dest && w.tag == tag && w.key / 128 == line / 128
    let moves (w : L1Word) : Bool := mine w &&
      (w.dirty != 0 || (!held && w.valid == 15 && s.currentWord tag w.key w.grain == (w.data, w.poison)))
    let stays (w : L1Word) : Bool := !mine w && !(w.core == dest && w.tag == tag && dirty.any fun d => d.key == w.key)
    { s with
      l1 := s.l1.filter stays ++ (s.l1.filter moves).map fun w => { w with core := dest, foreign := w.dirty != 0 }
      registry := mapIf (fun r => r.tag == tag && r.owner == core && blocks.contains r.block) (fun r => { r with owner := dest }) s.registry }
  else
    let s := (s.writeBack mine).dropRegs core
    { s with l1 := s.l1.filter fun w => !mine w }

/-- Every store of a fibre has been acknowledged by its registry (R80). -/
def Fibre.acked (f : Fibre) : Bool := f.unacked.isEmpty

/-- A load of the fibre has not returned. -/
def State.loadsOut (s : State) (uid : Nat) : Bool := s.loads.any fun r => r.us.contains uid && !r.cancelled

end Sys2Proof.Machine
end

