-- ==== Sys2Proof/Machine/Ops.lean ====
section
/-! DEFINITION. The shared operations of the machine: error records and logs (R435 to R440), host events (R395, R396),
their delivery (R441), taking a trap (R202, R445, R446) and returning from one (R203), advancing past an instruction
(R152, R174, R187), release and acquire (R80, R81, R94). -/

namespace Sys2Proof.Machine

/-! ### Causes (R438) -/

def cIllegal : Nat := 0x0001
def cPriv : Nat := 0x0002
def cMisalign : Nat := 0x0003
def cWindowCross : Nat := 0x0004
def cPageAbsent : Nat := 0x0005
def cPagePerm : Nat := 0x0006
def cVaultDark : Nat := 0x0007
def cPoisonUse : Nat := 0x0008
def cArith : Nat := 0x0009
def cStallShort : Nat := 0x000A
def cCopyRight : Nat := 0x000B
def cMultiDest : Nat := 0x000C
def cFutureIrrev : Nat := 0x000D
def cFutureLimit : Nat := 0x000E
def cVersionFull : Nat := 0x000F
def cQueueClosed : Nat := 0x0010
def cGenRetired : Nat := 0x0011
def cSlotOverrun : Nat := 0x0012
def cTrap : Nat := 0x0020
def cSyscall : Nat := 0x0021
def cBkpt : Nat := 0x0022
def cBarrierTimeout : Nat := 0x0040
def cConvergeTimeout : Nat := 0x0041
def cReplMismatch : Nat := 0x0042
def cBuildMem : Nat := 0x0043
def cBuildDegen : Nat := 0x0044
def cPreemptForced : Nat := 0x0045
def cSaveFault : Nat := 0x0046

/-- The class of a cause (R438). -/
def causeClass (c : Nat) : Nat :=
  if c = cArith then 3
  else if c = cBarrierTimeout ∨ c = cConvergeTimeout then 4
  else if c = cPreemptForced then 0
  else if c = cSaveFault ∨ c = 0x0180 then 5
  else if c = 0x01C0 ∨ c = 0x01C1 then 6
  else if c = 0x0101 ∨ c = 0x0105 ∨ c = 0x0107 then 1
  else if 0x0100 ≤ c ∧ c ≤ 0x010A then 0
  else 2

/-! ### Records (R435) -/

/-- The content of a record, but for SEQ. -/
structure Rec where
  cause : Nat
  addr : Nat := 0
  detail : Nat := 0
  detail2 : Nat := 0
  pc : Nat := 0
  pipe : Nat := 0
  fid : Nat := 0
  rung : Nat := 0
  prec : Bool := false
  rpl : Bool := false
  repl : Nat := 0
  tag : Nat := 0
  pcore : Nat := 0
  lcore : Option Nat := none
  part : Option Nat := none
  /-- The 48-byte captures of the continuation records (R436). -/
  cont : List Nat := []
  deriving DecidableEq, Repr

/-- Bits 127:0 of a record; `ext` is the EXT field. -/
def Rec.low (r : Rec) (cause cls ext : Nat) : Nat :=
  cause % 2 ^ 16 + cls % 8 * 2 ^ 16 + (if r.part.isNone then 1 else 0) * 2 ^ 19 + r.part.getD 0 % 16 * 2 ^ 20 +
  r.lcore.getD 0 % 128 * 2 ^ 24 + (if r.lcore.isSome then 1 else 0) * 2 ^ 31 + r.pcore % 128 * 2 ^ 32 + r.tag % 128 * 2 ^ 40 +
  r.repl % 4 * 2 ^ 48 + (if r.rpl then 1 else 0) * 2 ^ 50 + (if r.prec then 1 else 0) * 2 ^ 51 + ext % 16 * 2 ^ 52 +
  r.rung % 256 * 2 ^ 56 + r.fid % 2 ^ 32 * 2 ^ 64 + r.pipe % 2 ^ 32 * 2 ^ 96

/-- The 64 bytes of a record with its sequence number (R435). -/
def Rec.bits (r : Rec) (clock seq : Nat) : Nat :=
  r.low r.cause (causeClass r.cause) r.cont.length + clock % 2 ^ 64 * 2 ^ 128 + r.pc % 2 ^ 64 * 2 ^ 192 + r.addr % 2 ^ 64 * 2 ^ 256 +
  r.detail % 2 ^ 64 * 2 ^ 320 + r.detail2 % 2 ^ 64 * 2 ^ 384 + seq % 2 ^ 32 * 2 ^ 448

/-- The record and its continuations, as numbers of 512 bits (R436). -/
def Rec.all (r : Rec) (clock seq : Nat) : List Nat :=
  r.bits clock seq :: (r.cont.zip (List.range r.cont.length)).map fun (c, i) => r.low 0xFFFF 7 (i + 1) + c % 2 ^ 384 * 2 ^ 128

/-- A write of the hardware on its own behalf to device memory, at the home copy (R117). -/
def State.devWrite (s : State) (pa : Nat) (d : List Byte) : State :=
  (List.range ((d.length + 31) / 32)).foldl (fun s i =>
    let k := devKey (pa + 32 * i)
    s.homeWrite 0 0 { key := k, vers := false, cached := true, grain := s.knownGrain 0 k } ((d.drop (32 * i)).take 32)) s

/-- A write of the hardware to host memory. -/
def State.hostWrite (s : State) (pa : Nat) (d : List Byte) : State :=
  (List.range ((d.length + 31) / 32)).foldl (fun s i =>
    let k := hostKey (pa + 32 * i)
    s.homeWrite 0 0 { key := k, vers := false, cached := true, grain := s.knownGrain 0 k } ((d.drop (32 * i)).take 32)) s

/-- A read of the hardware on its own behalf of device memory, at the home copy (R117). -/
def State.devRead (s : State) (pa n : Nat) : List Byte :=
  (List.range n).map fun i =>
    let k := devKey (pa + i)
    (s.currentWord 0 k (s.knownGrain 0 k)).1.extractLsb' (8 * (k % 4)) 8

/-- LOG2N of a partition log, where it enables the log (R437). -/
def Partition.logSize? (p : Partition) : Option Nat :=
  let n := bits p.errlog.toNat 0 4
  if 6 ≤ n ∧ n ≤ 14 then some n else none

/-- BASE of a partition log (R437). -/
def Partition.logBase (p : Partition) : Nat := bits p.errlog.toNat 16 36 * 2 ^ 16

/-- The GDDR 7 controller of a device address (R76). -/
def gddrController (pa : Nat) : Nat := bits pa 8 4 ^^^ bits pa 12 4 ^^^ bits pa 16 4

/-- Write one 64-byte record into the partition log, without advancing HEAD (R437). -/
def State.logPut (s : State) (p seq rec : Nat) : State :=
  match (s.partn p).logSize? with
  | none => s
  | some n => s.devWrite ((s.partn p).logBase + 64 * (1 + seq % 2 ^ n)) (leBytes 64 rec)

/-- Write records into the partition log and then advance HEAD past all of them (R436, R437). -/
def State.partLog (s : State) (p : Nat) (r : Rec) : State :=
  let h := (s.partn p).logHead
  let rs := r.all s.clock h
  if (s.partn p).logSize?.isNone then s
  else
    let s := (rs.zip (List.range rs.length)).foldl (fun s (x, i) => s.logPut p (h + i) x) s
    let s := s.updPart p fun q => { q with logHead := h + rs.length }
    s.devWrite (s.partn p).logBase (leBytes 8 (h + rs.length))

/-- Write records into the device log: a ring of 4,096 (R437). -/
def State.devLog (s : State) (r : Rec) : State :=
  let rs := r.all s.clock s.dlogHead
  let put := (rs.zip (List.range rs.length)).map fun (x, i) => (s.dlogHead + i, BitVec.ofNat 512 x)
  let h := s.dlogHead + rs.length
  { s with dlog := (s.dlog ++ put).filter (fun (k, _) => h ≤ k + 4096), dlogHead := h }

/-- The error that the next write of a record to a partition's log meets: it lies in GDDR 7 (R437). -/
def State.logError (s : State) (p : Nat) : Option Bool :=
  if (s.partn p).logSize?.isNone then none
  else s.errors.findSome? fun x => match x.1 with | .logWrite q g => if q = p then some g else none | _ => none

/-- A record that a partition owns stands in both logs. Where its write to the partition log meets an uncorrectable error, the write is skipped,
HEAD advances all the same, and a second record names the log's address (R437). -/
def State.logBoth (s : State) (p : Nat) (r : Rec) : State :=
  match s.logError p with
  | none => (s.partLog p r).devLog r
  | some g =>
    let q := s.partn p
    let a := q.logBase + 64 * (1 + q.logHead % 2 ^ q.logSize?.getD 0)
    let second : Rec :=
      { cause := if g then 0x0105 else 0x0101, addr := a, detail := if g then gddrController a else 2 * 2 ^ 8, part := some p, pcore := vacSlice (devKey a) }
    let s := { s with errors := s.errors.filter fun x => x.1 != MemError.logWrite p g }
    let h := q.logHead + (r.all s.clock 0).length
    let s := ((s.updPart p fun q => { q with logHead := h }).devWrite q.logBase (leBytes 8 h)).devLog r
    (s.partLog p second).devLog second

/-- Write a record to the logs in which it stands (R434, R437, R465). -/
def State.log (s : State) (r : Rec) : State := match r.part with | some p => s.logBoth p r | none => s.devLog r

/-- One millisecond of CLOCK (R424, R440). -/
def clocksPerMs : Nat := 1800000

/-- The corrected causes whose DETAIL2 counts occurrences (R440, R473). -/
def countsOccurrences (c : Nat) : Bool := [0x0100, 0x0102, 0x0103, 0x0104, 0x0106].contains c

/-- Write a record to the device log and, where a partition owns it, to that partition's log (R434, R437); a corrected
record merges into an earlier one (R440). -/
def State.report (s : State) (r : Rec) : State :=
  if causeClass r.cause ≠ 0 then
    s.log r
  else
    match s.merged.find? fun m => m.cause == r.cause && m.addr == r.addr && m.pcore == r.pcore && s.clock ≤ m.clock + clocksPerMs with
    | some m =>
      if !countsOccurrences r.cause then s
      else
        let n := min (m.count + 1) (2 ^ 32 - 1)
        let s := { s with merged := mapIf (fun x => x == m) (fun x => { x with count := n }) s.merged }
        let fix (b : BitVec 512) : BitVec 512 :=
          BitVec.ofNat 512 (b.toNat / 2 ^ 416 * 2 ^ 416 + n * 2 ^ 384 + b.toNat % 2 ^ 384)
        let s := { s with dlog := mapIf (fun x => x.1 == m.dseq) (fun x => (x.1, fix x.2)) s.dlog }
        match m.part with
        | none => s
        | some p =>
          match (s.partn p).logSize? with
          | none => s
          | some k =>
            if (s.partn p).logHead ≤ m.pseq + 2 ^ k then
              s.devWrite ((s.partn p).logBase + 64 * (1 + m.pseq % 2 ^ k) + 48) (leBytes 4 n)
            else s
    | none =>
      let r := if countsOccurrences r.cause then { r with detail2 := 1 } else r
      let m : MergeRec := { cause := r.cause, addr := r.addr, pcore := r.pcore, clock := s.clock, part := r.part
                            pseq := (r.part.map fun p => (s.partn p).logHead).getD 0, dseq := s.dlogHead, count := 1 }
      let s := s.log r
      { s with merged := s.merged.filter (fun x => s.clock ≤ x.clock + clocksPerMs) ++ [m] }

/-! ### Host events (R395, R396) -/

/-- The sequence number of the next event of a partition. -/
def Partition.nextEvent (q : Partition) : Nat := q.hostCount + (q.hostEvents.filter fun e => !e.written).length + 1

/-- Raise a request to the host; it stands in the ring once a slot is free. -/
def State.raiseHost (s : State) (p kind addr len acc arg : Nat) (uid : Option Nat) (pipe : Nat) : State :=
  let e : HostEvent := { seq := (s.partn p).nextEvent, kind := kind, addr := addr, len := len, acc := acc, arg := arg, clock := s.clock
                         due := none, uid := uid, pipe := pipe, written := false }
  (s.updPart p fun q => { q with hostEvents := q.hostEvents ++ [e] }).post (.hostEventPost p)

/-- The 64 bytes of an event record (R396). -/
def HostEvent.record (e : HostEvent) (part : Nat) : List Byte :=
  leBytes 64 (e.kind + part * 2 ^ 8 + e.seq % 2 ^ 48 * 2 ^ 16 + e.addr % 2 ^ 64 * 2 ^ 64 + e.len % 2 ^ 32 * 2 ^ 128 +
    e.acc % 256 * 2 ^ 160 + e.clock % 2 ^ 64 * 2 ^ 192 + e.arg % 2 ^ 64 * 2 ^ 256)

/-! ### Fibre bookkeeping -/

/-- Make a waiting fibre RUNNABLE so that it issues its instruction again. -/
def Fibre.retry (f : Fibre) : Fibre :=
  if f.st = .ended then f else { f with st := .runnable, wait := .none }

/-- Put a fibre into a waiting state. -/
def Fibre.waits (f : Fibre) (st : FState) (w : Wait) : Fibre := { f with st := st, wait := w }

/-- The PC after an instruction of `len` bytes, or the next repeat of a live REP (R152, R187). -/
def Fibre.advancePc (f : Fibre) (len : Nat) : Fibre :=
  let f := { f with agreed := false, served := false, pageFail := none }
  if f.repLive then
    if 1 < f.repcnt then { f with repcnt := f.repcnt - 1 }
    else { f with repcnt := 0, repLive := false, pc := f.pc + BitVec.ofNat 64 (4 + f.repLen) }
  else { f with pc := f.pc + BitVec.ofNat 64 len }

/-- A fibre that waited continues after its instruction. -/
def Fibre.continues (f : Fibre) : Fibre :=
  if f.st = .ended then f else { f.advancePc f.ilen with st := .runnable, wait := .none }

/-- What an issue does to a fibre's clock state: the stall count runs till the clock `ready` (R30), and the distance of every pending writer grows
(R174). -/
def Fibre.issued (f : Fibre) (clock ready stall : Nat) : Fibre :=
  { f with readyAt := ready, lastIssue := clock
           sb := (f.sb.filter fun x => clock < x.done).map fun x => { x with dist := x.dist + stall + 1 } }

/-! ### Delivery of records (R441) -/

/-- The partition's error wake: it ends the SLEEP of every sleeping supervisor fibre, or is held (R441). -/
def State.wakeSupervisor (s : State) (p : Nat) : State :=
  let sleeps (f : Fibre) : Bool := f.part == p && f.st == .sleeping && (s.pipeOf f).supervisor
  if s.fibres.any sleeps then { s with fibres := mapIf sleeps Fibre.continues s.fibres }
  else s.updPart p fun q => { q with errorWake := true }

/-- Deliver a record of class fault, trap or pipeline-fatal that a fibre of pipeline `pipe` raised (R441). `uid` names a held
fibre. -/
def State.deliver (s : State) (p pipe : Nat) (seq : Nat) (uid : Option Nat) : State :=
  if (s.pipe p pipe).supervisor then
    match uid with
    | some _ => s.raiseHost p 4 0 0 0 seq uid pipe
    | none => s.wakeSupervisor p
  else if (s.partn p).mode.getLsbD 3 then s.raiseHost p 4 0 0 0 seq none pipe
  else s.wakeSupervisor p

/-! ### Taking a trap -/

/-- A trap as an instruction raises it: cause, ADDR, DETAIL, DETAIL2 (R438, R511). -/
structure Trap where
  cause : Nat
  addr : Nat := 0
  detail : Nat := 0
  detail2 : Nat := 0
  deriving DecidableEq, Repr

/-- The record of a precise trap: the wave is named by its lowest active lane (R435, R445). -/
def State.trapRec (s : State) (f : Fibre) (t : Trap) : Rec :=
  { cause := t.cause, addr := t.addr, detail := t.detail, detail2 := t.detail2, pc := f.pc.toNat, pipe := f.pipe, fid := f.fid
    rung := 7, prec := true, rpl := (s.pipeOf f).repl != 0, repl := f.repl, tag := s.writeTag f.part f.tag
    pcore := s.coreOf f, lcore := some f.lcore, part := some f.part }

/-- Hold a fibre at its instruction (R202, R320): its PC stays, and a REP issues again on return (R187). -/
def Fibre.holdAt (f : Fibre) (cause : Nat) (answer len : Option Nat) (dbg : Bool) : Fibre :=
  { f with st := if f.boundRay.isSome then .parkedHit else .waitMemory, wait := .held
           hold := some { cause := cause, answer := answer, len := len.map fun l => if f.repLive then 4 + f.repLen else l, debugger := dbg }
           repLive := false, agreed := false, sb := [], pageFail := none }

/-- A record of held fibres awaits an answer (R442); they await none for an earlier record. -/
def State.await (s : State) (f : Fibre) (held : List Nat) (seq cause : Nat) (due : Option Nat) : State :=
  s.updPart f.part fun q =>
    let old := (q.awaited.map fun (a : Awaited) => { a with held := a.held.filter fun u => !held.contains u }).filter fun a => !a.held.isEmpty
    { q with awaited := old ++ [{ seq := seq, pipe := f.pipe, cause := cause, uid := f.uid, held := held, due := due }] }

/-- Take a precise trap: every fibre of `held` is held at the instruction, the record is written with the lead fibre's
name, and it is delivered (R202, R435, R441, R445). `len` is the instruction's length where it is known (R448). -/
def State.trap (s : State) (lead : Nat) (held : List Nat) (t : Trap) (answer len : Option Nat) : State :=
  let f := s.fibre lead
  let seq := (s.partn f.part).logHead
  let s := s.report (s.trapRec f t)
  let s := { s with fibres := mapIf (fun x => held.contains x.uid) (fun x => x.holdAt t.cause answer len false) s.fibres }
  let s := s.await f held seq t.cause none
  s.deliver f.part f.pipe seq (some lead)

/-! ### Returning from a trap (R203, R448) -/

/-- Resume a held fibre: mode 0 RETRY, 1 SKIP, by LEN of the first word (R448), of a REP word too, whose own trap it so passes (R203; DESIGN CHOICE,
notes/assumptions/81.md); `value` is the answer to SYSCALL. END is the fibre's end and is given
beside FEND. -/
def Fibre.resume (f : Fibre) (mode : Nat) (value : Word) : Fibre :=
  match f.hold with
  | none => f
  | some h =>
    let f := { f with st := .runnable, wait := .none, hold := none }
    match mode, h.len with
    | 1, some l =>
      let f := { f with pc := f.pc + BitVec.ofNat 64 l, repcnt := 0 }
      match h.answer with
      | some r => f.setV r ⟨value, false⟩
      | none => f
    | _, _ => f

/-! ### Release and acquire -/

/-- A scope is performed as CORE or narrower (R94): WAVE, CORE, and GROUP when the group lies on one core. -/
def State.coreScope (s : State) (f : Fibre) (scope : Nat) : Bool :=
  match scope with
  | 0 => true
  | 1 => (s.group f.groupId).members.all fun m => (s.fibre m.2).onCore == f.onCore
  | 2 => true
  | _ => false

/-- The acquire side of a synchronisation at a scope (R81). -/
def State.acquire (s : State) (f : Fibre) (scope : Nat) : State :=
  if s.coreScope f scope then s else s.selfInval (s.coreOf f)

/-- The release side: RLS on every dirty word of the core's L1 (R80). The wait for acknowledgements comes before. -/
def State.release (s : State) (f : Fibre) : State := s.setRls (s.coreOf f)

/-- A fibre's earlier stores and atomics have been acknowledged, those to peers included at SYSTEM scope (R80, R110). -/
def Fibre.releaseReady (f : Fibre) (scope : Nat) : Bool := f.acked && (scope != 7 || f.peerUnacked == 0)

end Sys2Proof.Machine
end

