-- ==== Sys2Proof/Machine/Access.lean ====
section
/-! DEFINITION. How an access reaches its bytes: windows (R62 to R66), the page table and the TLBs (R68 to R72), absent
pages (R73, R458), the page and site checks of R241, vault slabs (R427, R428), host lines (R431). -/

namespace Sys2Proof.Machine

/-- Why an instruction does not take effect now. -/
inductive Stop where
  /-- A precise trap. -/
  | trap (t : Trap)
  /-- The fibres wait and the instruction issues again. -/
  | wait (st : FState) (w : Wait)
  /-- An absent page is serviced; the fibres wait (R73). -/
  | service (va acc : Nat)
  /-- A vault slab in RETENTION is woken; the fibres wait (R428). -/
  | wake (core slab : Nat)
  /-- A host line is asked for; the fibres wait (R431). -/
  | hostLine (line : Nat) (own : Bool)
  /-- The machine stops. -/
  | fault (f : Fault)
  deriving DecidableEq, Repr

/-! ### Windows -/

/-- The window of an address, coded as WIN: 1 global, 2 scratchpad, 3 vault, 4 private (R62, R163). -/
def windowOf (a : Nat) : Nat :=
  if a / 2 ^ 32 = 0xFC000000 then 4
  else if a / 2 ^ 20 = 0xFD000000000 then 2
  else if a / 2 ^ 27 = 0x1FC0000000 then 3
  else 1

/-- The size of a window (R62). -/
def windowSize (w : Nat) : Nat :=
  if w = 4 then 2 ^ 32 else if w = 2 then 2 ^ 20 else if w = 3 then 2 ^ 27 else 2 ^ 64

/-- DecodeWindow (R63): the window and the offset of an access of `n` bytes. -/
def decodeWindow (ea n form : Nat) : Except Trap (Nat × Nat) :=
  let cross (w : Nat) : Except Trap (Nat × Nat) := .error { cause := cWindowCross, addr := ea, detail := w }
  let canon (w o : Nat) : Except Trap (Nat × Nat) :=
    if w = 1 ∧ ea / 2 ^ 57 % 128 ≠ 0 then .error { cause := cPageAbsent, addr := ea } else .ok (w, o)
  if form ≠ 0 then
    if form ≠ 1 ∧ ea + n > windowSize form then cross form else canon form ea
  else
    let w := windowOf ea
    if ea + n > 2 ^ 64 ∨ windowOf (ea + (n - 1)) ≠ w then cross w
    else canon w (if w = 1 then ea else ea % windowSize w)

/-! ### Page entries (R69) -/

/-- A page entry. -/
structure Pte where
  pfn : Nat
  host : Bool
  hostBacked : Bool
  cached : Bool
  vers : Bool
  grain : Nat
  x : Bool
  w : Bool
  r : Bool
  asid : Nat
  vpn : Nat
  sz : Nat
  deriving DecidableEq, Repr

/-- Bits of a page by SZ (R69). -/
def pageBits (sz : Nat) : Nat := if sz = 0 then 12 else if sz = 1 then 16 else 21

/-- V, TOMB of an entry. -/
def pteV (e : Nat) : Bool := e % 2 == 1
def pteTomb (e : Nat) : Bool := bits e 3 1 == 1

/-- WellFormed(e) (R70). -/
def pteWf (e : Nat) : Bool :=
  let sz := bits e 1 2
  bits e 116 12 == 0 && bits e 75 1 == 0 && bits e 71 2 < 2 && bits e 68 2 < 3 && bits e 64 1 == 0 && bits e 4 8 == 0 && sz < 3 &&
  bits e 76 40 * 4096 % 2 ^ pageBits sz == 0 && bits e 12 45 * 4096 % 2 ^ pageBits sz == 0

/-- The fields of an entry. -/
def pteOf (e : Nat) : Pte :=
  { pfn := bits e 76 40, host := bits e 74 1 == 1, hostBacked := bits e 73 1 == 1, cached := bits e 71 2 == 0
    vers := bits e 70 1 == 1, grain := bits e 68 2, x := bits e 67 1 == 1, w := bits e 66 1 == 1, r := bits e 65 1 == 1
    asid := bits e 57 7, vpn := bits e 12 45, sz := bits e 1 2 }

/-- Matches(a, e) (R70). -/
def pteMatches (a : Nat) (p : Pte) : Bool := a % 2 ^ 57 / 2 ^ pageBits p.sz == p.vpn * 4096 / 2 ^ pageBits p.sz

/-- The place of a byte of a page. -/
def Pte.loc (p : Pte) (va : Nat) : Loc :=
  let pa := p.pfn * 4096 + va % 2 ^ pageBits p.sz
  { key := if p.host then hostKey pa else devKey pa, vers := p.vers, cached := p.cached, grain := p.grain }

/-! ### The walk (R70) -/

/-- LOG2B where it is valid (R68). -/
def Partition.ptLog? (p : Partition) : Option Nat :=
  let n := bits p.ptRoot.toNat 8 5
  if 10 ≤ n ∧ n ≤ 24 then some n else none
/-- BASE of the page table (R68). -/
def Partition.ptBase (p : Partition) : Nat := bits p.ptRoot.toNat 16 36 * 2 ^ 16
/-- The ASID of a partition (R68). -/
def Partition.asid (p : Partition) : Nat := bits p.ptRoot.toNat 0 7

/-- The bucket number at which the probe of an address starts (R70). -/
def ptHash (va asid log : Nat) : Nat :=
  let key := va % 2 ^ 57 / 2 ^ 21 ^^^ asid * 2 ^ 29
  (key ^^^ key / 2 ^ log ^^^ key / 2 ^ (2 * log)) % 2 ^ log

/-- The device address of bucket `k` of a probe sequence. -/
def Partition.bucketAt (p : Partition) (log h k : Nat) : Nat := p.ptBase + 128 * ((h + k) % 2 ^ log)

/-- The eight entries of a bucket, read with acquire semantics (R70). -/
def State.bucket (s : State) (p : Partition) (log h k : Nat) : List Nat :=
  (List.range 8).map fun e => ofLeBytes ((List.range 4).flatMap fun i =>
    leBytes 4 (s.acquiredWord (devKey (p.bucketAt log h k + 16 * e + 4 * i))).toNat)

/-- A read of a bucket is uncorrectable (R458). -/
def State.bucketBad (s : State) (p : Partition) (log h k : Nat) : Bool :=
  let a := devKey (p.bucketAt log h k)
  s.poisoned.any fun x => decide (a ≤ 4 * x) && decide (4 * x < a + 128)

/-- The walk over the probe sequence from bucket `k`, `n` buckets left. -/
def State.walkFrom (s : State) (p : Partition) (log h va k : Nat) : Nat → Option Nat
  | 0 => none
  | n + 1 =>
    let b := s.bucket p log h k
    if s.bucketBad p log h k then none else
    match b.find? fun e => pteV e && pteWf e && bits e 57 7 == p.asid && pteMatches va (pteOf e) with
    | some e => some e
    | none => if b.any fun e => !pteV e && !pteTomb e then none else s.walkFrom p log h va (k + 1) n

/-- Translate by a walk (R70). -/
def State.walk (s : State) (part va : Nat) : Option Nat :=
  let p := s.partn part
  match p.ptLog? with
  | none => none
  | some log => s.walkFrom p log (ptHash va p.asid log) va 0 8

/-- A walk is an acquire of the buckets that it reads: the owners of their blocks write back what they have released (R70, R79). -/
def State.promoteWalk (s : State) (part va : Nat) : State :=
  let p := s.partn part
  match p.ptLog? with
  | none => s
  | some log =>
    let ls := (List.range 8).map fun k => devKey (p.bucketAt log (ptHash va p.asid log) k) / 128
    ((s.l1.filter fun w => w.tag == 0 && w.dirty != 0 && ls.contains (w.key / 128)).foldl (fun cs w => addOnce cs w.core) []).foldl State.promote s

/-- A cached translation: the micro-TLB of the core, then the TLB of its cluster (R71). -/
def State.cachedPte (s : State) (part core va : Nat) : Option Nat :=
  let hit (e : TlbEntry) : Bool := e.part == part && pteMatches va (pteOf e.entry.toNat)
  match s.tlb.find? fun e => !e.cluster && e.place == core && hit e with
  | some e => some e.entry.toNat
  | none => (s.tlb.find? fun e => e.cluster && e.place == core / 4 && hit e).map fun e => e.entry.toNat

/-- Put a translation into both TLBs (R71); the oldest entry makes room. -/
def State.fillTlb (s : State) (part core e : Nat) : State :=
  let b := BitVec.ofNat 128 e
  let put (l : List TlbEntry) (cl : Bool) (place cap : Nat) : List TlbEntry :=
    let mine (x : TlbEntry) : Bool := x.cluster == cl && x.place == place && x.part == part
    let same (x : TlbEntry) : Bool := mine x && (pteOf x.entry.toNat).vpn == (pteOf e).vpn && (pteOf x.entry.toNat).sz == (pteOf e).sz
    let l := l.filter fun x => !same x
    let l := if (l.filter mine).length < cap then l else l.eraseP mine
    l ++ [{ part := part, cluster := cl, place := place, entry := b }]
  { s with tlb := put (put s.tlb false core 64) true (core / 4) 4096 }

/-! ### Services of absent pages -/

/-- A region entry (R75): its bits, when valid. -/
def regionValid (r : Nat) : Bool :=
  bits r 64 32 != 0 && bits r 10 2 != 3 && bits r 8 2 != 3 && (bits r 0 2 == 1 || bits r 0 2 == 2)
/-- The range of a region holds an address. -/
def regionHolds (r va : Nat) : Bool :=
  let b := bits r 21 36 * 2 ^ 21
  b ≤ va && va < b + bits r 64 32 * 2 ^ 21
/-- The first valid region whose range holds an address (R75). -/
def Partition.region? (p : Partition) (va : Nat) : Option Nat :=
  (p.regions.map fun r => r.toNat).find? fun r => regionValid r && regionHolds r va
/-- The page that a service is for (R396). -/
def Partition.servicePage (p : Partition) (va : Nat) : Nat :=
  let b := pageBits (((p.region? va).map fun r => bits r 10 2).getD 0)
  va / 2 ^ b * 2 ^ b

/-- Ask the MMP for a page (R73, R74); requests for one page merge (R459). The region and the mode that decide the service are those of the fault's
moment (R75, R397). -/
def State.raiseService (s : State) (part va acc : Nat) (request : Bool) : State :=
  let s := s.promoteWalk part va
  let p := s.partn part
  let page := p.servicePage va
  if p.services.any fun x => x.va == page then s
  else if request && 256 ≤ (p.services.filter fun x => x.request).length then s
  else
    (s.updPart part fun q => { q with services := q.services ++
      [{ va := page, acc := acc, request := request, region := p.region? va, mode := p.mode, hostSeq := none, frame := none, failed := none, save := none }] }).post
      (.mmpFaultService part (BitVec.ofNat 64 page))

/-- What becomes of an access that meets an absent page (R73, R458): a service where one can be had, else PAGE_ABSENT. -/
def State.absentStop (s : State) (f : Fibre) (ea va acc : Nat) : Stop :=
  let p := s.partn f.part
  match f.pageFail with
  | some (page, reason) =>
    if page = p.servicePage va then .trap { cause := cPageAbsent, addr := ea, detail2 := reason } else .service va acc
  | none =>
    if p.ptLog?.isNone then .trap { cause := cPageAbsent, addr := ea, detail2 := 5 }
    else if p.mode.getLsbD 0 ∨ (p.region? va).isSome then .service va acc
    else .trap { cause := cPageAbsent, addr := ea, detail2 := 0 }

/-! ### What an access asks for -/

/-- An access of one fibre. `acc` has bit 0 read, bit 1 write, bit 2 fetch. -/
structure Acc where
  ea : Nat
  n : Nat
  form : Nat
  acc : Nat
  atomic : Bool := false
  irrev : Bool := false
  /-- Alignment asked, in bytes (R64 by default). -/
  align : Nat
  /-- Pieces whose pages are absent, which LDP leaves unchecked (R244). -/
  skip : List Nat := []
  /-- A load, whose miss of a host line is asked for when it is sent (R431). -/
  later : Bool := false
  deriving DecidableEq, Repr

/-- A piece of an access: at most four bytes at one place, and SZ of its page. -/
structure Piece where
  va : Nat
  n : Nat
  win : Nat
  loc : Loc
  sz : Nat
  deriving DecidableEq, Repr

/-- PAGE_PERM (R511). -/
def permTrap (ea perms reason : Nat) (outside : Bool) : Trap :=
  { cause := cPagePerm, addr := ea, detail := perms + (if outside then 8 else 0) + reason * 256 }

/-- Permissions of an entry that an access lacks; an atomic, which reads and writes, needs W alone (R69). -/
def Pte.missing (p : Pte) (acc : Nat) : Nat :=
  (if acc % 4 = 1 ∧ !p.r then 1 else 0) + (if acc / 2 % 2 = 1 ∧ !p.w then 2 else 0) + (if acc / 4 % 2 = 1 ∧ !p.x then 4 else 0)

/-- The translation of a global address for an access (R71, R72): the entry, and whether it is freshly walked. DEDUCED (notes/assumptions/74.md):
while LOG2B is invalid, every walk fails (R68), but an entry that a TLB holds stays in use (R71). -/
def State.translate (s : State) (f : Fibre) (ea va acc : Nat) : Except Stop (Nat × Bool) :=
  let fresh : Except Stop (Nat × Bool) :=
    match s.walk f.part va with
    | none => .error (s.absentStop f ea va acc)
    | some e =>
      if (pteOf e).missing acc ≠ 0 then .error (.trap (permTrap ea ((pteOf e).missing acc) 0 false)) else .ok (e, true)
  match s.cachedPte f.part f.onCore va with
  | none => fresh
  | some e =>
    if (pteOf e).missing acc = 0 then .ok (e, false)
    else
      match s.walk f.part va with
      | some e' => if (pteOf e').missing acc = 0 then .ok (e', true) else .error (.trap (permTrap ea ((pteOf e').missing acc) 0 false))
      | none => .error (.trap (permTrap ea ((pteOf e).missing acc) 0 false))

/-- Storage of a live pipeline's queues (R56). -/
def State.inQueueStorage (s : State) (part va : Nat) : Bool :=
  s.pipes.any fun p => p.part == part && p.runs && p.queues.any fun q => q.base ≤ va && va < q.base + 64 * q.depth
/-- The save area of a running partition (R408). -/
def State.inSaveArea (s : State) (part va : Nat) : Bool :=
  let p := s.partn part
  let b := bits p.saveCtl.toNat 21 36 * 2 ^ 21
  p.state == 2 && b != 0 && b ≤ va && va < b + 1280 * 2 ^ 20
/-- The arena of a structure (R338). -/
def State.inArena (s : State) (part va : Nat) : Bool :=
  s.structs.any fun c => c.live && c.part == part && c.arena ≤ va && va < c.arena + c.size

/-- The state of a slab (R427, R428): 0 ON, 1 RETENTION, 2 OFF. -/
def Partition.slab (p : Partition) (core k : Nat) : Nat := ((nth 0 p.vltPwr core).extractLsb' (2 * k) 2).toNat

/-- Host lines as the home slice holds them (R431): the line serves the access, or a request goes out. -/
def State.hostLineStop (s : State) (key : Nat) (write : Bool) : Option Stop :=
  if !isHostKey key ∨ Config.peerLine (key / 128) then none
  else
    match s.hostLines.find? fun h => h.line == key / 128 with
    | some h => if h.mesi = 0 ∨ (write ∧ h.mesi = 1) then some (.hostLine (key / 128) write) else none
    | none => some (.hostLine (key / 128) write)

/-- The results of checks, or the first failure among them. -/
def allOk {α : Type} : List (Except Stop α) → Except Stop (List α)
  | [] => .ok []
  | .error e :: _ => .error e
  | .ok x :: r =>
    match allOk r with
    | .error e => .error e
    | .ok xs => .ok (x :: xs)

/-- A piece in a scratchpad or vault window, where the partition has the core (R66; R241, step 4), with the logical core and the slab of a vault. -/
def State.windowPiece (s : State) (f : Fibre) (a : Acc) (win o va n : Nat) : Except Stop (Piece × Option (Nat × Nat)) :=
  let lc := s.replCore f (if win = 2 then 4 * (f.lcore / 4) + o / 2 ^ 18 else o / 2 ^ 20)
  match (s.partn f.part).phys? lc with
  | none => .error (.trap (permTrap a.ea a.acc 0 true))
  | some c =>
    .ok ({ va := va, n := n, win := win, loc := { key := if win = 2 then spdKey c o else vltKey c o, vers := false, cached := false, grain := 0 }, sz := 0 },
      if win = 2 then none else some (lc, o % 2 ^ 20 / 2 ^ 18))

/-- The state of a slab against an access (R428; R241, step 8). -/
def State.slabStop (s : State) (part : Nat) (a : Acc) (slab : Option (Nat × Nat)) : Option Stop :=
  match slab with
  | none => none
  | some (lc, k) =>
    if (s.partn part).waking.contains (lc, k) then some (.wait .waitMemory (.slab lc k))
    else if (s.partn part).slab lc k = 2 then some (.trap { cause := cVaultDark, addr := a.ea, detail := lc + k * 256 })
    else if (s.partn part).slab lc k = 1 then some (.wake lc k)
    else none

/-- The global address of an offset in a window: the private window lies at the fibre's slot (R65). -/
def State.globalOf (s : State) (f : Fibre) (win o : Nat) : Nat :=
  if win = 4 then bits (s.partn f.part).prvBase.toNat 50 7 * 2 ^ 50 + f.priv * 2 ^ 32 + o else o

/-- The translation of a global piece (R241, step 5): the piece, its page, and the entry where it is freshly walked. -/
def State.globalPiece (s : State) (f : Fibre) (a : Acc) (g n : Nat) : Except Stop (Piece × Pte × Option Nat) :=
  match s.translate f a.ea g a.acc with
  | .error e => .error e
  | .ok (e, walked) =>
    let t := pteOf e
    let loc := t.loc g
    if !t.host ∧ deviceSize ≤ loc.key % spaceSize then .error (.fault (.noSuchDeviceAddress (loc.key % spaceSize)))
    else .ok ({ va := g, n := n, win := 1, loc := loc, sz := t.sz }, t, if walked then some e else none)

/-- The page and site checks of a global piece (R241, step 6). -/
def State.siteStop (s : State) (f : Fibre) (a : Acc) (p : Piece) (t : Pte) : Option Stop :=
  if a.atomic ∧ !t.cached then some (.trap (permTrap a.ea a.acc 1 false))
  else if s.inQueueStorage f.part p.va then some (.trap (permTrap a.ea a.acc 2 false))
  else if s.inSaveArea f.part p.va then some (.trap (permTrap a.ea a.acc 3 false))
  else if s.inArena f.part p.va then some (.trap (permTrap a.ea a.acc 4 false))
  else none

/-- FUTURE_IRREV (R131; R241, step 7). -/
def futureStop (f : Fibre) (a : Acc) (t : Pte) : Option Stop :=
  if a.acc / 2 % 2 = 1 ∧ f.tag ≠ 0 ∧ !t.vers ∧ !a.irrev then some (.trap { cause := cFutureIrrev, addr := a.ea }) else none

/-- The checks of placed global pieces (R241, steps 6 and 7), each step over the whole access before the next; then the host lines that it waits
for (R431). -/
def State.pageStop (s : State) (f : Fibre) (a : Acc) (xs : List (Piece × Pte × Option Nat)) : Option Stop :=
  match xs.findSome? fun x => s.siteStop f a x.1 x.2.1 with
  | some e => some e
  | none =>
    match xs.findSome? fun x => futureStop f a x.2.1 with
    | some e => some e
    | none => if a.later then none else xs.findSome? fun x => if x.2.1.cached then s.hostLineStop x.1.loc.key (a.acc / 2 % 2 = 1) else none

/-- Check an access and place its pieces, with the freshly walked entries (R241): alignment, the window, and then step after step for the whole
access. -/
def State.place (s : State) (f : Fibre) (a : Acc) : Except Stop (List Piece × List Nat) :=
  if a.ea % a.align ≠ 0 then .error (.trap { cause := cMisalign, addr := a.ea, detail := a.align })
  else
    match decodeWindow a.ea a.n a.form with
    | .error t => .error (.trap t)
    | .ok (win, o) =>
      let k := min a.n 4
      let is := (List.range (a.n / k)).filter fun i => !a.skip.contains i
      if win = 2 ∨ win = 3 then
        match allOk (is.map fun i => s.windowPiece f a win (o + i * k) (a.ea + i * k) k) with
        | .error e => .error e
        | .ok xs =>
          match xs.findSome? fun x => s.slabStop f.part a x.2 with
          | some e => .error e
          | none => .ok (xs.map fun x => x.1, [])
      else
        match allOk (is.map fun i => s.globalPiece f a (s.globalOf f win (o + i * k)) k) with
        | .error e => .error e
        | .ok xs =>
          match s.pageStop f a xs with
          | some e => .error e
          | none => .ok (xs.map fun x => x.1, xs.filterMap fun x => x.2.2)

/-- The alignment of R64. -/
def alignOf (n : Nat) : Nat := min n 16

/-- The walks of an access: their buckets are acquired, and the entries go into the TLBs of the fibre's core (R70, R71). -/
def State.keepWalks (s : State) (f : Fibre) (ws : List Nat) : State :=
  ws.foldl (fun s e => (s.promoteWalk f.part ((pteOf e).vpn * 4096)).fillTlb f.part f.onCore e) s

/-! ### Effects of a stop -/

/-- The wake time of a slab that leaves RETENTION: 400 ns (R427). -/
def slabWakeClocks : Nat := 720

/-- Start the wake of a slab (R428): its field reads ON from then on. -/
def State.startWake (s : State) (part core k : Nat) : State :=
  let s := s.updPart part fun (q : Partition) =>
    { q with vltPwr := q.vltPwr.modify core (fun b => b &&& ~~~(3#8 <<< (2 * k))), waking := q.waking ++ [(core, k)] }
  s.timer (s.clock + slabWakeClocks) (.vaultSlabWakeDone part core k)

/-- Ask for a host line for a fibre's access (R431): RdShared for a read, RdOwn for a write. The host answers, and whether it grants E is open
(notes/assumptions/19.md), and what it has written there since the VAC last had the line comes with its answer (notes/assumptions/78.md); a request without completion within 10 ms fails (R472). -/
def State.askHostLine (s : State) (uid line : Nat) (own : Bool) : State :=
  let r := if own then 1 else 0
  if s.hostLines.any fun h => h.line == line && h.request.isSome then s
  else
    let old := (s.hostLines.find? fun h => h.line == line).getD ⟨line, 0, none, none, 0, [], [], []⟩
    let h : HostLine := { old with request := some r, uid := some uid, since := s.clock }
    let grant := Config.hostGrants s.free
    let s := { s with hostLines := s.hostLines.filter (fun (x : HostLine) => x.line != line) ++ [h], free := s.free + 1 }
    (s.timer (s.clock + 10 * clocksPerMs) (.cxlCompletionTimeout r line)).post (.cxlCacheCompletion line own grant ⟨false, []⟩)

/-- Ask for the host lines of some places that the VAC does not hold. -/
def State.askLines (s : State) (uid : Nat) (ls : List Loc) : State :=
  ls.foldl (fun s l => if l.cached && (s.hostLineStop l.key false).isSome then s.askHostLine uid (l.key / 128) false else s) s

end Sys2Proof.Machine
end

