-- ==== Sys2Proof/Machine/Wave.lean ====
section
/-! DEFINITION. How a wave issues one instruction: the checks of R170 that every instruction shares (R160 and R37, PRIV,
STALL_SHORT and the scoreboard of R176), the active set (R36), comparison points and operations performed once in a
replicated pipeline (R365, R366, R370, R372), what a stop does to the wave (R445, R446), and the advance of the PC. -/

namespace Sys2Proof.Machine

/-- What an instruction is to the issue: MAJOR, MINOR, its extended fields and its length in bytes; `priv` marks a privileged
one (R167), `compare` a comparison point (R365), `once` one that the leader performs (R370), and `take` is what a follower
does besides taking the leader's result, given the fibre before it took the result, and the result. -/
structure Issue where
  major : Nat
  minor : Nat
  e : Ext
  len : Nat
  priv : Bool := false
  compare : Bool := false
  once : Bool := false
  take : State → Fibre → Fwd → State := fun s _ _ => s

/-- The effect of an instruction on its active fibres, given by their numbers in ascending gang lane: the state, and the fibres
whose PC the effect has dealt with. -/
abbrev Body := State → List Nat → Except Stop (State × List Nat)

/-- The fibres of the wave that issues, in ascending gang lane. -/
def State.wave (s : State) : List Fibre := s.cur.map s.fibre

/-- The trap ILLEGAL_OP of the instruction that issues (R438). -/
def State.illegal (s : State) : Trap := { cause := cIllegal, detail := s.curWord.toNat }

/-- A fibre of its partition's supervisor pipeline (R167). -/
def State.isSupervisor (s : State) (f : Fibre) : Bool := (s.pipeOf f).supervisor

/-- The pipeline descriptor's CHECK bit (R49). -/
def State.checks (s : State) (f : Fibre) : Bool := (s.pipeOf f).check

/-! ### Registers of an instruction -/

/-- Every register use lies in its file (R37, R160). -/
def usesInFile (win : Nat) (us : List RegUse) : Bool :=
  us.all fun u => if u.sfile then u.num + u.count ≤ 192 else u.num + u.count ≤ win

/-- The predicates an instruction reads or writes: the guard, pC and pD (R165, R207, R160). -/
def predsOf (i : Issue) : List Nat :=
  [i.e.gp.toNat] ++ (match formOf i.major i.minor i.e with
    | some f => if f.c = .p then [i.e.c.toNat] else []
    | none => []) ++ (if i.e.pdv then [i.e.pd.toNat] else [])

/-- The register uses of an instruction. -/
def Issue.uses (i : Issue) : List RegUse := usesOf i.major i.minor i.e

/-- The fixed latency of a major; none for a variable one (R173). -/
def fixedLatency (major : Nat) : Option Nat :=
  if [0x08, 0x0A, 0x0B, 0x0C, 0x10, 0x11].contains major then some 2
  else if major = 0x14 then some 3
  else if [0x18, 0x19, 0x1F].contains major then some 4
  else if major = 0x09 then some 5
  else none

/-! ### The shared checks -/

/-- What the shared checks decide: the instruction goes on, traps, may not issue before a clock, or waits for a result. -/
inductive Gate where
  | go
  | trap (t : Trap)
  | delay (clock : Nat)
  | pend
  deriving DecidableEq, Repr

/-- The pending results of fixed latency that an instruction meets in a fibre (R176). -/
def Fibre.meets (f : Fibre) (clock : Nat) (us : List RegUse) (ps : List Nat) : List SbEntry :=
  f.sb.filter fun x => decide (clock < x.done) &&
    (if x.kind = 2 then ps.contains x.num else us.any fun u => u.covers (x.kind == 1) x.num)

/-- The pending s-registers of the group that an instruction meets. -/
def Group.meets (g : Group) (clock : Nat) (us : List RegUse) : List (Nat × Option Nat) :=
  g.pend.filter fun (n, t) => (match t with | some c => decide (clock < c) | none => true) && us.any fun u => u.covers true n

/-- A pending v-register of variable latency that an instruction meets in a fibre. -/
def State.meetsLoad (s : State) (f : Fibre) (us : List RegUse) : Bool :=
  s.pendV.any fun (u, n) => u == f.uid && us.any fun x => x.covers false n

/-- The fibres of the wave whose next instruction needs a result of variable latency that has not returned (R61). -/
def State.needing (s : State) (i : Issue) : List Nat :=
  let us := i.uses
  let g := (s.group (s.wave.headD Fibre.blank).groupId).meets s.clock us
  s.cur.filter fun u => g.any (fun x => x.2.isNone) || s.meetsLoad (s.fibre u) us

/-- The shared checks of R170, steps 2 to 4, and the scoreboard. -/
def State.gate (s : State) (i : Issue) : Gate :=
  let w := s.wave
  let us := i.uses
  let ps := predsOf i
  if !(w.all fun f => usesInFile f.win us) then .trap s.illegal
  else if i.priv && !(w.all fun f => s.isSupervisor f) then .trap { cause := cPriv, detail := i.major * 256 + i.minor }
  else
    let short (f : Fibre) : Option SbEntry := (f.meets s.clock us ps).find? fun x => decide (x.dist < x.lat)
    match (w.filter fun f => s.checks f).findSome? short with
    | some x => .trap { cause := cStallShort, detail := x.pc.toNat }
    | none =>
      let g := (s.group (w.headD Fibre.blank).groupId).meets s.clock us
      let due := (w.flatMap fun f => (f.meets s.clock us ps).map fun x => x.done) ++ g.filterMap fun x => x.2
      if g.any (fun x => x.2.isNone) || w.any (fun f => s.meetsLoad f us) then .pend
      else if due = [] then .go
      else .delay (due.foldl max 0)

/-! ### Issuing -/

/-- Change the fibres of a list. -/
def State.updAll (s : State) (us : List Nat) (g : Fibre → Fibre) : State :=
  { s with fibres := mapIf (fun f => us.contains f.uid) g s.fibres }

/-- The issue slot that an attempt took is free again (R30). -/
def State.unslot (s : State) : State := { s with slots := s.slots.tail }

/-- The scoreboard entries of an instruction's results in a fibre (R173, R175): `any` says that some fibre of the wave is active, without which no
s-register is written; a write to p0 is discarded (R25). `after` gives the CLOCK after some clocks of the core. -/
def Issue.marks (i : Issue) (any : Bool) (f : Fibre) (after : Nat → Nat) : List SbEntry :=
  match fixedLatency i.major with
  | none => []
  | some l =>
    let mk (kind n : Nat) : SbEntry :=
      { kind := kind, num := n, lat := l, dist := i.e.stall.toNat + 1, done := after l, pc := f.pc }
    let act := f.guard i.e
    (i.uses.filter fun u => u.wr && (if u.sfile then any else act)).flatMap (fun u =>
      (List.range u.count).map fun k => mk (if u.sfile then 1 else 0) (u.num + k)) ++
    (if i.e.pdv && act && i.e.pd != 0 then [mk 2 i.e.pd.toNat] else [])

/-- The s-registers that an instruction of fixed latency writes, pending in the group (R176). -/
def Issue.groupMarks (i : Issue) (after : Nat → Nat) : List (Nat × Option Nat) :=
  match fixedLatency i.major with
  | none => []
  | some l => (i.uses.filter fun u => u.wr && u.sfile).flatMap fun u => (List.range u.count).map fun k => (u.num + k, some (after l))

/-- The wave has issued: its stall count and its results' latencies run. -/
def State.markIssued (s : State) (i : Issue) : State :=
  let w := s.wave
  let gm := if w.any fun f => f.guard i.e then i.groupMarks (s.coreClock (s.coreOf (w.headD Fibre.blank))) else []
  let live (x : Nat × Option Nat) : Bool := match x.2 with | some c => decide (s.clock < c) | none => true
  let s' := s.updAll s.cur fun f =>
    let after := s.coreClock (s.coreOf f)
    let f' := f.issued s.clock (after (i.e.stall.toNat + 1)) i.e.stall.toNat
    { f' with sb := f'.sb ++ i.marks (w.any fun f => f.guard i.e) f after }
  if gm = [] then s'
  else s'.updGroup (w.headD Fibre.blank).groupId fun g => { g with pend := g.pend.filter live ++ gm }

/-- Advance past the instruction every fibre of the wave but those of `stay`. -/
def State.advanceCur (s : State) (len : Nat) (stay : List Nat) : State :=
  s.updAll (s.cur.filter fun u => !stay.contains u) fun f => f.advancePc len

/-- What a stop does: a trap holds the active fibres (R445); otherwise they wait and the instruction issues again. -/
def State.stopped (s : State) (act : List Nat) (len : Nat) (st : Stop) : Host.Outcome State Fault Refusal :=
  match st with
  | .trap t => .next (s.trap (act.headD 0) act t none (some len))
  | .wait st w => .next (s.updAll act fun f => f.waits st w)
  | .service va acc =>
    let f := s.fibre (act.headD 0)
    let page := (s.partn f.part).servicePage va
    .next ((s.raiseService f.part va acc false).updAll act fun f => f.waits (if f.boundRay.isSome then .parkedHit else .waitMemory) (.page page))
  | .wake core slab =>
    let f := s.fibre (act.headD 0)
    .next ((s.startWake f.part core slab).updAll act fun f => f.waits .waitMemory (.slab core slab))
  | .hostLine line own => .next ((s.askHostLine (act.headD 0) line own).updAll act fun f => f.waits .waitMemory (.hostLine line))
  | .fault f => .fault f

/-! ### Replicated pipelines -/

/-- A live follower of a leader's fibre (R362). -/
def State.followers (s : State) (f : Fibre) : List Fibre :=
  s.fibres.filter fun g => g.part == f.part && g.pipe == f.pipe && g.setId == f.setId && g.repl != f.repl && g.live

/-- The results that an instruction has written in a fibre: its registers and its predicate (R370). -/
def State.results (s : State) (i : Issue) (f : Fibre) : Fwd :=
  ⟨(i.uses.filter fun u => u.wr).flatMap (fun u => (List.range u.count).map fun k =>
      (u.num + k, u.sfile, if u.sfile then s.sreg f (u.num + k) else ⟨(f.v (u.num + k)).val.setWidth 64, (f.v (u.num + k)).poison⟩)),
   if i.e.pdv then [(i.e.pd.toNat, f.pred i.e.pd.toNat)] else [], f.info⟩

/-- Forward the results of the active fibres to their followers. -/
def State.forward (s : State) (i : Issue) (act : List Nat) : State :=
  act.foldl (fun s u =>
    let f := s.fibre u
    let r := s.results i f
    let s := s.updAll ((s.followers f).map fun g => g.uid) fun g => { g with forwarded := g.forwarded ++ [r] }
    s.updFibre u fun f => { f with info := [] }) s

/-- A follower takes the leader's oldest result. -/
def State.takeForwarded (s : State) (i : Issue) (uid : Nat) : State :=
  let f := s.fibre uid
  match f.forwarded with
  | [] => s
  | r :: rest =>
    let s := s.updFibre uid fun f => { f with forwarded := rest }
    let s := r.regs.foldl (fun s (n, sf, x) =>
      if sf then s.setS f.groupId n x else s.updFibre uid fun f => f.setV n ⟨x.val.extractLsb' 0 32, x.poison⟩) s
    let s := r.preds.foldl (fun s (n, b) => s.updFibre uid fun f => f.setPred n b) s
    i.take s f r

/-- What replication makes of the instruction before its effect: active fibres that wait, and why. -/
def State.replWait (s : State) (i : Issue) (act : List Fibre) : Option (List Nat × Wait) :=
  let p := s.pipeOf (act.headD Fibre.blank)
  if !p.replicated then none
  else
    let new := act.filter fun f => !f.agreed
    if i.compare && !new.isEmpty then some (new.map (fun f => f.uid), .compare)
    else if i.once then
      if (act.headD Fibre.blank).repl = p.leader && act.any (fun f => f.forwarded.isEmpty) then
        if act.any fun f => (s.followers f).any fun g => 64 ≤ g.forwarded.length then some (act.map fun f => f.uid, .forward) else none
      else if act.any fun f => f.forwarded.isEmpty then some (act.map fun f => f.uid, .forward) else none
    else none

/-- CONVWD or BARWD in clocks (R49). -/
def watchdog (code : Nat) : Nat := if code = 0 then 2 ^ 24 else 2 ^ code

/-- A fibre has reached its comparison point: the last of its replica set starts the comparison, the first one its time limit
(R366). -/
def State.arriveAtPoint (s : State) (uid : Nat) : State :=
  let f := s.fibre uid
  let others := s.followers f
  let s := s.updFibre uid fun f => { f with pointAt := s.clock }
  if others.all fun g => g.wait == .compare then s.post (.replComparison uid)
  else if others.any fun g => g.wait == .compare then s
  else s.timer (s.clock + watchdog (s.pipeOf f).convwd) (.replCompareTimeout uid)

/-- The active fibres belong to a follower replica, or still hold results of a leader that a vote has fenced off (R373). -/
def State.follows (s : State) (act : List Fibre) : Bool :=
  let f := act.headD Fibre.blank
  (s.pipeOf f).replicated && (f.repl != (s.pipeOf f).leader || act.all fun f => !f.forwarded.isEmpty)

/-- A comparison point that a fibre outside a replicated launch passes resets its signature (R363). -/
def State.passPoint (s : State) (i : Issue) (act : List Nat) : State :=
  if i.compare then s.updAll act fun f => { f with sig := 0 } else s

/-- An instruction that reads a token acquires at PARTITION scope at its issue (R99). -/
def State.readTokens (s : State) (i : Issue) : State :=
  let f := s.wave.headD Fibre.blank
  let ts := (s.group f.groupId).tokens
  if i.uses.any fun u => u.rd && u.sfile && (List.range u.count).any fun k => ts.contains (u.num + k) then s.selfInval (s.coreOf f) else s

/-- The effect of the instruction on its active fibres, and the advance. -/
def State.perform (s : State) (i : Issue) (act : List Fibre) (body : Body) : Host.Outcome State Fault Refusal :=
  let us := act.map fun f => f.uid
  let s1 := ((s.markIssued i).passPoint i us).readTokens i
  if i.once && s.follows act then
    .next ((us.foldl (fun s u => s.takeForwarded i u) s1).advanceCur i.len [])
  else
    match body s1 us with
    | .ok (s2, stay) =>
      let s3 := if i.once && (s.pipeOf (act.headD Fibre.blank)).replicated then s2.forward i (us.filter fun u => !stay.contains u) else s2
      .next (s3.advanceCur i.len stay)
    | .error st => s.stopped us i.len st

/-- Issue an instruction of the wave: the shared checks, then the effect. -/
def State.issue (s : State) (i : Issue) (body : Body) : Host.Outcome State Fault Refusal :=
  match s.gate i with
  | .trap t =>
    let lead := ((s.wave.filter fun f => f.guard i.e).headD (s.wave.headD Fibre.blank)).uid
    .next (s.trap lead s.cur t none (some i.len))
  | .delay c => .next (s.unslot.updAll s.cur fun f => { f with readyAt := max f.readyAt c })
  | .pend => .next (s.unslot.updAll (s.needing i) fun f => f.waits .waitMemory .pending)
  | .go =>
    let act := s.wave.filter fun f => f.guard i.e
    if act.isEmpty then .next ((s.markIssued i).advanceCur i.len [])
    else
      match s.replWait i act with
      | some (us, w) =>
        let s := s.updAll us fun f => f.waits .waitMemory w
        .next (if w = .compare then us.foldl State.arriveAtPoint s else s)
      | none => s.perform i act body

/-! ### Bodies -/

/-- `eachFibre` from a state on: every fibre reads the state `s` before the instruction (R217). -/
def eachFrom (g : State → Fibre → Except Trap Fibre) (s t : State) : List Nat → Except Stop State
  | [] => .ok t
  | u :: r =>
    match g s (s.fibre u) with
    | .error x => .error (.trap x)
    | .ok f => eachFrom g s (t.updFibre u fun _ => f) r

/-- Act in each active fibre on its own registers (R36): a failing fibre stops the wave (R446). -/
def eachFibre (g : State → Fibre → Except Trap Fibre) : Body := fun s us =>
  match eachFrom g s s us with
  | .error x => .error x
  | .ok t => .ok (t, [])

/-- `inLaneOrder` from a state on. -/
def orderFrom (g : State → Nat → Except Stop (State × Bool)) (t : State) (stay : List Nat) : List Nat → Except Stop (State × List Nat)
  | [] => .ok (t, stay)
  | u :: r =>
    match g t u with
    | .error x => .error x
    | .ok (t', b) => orderFrom g t' (if b then u :: stay else stay) r

/-- Act for each active fibre in ascending gang lane, each after the one before it (R184); the effect says whether it has dealt
with the fibre's PC. -/
def inLaneOrder (g : State → Nat → Except Stop (State × Bool)) : Body := fun s us => orderFrom g s [] us

/-- Act once for the wave (R36, R184): the lowest active fibre and all the active ones. -/
def oncePerWave (g : State → Fibre → List Nat → Except Stop (State × List Nat)) : Body := fun s us =>
  g s (s.fibre (us.headD 0)) us

/-- Write a predicate to every active fibre (R184). -/
def State.setPredAll (s : State) (us : List Nat) (n : Nat) (b : Bool) : State := s.updAll us fun f => f.setPred n b

end Sys2Proof.Machine
end

