-- ==== Sys2Proof/Machine/Operands.lean ====
section
/-! DEFINITION. The operand forms: register, immediate and literal sources (R160, R161, R166, R207, R213), the effective address
(R164), integer widths and extension (R140, R208), result writes, and the use of poisoned registers (R105, R511). -/

namespace Sys2Proof.Machine

/-! ### Sources -/

/-- The value of IMM by the type the operand is read as (R161). -/
def immValue (ty : OpType) (imm : BitVec 14) : DWord :=
  match ty with
  | .f32 => (imm ++ 0#18).setWidth 64
  | .f16 | .bf16 => ((imm ++ 0#2) ++ (imm ++ 0#2)).setWidth 64
  | .e4m3 | .e5m2 | .e2m1 | .b32 | .b64 | .s8 | .s16 | .s32 | .s64 | .n8 | .n16 | .n32 | .n64 => imm.signExtend 64

/-- A v-register or a pair, in 64 bits. -/
def Fibre.vSrc (f : Fibre) (n : Nat) (pair : Bool) : PDWord :=
  if pair then f.vPair n else ⟨(f.v n).val.setWidth 64, (f.v n).poison⟩

/-- A register of either file, in 64 bits; `pair` says that a v-register operand is a pair. -/
def State.regSrc (s : State) (f : Fibre) (sfile : Bool) (n : Nat) (pair : Bool) : PDWord :=
  if sfile then s.sreg f n else f.vSrc n pair

/-- Operand A. -/
def State.srcA (s : State) (f : Fibre) (e : Ext) (pair : Bool) : PDWord := s.regSrc f e.ak e.a.toNat pair
/-- Operand C. -/
def State.srcC (s : State) (f : Fibre) (e : Ext) (pair : Bool) : PDWord := s.regSrc f e.ck e.c.toNat pair
/-- Operand D read as a source. -/
def State.srcD (s : State) (f : Fibre) (e : Ext) (pair : Bool) : PDWord := s.regSrc f e.dk e.d.toNat pair
/-- Operand B, an immediate read as type `ty`. -/
def State.srcB (s : State) (f : Fibre) (e : Ext) (pair : Bool) (ty : OpType) : PDWord :=
  match e.bk.toNat with
  | 0 => f.vSrc e.b.toNat pair
  | 1 => s.sreg f e.b.toNat
  | 2 => ⟨immValue ty e.imm, false⟩
  | _ => ⟨e.lit.getD 0, false⟩

/-- The low 32 bits of operand B, unsigned (R182). -/
def State.countB (s : State) (f : Fibre) (e : Ext) : Nat := (s.srcB f e false .b32).val.toNat % 2 ^ 32

/-- The effective address of a memory operand (R164), with its poison. -/
def State.address (s : State) (f : Fibre) (e : Ext) : PDWord :=
  let base := s.srcA f e true
  let index : PDWord :=
    match e.bk.toNat with
    | 0 => f.vSrc e.b.toNat false
    | 1 => s.sreg f e.b.toNat
    | _ => ⟨0, false⟩
  let off : DWord := match e.lit with | some l => l | none => e.imm.signExtend 64
  ⟨base.val + index.val + off, base.poison || index.poison⟩

/-! ### Integers -/

/-- The number that a type's low bits mean (R140). -/
def intOf (ty : OpType) (x : DWord) : Int :=
  if ty.signed then (x.setWidth ty.width).toInt else ((x.setWidth ty.width).toNat : Int)

/-- A number as a register holds it: bits w−1:0, extended under R140. -/
def ofInt (ty : OpType) (x : Int) : DWord :=
  if ty.signed then (BitVec.ofInt ty.width x).signExtend 64 else (BitVec.ofInt ty.width x).setWidth 64

/-- MinOf and MaxOf (R208). -/
def minOf (ty : OpType) : Int := if ty.signed then -(2 ^ (ty.width - 1) : Int) else 0
def maxOf (ty : OpType) : Int := if ty.signed then 2 ^ (ty.width - 1) - 1 else 2 ^ ty.width - 1

/-- Clamp (R208). -/
def clamp (x lo hi : Int) : Int := if x < lo then lo else if hi < x then hi else x

/-- IntResult (R208). -/
def intResult (x : Int) (ty : OpType) (sat : Bool) : DWord := ofInt ty (if sat then clamp x (minOf ty) (maxOf ty) else x)

/-- The low `w` bits of a value. -/
def lowBits (w : Nat) (x : DWord) : Nat := x.toNat % 2 ^ w

/-! ### Results -/

/-- Write the v-file destination of a type's width. -/
def Fibre.setD (f : Fibre) (e : Ext) (pair : Bool) (x : PDWord) : Fibre :=
  if pair then f.setPair e.d.toNat x else f.setV e.d.toNat ⟨x.val.extractLsb' 0 32, x.poison⟩

/-- Write the destination of a form whose D is a v-register or an s-register; a v-register write goes to every active fibre. -/
def State.setDest (s : State) (us : List Nat) (f : Fibre) (e : Ext) (pair : Bool) (x : PDWord) : State :=
  if e.dk then s.setS f.groupId e.d.toNat x else s.updAll us fun g => g.setD e pair x

/-! ### The use of poison -/

/-- The numbers of the registers of a file that a list of uses reads. -/
def readRegs (us : List RegUse) (sfile : Bool) : List Nat :=
  (us.filter fun u => u.rd && u.sfile == sfile).flatMap fun u => (List.range u.count).map fun k => u.num + k

/-- POISON_USE where a register read by these uses is poisoned: the lowest v-register, else the lowest s-register
(R105, R511). -/
def State.poisonUse (s : State) (f : Fibre) (us : List RegUse) : Option Trap :=
  match minBy (fun n => n) ((readRegs us false).filter fun n => (f.v n).poison) with
  | some n => some { cause := cPoisonUse, detail := n }
  | none =>
    match minBy (fun n => n) ((readRegs us true).filter fun n => (s.sreg f n).poison) with
    | some n => some { cause := cPoisonUse, detail := n + 512 }
    | none => none

/-- Go on unless a register read is poisoned. -/
def State.unpoisoned {α : Type} (s : State) (f : Fibre) (us : List RegUse) (k : Except Trap α) : Except Trap α :=
  match s.poisonUse f us with
  | some t => .error t
  | none => k

/-- MISALIGN (R511). -/
def misalign (ea align : Nat) : Trap := { cause := cMisalign, addr := ea, detail := align }

end Sys2Proof.Machine
end

