-- ==== Sys2Proof/Machine/Integer.lean ====
section
/-! DEFINITION. The vector integer instructions, majors 0x08 to 0x0C (R207 to R212, R151), each with its base word and its longer
forms where it has both. -/

namespace Sys2Proof.Machine

/-- The issue of an instruction of MAJOR and MINOR. -/
def issueOf (major minor : Nat) (e : Ext) (len : Nat) : Issue := { major := major, minor := minor, e := e, len := len }

/-- An instruction that acts in each active fibre on its own registers. -/
def State.vec (s : State) (major minor : Nat) (e : Ext) (len : Nat) (g : State → Fibre → Except Trap Fibre) :
    Host.Outcome State Fault Refusal := s.issue (issueOf major minor e len) (eachFibre g)

/-! ### Shapes -/

/-- Write D with a value computed from A and B; poison of either poisons it (R105). -/
def binary (e : Ext) (pair bPair : Bool) (g : DWord → DWord → DWord) (s : State) (f : Fibre) : Except Trap Fibre :=
  let a := s.srcA f e pair
  let b := s.srcB f e bPair e.ty
  .ok (f.setD e pair ⟨g a.val b.val, a.poison || b.poison⟩)

/-- Write D with a value computed from B. -/
def unary (e : Ext) (pair : Bool) (dPair : Bool) (g : DWord → DWord) (s : State) (f : Fibre) : Except Trap Fibre :=
  let b := s.srcB f e pair e.ty
  .ok (f.setD e dPair ⟨g b.val, b.poison⟩)

/-- Write D with a value computed from A, B and C. -/
def ternary (e : Ext) (dPair aPair bPair cPair : Bool) (g : DWord → DWord → DWord → DWord) (s : State) (f : Fibre) : Except Trap Fibre :=
  let a := s.srcA f e aPair
  let b := s.srcB f e bPair e.ty
  let c := s.srcC f e cPair
  .ok (f.setD e dPair ⟨g a.val b.val c.val, a.poison || b.poison || c.poison⟩)

/-- A binary operation on numbers with IntResult (R208). -/
def arith (e : Ext) (op : Int → Int → Int) (x y : DWord) : DWord := intResult (op (intOf e.ty x) (intOf e.ty y)) e.ty e.sat

/-- A bitwise result at a type's width, extended to the register (R140). -/
def bitResult (ty : OpType) (x : Nat) : DWord := ofInt ty (x : Int)

/-! ### Operations on numbers -/

/-- The lesser and the greater (R209). -/
def intMin (a b : Int) : Int := if b < a then b else a
def intMax (a b : Int) : Int := if a < b then b else a

/-- A condition of R210. -/
def intCond (cc : Nat) (a b : Int) : Bool :=
  match cc with
  | 0 => a == b
  | 1 => a != b
  | 2 => decide (a < b)
  | 3 => decide (a ≤ b)
  | 4 => decide (b < a)
  | _ => decide (b ≤ a)

/-- A shift left or right by n, with zeros filled (R212). -/
def shlBits (w n x : Nat) : Nat := if w ≤ n then 0 else x * 2 ^ n % 2 ^ w
def shrBits (w n x : Nat) : Nat := if w ≤ n then 0 else x % 2 ^ w / 2 ^ n
/-- A shift right by n with bit w−1 filled (R212). -/
def sarBits (w n x : Nat) : Nat :=
  let k := min n w
  let hi := if (x % 2 ^ w) / 2 ^ (w - 1) = 1 then 2 ^ w - 2 ^ (w - k) else 0
  x % 2 ^ w / 2 ^ k + hi
/-- A rotation left by n mod w (R212). -/
def rolBits (w n x : Nat) : Nat :=
  let m := n % w
  (x % 2 ^ w * 2 ^ m + x % 2 ^ w / 2 ^ (w - m)) % 2 ^ w

/-- Zero bits from bit w−1 down, of `n` bits left (R151). -/
def clzFrom (x : Nat) : Nat → Nat
  | 0 => 0
  | n + 1 => if x.testBit n then 0 else clzFrom x n + 1
/-- Zero bits from bit 0 up (R151): `k` bits seen, `n` left. -/
def ctzFrom (x k : Nat) : Nat → Nat
  | 0 => 0
  | n + 1 => if x.testBit k then 0 else ctzFrom x (k + 1) n + 1
/-- Set bits below bit n (R151). -/
def popBelow (x : Nat) : Nat → Nat
  | 0 => 0
  | n + 1 => (if x.testBit n then 1 else 0) + popBelow x n
/-- The bit counts at width w (R151). -/
def clz (w x : Nat) : Nat := clzFrom x w
def ctz (w x : Nat) : Nat := ctzFrom x 0 w
def ffs (w x : Nat) : Nat := if x % 2 ^ w = 0 then 0 else ctz w x + 1
def popc (w x : Nat) : Nat := popBelow x w

/-- A number built from its bits: bit i of the result is `g i`, for i below n. -/
def ofBits (g : Nat → Bool) : Nat → Nat
  | 0 => 0
  | n + 1 => ofBits g n + if g n then 2 ^ n else 0

/-- Bit i is bit w−1−i (R212). -/
def brev (w x : Nat) : Nat := ofBits (fun i => x.testBit (w - 1 - i)) w
/-- Bit i is bit (a_i + 2b_i + 4c_i) of lut (R212). -/
def blut (w lut a b c : Nat) : Nat :=
  ofBits (fun i => lut.testBit ((a.testBit i).toNat + 2 * (b.testBit i).toNat + 4 * (c.testBit i).toNat)) w

/-- BitExtract (R212), as a number. -/
def bitExtract (w a pos len : Nat) (signed : Bool) : Int :=
  let n := min len w
  if n = 0 then 0
  else
    let x := ofBits (fun i => if pos + i < w then a.testBit (pos + i) else signed && a.testBit (w - 1)) n
    if signed && x.testBit (n - 1) then (x : Int) - 2 ^ n else x

/-- BFI (R212). -/
def bitInsert (w a b c : Nat) : Nat :=
  let pos := b % 256
  let top := min (pos + b / 256 % 256) w
  ofBits (fun i => if pos ≤ i ∧ i < top then a.testBit (i - pos) else c.testBit i) w

/-- PRMT (R212). -/
def permute (a b c : Nat) : Nat :=
  let byte (i : Nat) : Nat :=
    let s := c / 2 ^ (4 * i) % 16
    let v := (a % 2 ^ 32 + b % 2 ^ 32 * 2 ^ 32) / 2 ^ (8 * (s % 8)) % 256
    if s < 8 then v else if v < 128 then 0 else 255
  byte 0 + byte 1 * 2 ^ 8 + byte 2 * 2 ^ 16 + byte 3 * 2 ^ 24

/-- The sum of byte products of DP4 (R211). -/
def dp4Sum (ta tb : OpType) (a b : DWord) : Int :=
  (List.range 4).foldl (fun acc i => acc + intOf ta (a >>> (8 * i)) * intOf tb (b >>> (8 * i))) 0

/-! ### Major 0x08 (R209, R210) -/

/-- IADD. -/
def iadd (e : Ext) (len : Nat) (s : State) := s.vec 0x08 0 e len (binary e e.ty.wide e.ty.wide (arith e (· + ·)))
/-- ISUB. -/
def isub (e : Ext) (len : Nat) (s : State) := s.vec 0x08 1 e len (binary e e.ty.wide e.ty.wide (arith e (· - ·)))
/-- IMIN. -/
def imin (e : Ext) (len : Nat) (s : State) := s.vec 0x08 2 e len (binary e e.ty.wide e.ty.wide (arith e intMin))
/-- IMAX. -/
def imax (e : Ext) (len : Nat) (s : State) := s.vec 0x08 3 e len (binary e e.ty.wide e.ty.wide (arith e intMax))
/-- IABS: MinOf wraps to MinOf, and gives MaxOf under .SAT. -/
def iabs (e : Ext) (len : Nat) (s : State) :=
  s.vec 0x08 4 e len (unary e e.ty.wide e.ty.wide fun b => intResult (intOf e.ty b).natAbs e.ty e.sat)
/-- INEG. -/
def ineg (e : Ext) (len : Nat) (s : State) :=
  s.vec 0x08 5 e len (unary e e.ty.wide e.ty.wide fun b => intResult (-intOf e.ty b) e.ty e.sat)
/-- MOV. -/
def mov (e : Ext) (len : Nat) (s : State) := s.vec 0x08 6 e len (unary e e.ty.wide e.ty.wide fun b => ofInt e.ty (intOf e.ty b))

/-- IADD as a base word. -/
def execIaddBase (b : Base) (s : State) := iadd (expandBase 0x08 0 b none) 4 s
/-- IADD in its longer forms. -/
def execIaddExt (x : XForm) (s : State) := iadd (x.toExt 0x08 0) x.len s
/-- ISUB as a base word. -/
def execIsubBase (b : Base) (s : State) := isub (expandBase 0x08 1 b none) 4 s
/-- ISUB in its longer forms. -/
def execIsubExt (x : XForm) (s : State) := isub (x.toExt 0x08 1) x.len s
/-- IMIN as a base word. -/
def execIminBase (b : Base) (s : State) := imin (expandBase 0x08 2 b none) 4 s
/-- IMIN in its longer forms. -/
def execIminExt (x : XForm) (s : State) := imin (x.toExt 0x08 2) x.len s
/-- IMAX as a base word. -/
def execImaxBase (b : Base) (s : State) := imax (expandBase 0x08 3 b none) 4 s
/-- IMAX in its longer forms. -/
def execImaxExt (x : XForm) (s : State) := imax (x.toExt 0x08 3) x.len s
/-- IABS as a base word. -/
def execIabsBase (b : Base) (s : State) := iabs (expandBase 0x08 4 b none) 4 s
/-- IABS in its longer forms. -/
def execIabsExt (x : XForm) (s : State) := iabs (x.toExt 0x08 4) x.len s
/-- INEG as a base word. -/
def execInegBase (b : Base) (s : State) := ineg (expandBase 0x08 5 b none) 4 s
/-- INEG in its longer forms. -/
def execInegExt (x : XForm) (s : State) := ineg (x.toExt 0x08 5) x.len s
/-- MOV as a base word. -/
def execMovBase (b : Base) (s : State) := mov (expandBase 0x08 6 b none) 4 s
/-- MOV in its longer forms. -/
def execMovExt (x : XForm) (s : State) := mov (x.toExt 0x08 6) x.len s

/-- MOVI: b + stride × GANG_LANE. -/
def execMovi (e : Ext) (s : State) : Host.Outcome State Fault Refusal :=
  s.vec 0x08 7 e e.len fun s f =>
    let b := s.srcB f e e.ty.wide e.ty
    .ok (f.setD e e.ty.wide ⟨ofInt e.ty (intOf e.ty b.val + e.xop.toInt * f.lane), b.poison⟩)
/-- IADD3. -/
def execIadd3 (e : Ext) (s : State) :=
  s.vec 0x08 8 e e.len (ternary e e.ty.wide e.ty.wide e.ty.wide e.ty.wide fun a b c =>
    intResult (intOf e.ty a + intOf e.ty b + intOf e.ty c) e.ty e.sat)
/-- LEA: a + Ext(b) × 2^k modulo 2^64. -/
def execLea (e : Ext) (s : State) :=
  s.vec 0x08 9 e e.len (binary e true false fun a b => a + BitVec.ofInt 64 (intOf e.ty b * 2 ^ (e.xop.toNat % 8)))
/-- SEL: only the selected source's poison counts (R105). -/
def execSel (e : Ext) (s : State) : Host.Outcome State Fault Refusal :=
  s.vec 0x08 10 e e.len fun s f =>
    let x := if f.pred e.c.toNat then s.srcA f e e.ty.wide else s.srcB f e e.ty.wide e.ty
    .ok (f.setD e e.ty.wide ⟨ofInt e.ty (intOf e.ty x.val), x.poison⟩)
/-- ISETP (R210). -/
def execIsetp (e : Ext) (s : State) : Host.Outcome State Fault Refusal :=
  s.vec 0x08 11 e e.len fun s f =>
    s.unpoisoned f (usesOf 0x08 11 e)
      (.ok (f.setPred e.pd.toNat
        (intCond (e.xop.toNat % 8) (intOf e.ty (s.srcA f e e.ty.wide).val) (intOf e.ty (s.srcB f e e.ty.wide e.ty).val))))

/-! ### Major 0x09 (R211) -/

/-- IMUL. -/
def imul (e : Ext) (len : Nat) (s : State) := s.vec 0x09 0 e len (binary e e.ty.wide e.ty.wide (arith e (· * ·)))
/-- IMULH: floor(a × b / 2^w). -/
def imulh (e : Ext) (len : Nat) (s : State) :=
  s.vec 0x09 1 e len (binary e e.ty.wide e.ty.wide fun a b => ofInt e.ty ((intOf e.ty a * intOf e.ty b).fdiv (2 ^ e.ty.width)))

/-- IMUL as a base word. -/
def execImulBase (b : Base) (s : State) := imul (expandBase 0x09 0 b none) 4 s
/-- IMUL in its longer forms. -/
def execImulExt (x : XForm) (s : State) := imul (x.toExt 0x09 0) x.len s
/-- IMULH as a base word. -/
def execImulhBase (b : Base) (s : State) := imulh (expandBase 0x09 1 b none) 4 s
/-- IMULH in its longer forms. -/
def execImulhExt (x : XForm) (s : State) := imulh (x.toExt 0x09 1) x.len s
/-- IMAD. -/
def execImad (e : Ext) (s : State) :=
  s.vec 0x09 2 e e.len (ternary e e.ty.wide e.ty.wide e.ty.wide e.ty.wide fun a b c =>
    intResult (intOf e.ty a * intOf e.ty b + intOf e.ty c) e.ty e.sat)
/-- The 64-bit type of a 32-bit type's signedness. -/
def wideOf (t : OpType) : OpType := if t.signed then .s64 else .n64
/-- IMADW: the result is S64 for S32 and N64 for N32. -/
def execImadw (e : Ext) (s : State) :=
  s.vec 0x09 3 e e.len (ternary e true false false true fun a b c =>
    intResult (intOf e.ty a * intOf e.ty b + intOf (wideOf e.ty) c) (wideOf e.ty) e.sat)
/-- The type of b's bytes in DP4. -/
def dp4TypeB (e : Ext) : OpType := if e.xop.getLsbD 0 then (if e.ty.signed then .n8 else .s8) else e.ty
/-- DP4. -/
def execDp4 (e : Ext) (s : State) :=
  s.vec 0x09 4 e e.len (ternary e false false false false fun a b c =>
    intResult (intOf .s32 c + dp4Sum e.ty (dp4TypeB e) a b) .s32 e.sat)

/-! ### Major 0x0A (R212) -/

/-- A bitwise operation at width w. -/
def bitwise (e : Ext) (op : DWord → DWord → DWord) (a b : DWord) : DWord := ofInt e.ty (intOf e.ty (op a b))

/-- AND. -/
def andOp (e : Ext) (len : Nat) (s : State) := s.vec 0x0A 0 e len (binary e e.ty.wide e.ty.wide (bitwise e (· &&& ·)))
/-- OR. -/
def orOp (e : Ext) (len : Nat) (s : State) := s.vec 0x0A 1 e len (binary e e.ty.wide e.ty.wide (bitwise e (· ||| ·)))
/-- XOR. -/
def xorOp (e : Ext) (len : Nat) (s : State) := s.vec 0x0A 2 e len (binary e e.ty.wide e.ty.wide (bitwise e (· ^^^ ·)))
/-- NOT. -/
def notOp (e : Ext) (len : Nat) (s : State) := s.vec 0x0A 3 e len (unary e e.ty.wide e.ty.wide fun b => ofInt e.ty (intOf e.ty (~~~b)))

/-- AND as a base word. -/
def execAndBase (b : Base) (s : State) := andOp (expandBase 0x0A 0 b none) 4 s
/-- AND in its longer forms. -/
def execAndExt (x : XForm) (s : State) := andOp (x.toExt 0x0A 0) x.len s
/-- OR as a base word. -/
def execOrBase (b : Base) (s : State) := orOp (expandBase 0x0A 1 b none) 4 s
/-- OR in its longer forms. -/
def execOrExt (x : XForm) (s : State) := orOp (x.toExt 0x0A 1) x.len s
/-- XOR as a base word. -/
def execXorBase (b : Base) (s : State) := xorOp (expandBase 0x0A 2 b none) 4 s
/-- XOR in its longer forms. -/
def execXorExt (x : XForm) (s : State) := xorOp (x.toExt 0x0A 2) x.len s
/-- NOT as a base word. -/
def execNotBase (b : Base) (s : State) := notOp (expandBase 0x0A 3 b none) 4 s
/-- NOT in its longer forms. -/
def execNotExt (x : XForm) (s : State) := notOp (x.toExt 0x0A 3) x.len s
/-- BLUT: lut is IMM[7:0]. -/
def execBlut (e : Ext) (s : State) :=
  s.vec 0x0A 4 e e.len (ternary e e.ty.wide e.ty.wide e.ty.wide e.ty.wide fun a b c =>
    bitResult e.ty (blut e.ty.width (e.imm.toNat % 256) a.toNat b.toNat c.toNat))

/-! ### Major 0x0B (R212) -/

/-- A shift of a by b[7:0]. -/
def shift (e : Ext) (op : Nat → Nat → Nat → Nat) (a b : DWord) : DWord := bitResult e.ty (op e.ty.width (b.toNat % 256) a.toNat)
/-- A shift instruction: b is 32-bit and read as an integer (R161). -/
def shiftOp (minor : Nat) (op : Nat → Nat → Nat → Nat) (e : Ext) (len : Nat) (s : State) :=
  s.vec 0x0B minor e len (binary e e.ty.wide false (shift e op))

/-- SHL as a base word. -/
def execShlBase (b : Base) (s : State) := shiftOp 0 shlBits (expandBase 0x0B 0 b none) 4 s
/-- SHL in its longer forms. -/
def execShlExt (x : XForm) (s : State) := shiftOp 0 shlBits (x.toExt 0x0B 0) x.len s
/-- SHR as a base word. -/
def execShrBase (b : Base) (s : State) := shiftOp 1 shrBits (expandBase 0x0B 1 b none) 4 s
/-- SHR in its longer forms. -/
def execShrExt (x : XForm) (s : State) := shiftOp 1 shrBits (x.toExt 0x0B 1) x.len s
/-- SAR as a base word. -/
def execSarBase (b : Base) (s : State) := shiftOp 2 sarBits (expandBase 0x0B 2 b none) 4 s
/-- SAR in its longer forms. -/
def execSarExt (x : XForm) (s : State) := shiftOp 2 sarBits (x.toExt 0x0B 2) x.len s
/-- ROL as a base word. -/
def execRolBase (b : Base) (s : State) := shiftOp 3 rolBits (expandBase 0x0B 3 b none) 4 s
/-- ROL in its longer forms. -/
def execRolExt (x : XForm) (s : State) := shiftOp 3 rolBits (x.toExt 0x0B 3) x.len s
/-- Bits 2w−1:w of (a × 2^w + b) × 2^m (R212). -/
def funnel (w m a b : Nat) : Nat := (a % 2 ^ w * 2 ^ w + b % 2 ^ w) * 2 ^ m / 2 ^ w % 2 ^ w
/-- FSHL. -/
def execFshl (e : Ext) (s : State) :=
  s.vec 0x0B 4 e e.len (ternary e e.ty.wide e.ty.wide e.ty.wide false fun a b c =>
    bitResult e.ty (funnel e.ty.width (c.toNat % 256 % e.ty.width) a.toNat b.toNat))

/-! ### Major 0x0C (R151, R212) -/

/-- A bit count: D is one register, written as N32. -/
def countOp (minor : Nat) (op : Nat → Nat → Nat) (e : Ext) (len : Nat) (s : State) :=
  s.vec 0x0C minor e len (unary e e.ty.wide false fun b => BitVec.ofNat 64 (op e.ty.width (lowBits e.ty.width b)))

/-- CLZ as a base word. -/
def execClzBase (b : Base) (s : State) := countOp 0 clz (expandBase 0x0C 0 b none) 4 s
/-- CLZ in its longer forms. -/
def execClzExt (x : XForm) (s : State) := countOp 0 clz (x.toExt 0x0C 0) x.len s
/-- CTZ as a base word. -/
def execCtzBase (b : Base) (s : State) := countOp 1 ctz (expandBase 0x0C 1 b none) 4 s
/-- CTZ in its longer forms. -/
def execCtzExt (x : XForm) (s : State) := countOp 1 ctz (x.toExt 0x0C 1) x.len s
/-- FFS as a base word. -/
def execFfsBase (b : Base) (s : State) := countOp 2 ffs (expandBase 0x0C 2 b none) 4 s
/-- FFS in its longer forms. -/
def execFfsExt (x : XForm) (s : State) := countOp 2 ffs (x.toExt 0x0C 2) x.len s
/-- POPC as a base word. -/
def execPopcBase (b : Base) (s : State) := countOp 3 popc (expandBase 0x0C 3 b none) 4 s
/-- POPC in its longer forms. -/
def execPopcExt (x : XForm) (s : State) := countOp 3 popc (x.toExt 0x0C 3) x.len s
/-- BREV. -/
def brevOp (e : Ext) (len : Nat) (s : State) :=
  s.vec 0x0C 4 e len (unary e e.ty.wide e.ty.wide fun b => bitResult e.ty (brev e.ty.width b.toNat))
/-- BREV as a base word. -/
def execBrevBase (b : Base) (s : State) := brevOp (expandBase 0x0C 4 b none) 4 s
/-- BREV in its longer forms. -/
def execBrevExt (x : XForm) (s : State) := brevOp (x.toExt 0x0C 4) x.len s
/-- BFE: b is 32-bit. -/
def execBfe (e : Ext) (s : State) :=
  s.vec 0x0C 5 e e.len (binary e e.ty.wide false fun a b =>
    ofInt e.ty (bitExtract e.ty.width (lowBits e.ty.width a) (b.toNat % 256) (b.toNat / 256 % 256) e.ty.signed))
/-- BFI: b is 32-bit. -/
def execBfi (e : Ext) (s : State) :=
  s.vec 0x0C 6 e e.len (ternary e e.ty.wide e.ty.wide false e.ty.wide fun a b c =>
    bitResult e.ty (bitInsert e.ty.width a.toNat b.toNat c.toNat))
/-- PRMT. -/
def execPrmt (e : Ext) (s : State) :=
  s.vec 0x0C 7 e e.len (ternary e false false false false fun a b c => bitResult e.ty (permute a.toNat b.toNat c.toNat))

end Sys2Proof.Machine
end

