-- ==== Sys2Proof/WellFormed.lean ====
section
/-! DEFINITION. Well-formed instructions: the static checks of R169, one line for each constructor, read off the
forms of Machine/Forms.lean. An event has no words, and nothing is asked of it. -/

namespace Sys2Proof

/-- The static check of an instruction; `none` where it is well-formed. -/
def Instr.check : Instr → Option Reject
  | .nop _ => none
  | .rep _ => none
  | .braBase _ => none
  | .braExt x => checkBranch 0 x
  | .callBase _ => none
  | .callExt x => checkBranch 1 x
  | .brx e => checkExt 0x01 2 e
  | .callx e => checkExt 0x01 3 e
  | .ret e => checkExt 0x01 4 e
  | .fendBase b => checkBase 0x02 0 b none
  | .fendExt e => checkExt 0x02 0 e
  | .yieldBase b => checkBase 0x02 1 b none
  | .yieldExt e => checkExt 0x02 1 e
  | .yieldp e => checkExt 0x02 2 e
  | .sleep e => checkExt 0x02 3 e
  | .wake e => checkExt 0x02 4 e
  | .spawn e => checkExt 0x02 5 e
  | .repack e => checkExt 0x02 6 e
  | .gnew e => checkExt 0x03 0 e
  | .gjoin e => checkExt 0x03 1 e
  | .gleave e => checkExt 0x03 2 e
  | .gfree e => checkExt 0x03 3 e
  | .gbar e => checkExt 0x03 4 e
  | .garrive e => checkExt 0x03 5 e
  | .gwait e => checkExt 0x03 6 e
  | .cvset e => checkExt 0x03 7 e
  | .cvsign e => checkExt 0x03 8 e
  | .cvwait e => checkExt 0x03 9 e
  | .qpush e => checkExt 0x04 0 e
  | .qpop e => checkExt 0x04 1 e
  | .qpeek e => checkExt 0x04 2 e
  | .qclose e => checkExt 0x04 3 e
  | .launch e => checkExt 0x05 0 e
  | .lwait e => checkExt 0x05 1 e
  | .getsr e => checkExt 0x06 0 e
  | .setsr e => checkExt 0x06 1 e
  | .trap e => checkExt 0x06 2 e
  | .syscall e => checkExt 0x06 3 e
  | .eretRetry e => if (e.mod.extractLsb' 0 2).toNat = 0 then checkExt 0x06 4 e else some .badMod
  | .eretSkip e => if (e.mod.extractLsb' 0 2).toNat = 1 then checkExt 0x06 4 e else some .badMod
  | .eretEnd e => if (e.mod.extractLsb' 0 2).toNat = 2 then checkExt 0x06 4 e else some .badMod
  | .bkpt e => checkExt 0x06 5 e
  | .halt e => checkExt 0x06 6 e
  | .tfence e => checkExt 0x06 7 e
  | .preqSave e => if (e.mod.extractLsb' 0 2).toNat = 0 then checkExt 0x06 8 e else some .badMod
  | .preqResume e => if (e.mod.extractLsb' 0 2).toNat = 1 then checkExt 0x06 8 e else some .badMod
  | .preqStat e => if (e.mod.extractLsb' 0 2).toNat = 2 then checkExt 0x06 8 e else some .badMod
  | .migrReq e => if (e.mod.extractLsb' 0 1).toNat = 0 then checkExt 0x06 9 e else some .badMod
  | .migrStat e => if (e.mod.extractLsb' 0 1).toNat = 1 then checkExt 0x06 9 e else some .badMod
  | .iaddBase b => checkBase 0x08 0 b none
  | .iaddExt x => checkX 0x08 0 x
  | .isubBase b => checkBase 0x08 1 b none
  | .isubExt x => checkX 0x08 1 x
  | .iminBase b => checkBase 0x08 2 b none
  | .iminExt x => checkX 0x08 2 x
  | .imaxBase b => checkBase 0x08 3 b none
  | .imaxExt x => checkX 0x08 3 x
  | .iabsBase b => checkBase 0x08 4 b none
  | .iabsExt x => checkX 0x08 4 x
  | .inegBase b => checkBase 0x08 5 b none
  | .inegExt x => checkX 0x08 5 x
  | .movBase b => checkBase 0x08 6 b none
  | .movExt x => checkX 0x08 6 x
  | .movi e => checkExt 0x08 7 e
  | .iadd3 e => checkExt 0x08 8 e
  | .lea e => checkExt 0x08 9 e
  | .sel e => checkExt 0x08 10 e
  | .isetp e => checkExt 0x08 11 e
  | .imulBase b => checkBase 0x09 0 b none
  | .imulExt x => checkX 0x09 0 x
  | .imulhBase b => checkBase 0x09 1 b none
  | .imulhExt x => checkX 0x09 1 x
  | .imad e => checkExt 0x09 2 e
  | .imadw e => checkExt 0x09 3 e
  | .dp4 e => checkExt 0x09 4 e
  | .andBase b => checkBase 0x0A 0 b none
  | .andExt x => checkX 0x0A 0 x
  | .orBase b => checkBase 0x0A 1 b none
  | .orExt x => checkX 0x0A 1 x
  | .xorBase b => checkBase 0x0A 2 b none
  | .xorExt x => checkX 0x0A 2 x
  | .notBase b => checkBase 0x0A 3 b none
  | .notExt x => checkX 0x0A 3 x
  | .blut e => checkExt 0x0A 4 e
  | .shlBase b => checkBase 0x0B 0 b none
  | .shlExt x => checkX 0x0B 0 x
  | .shrBase b => checkBase 0x0B 1 b none
  | .shrExt x => checkX 0x0B 1 x
  | .sarBase b => checkBase 0x0B 2 b none
  | .sarExt x => checkX 0x0B 2 x
  | .rolBase b => checkBase 0x0B 3 b none
  | .rolExt x => checkX 0x0B 3 x
  | .fshl e => checkExt 0x0B 4 e
  | .clzBase b => checkBase 0x0C 0 b none
  | .clzExt x => checkX 0x0C 0 x
  | .ctzBase b => checkBase 0x0C 1 b none
  | .ctzExt x => checkX 0x0C 1 x
  | .ffsBase b => checkBase 0x0C 2 b none
  | .ffsExt x => checkX 0x0C 2 x
  | .popcBase b => checkBase 0x0C 3 b none
  | .popcExt x => checkX 0x0C 3 x
  | .brevBase b => checkBase 0x0C 4 b none
  | .brevExt x => checkX 0x0C 4 x
  | .bfe e => checkExt 0x0C 5 e
  | .bfi e => checkExt 0x0C 6 e
  | .prmt e => checkExt 0x0C 7 e
  | .saddBase b => checkBase 0x10 0 b none
  | .saddExt x => checkX 0x10 0 x
  | .ssubBase b => checkBase 0x10 1 b none
  | .ssubExt x => checkX 0x10 1 x
  | .smulBase b => checkBase 0x10 2 b none
  | .smulExt x => checkX 0x10 2 x
  | .sminBase b => checkBase 0x10 3 b none
  | .sminExt x => checkX 0x10 3 x
  | .smaxBase b => checkBase 0x10 4 b none
  | .smaxExt x => checkX 0x10 4 x
  | .smovBase b => checkBase 0x10 5 b none
  | .smovExt x => checkX 0x10 5 x
  | .smad e => checkExt 0x10 6 e
  | .smovi e => checkExt 0x10 7 e
  | .ssetp e => checkExt 0x10 8 e
  | .ssel e => checkExt 0x10 9 e
  | .slea e => checkExt 0x10 10 e
  | .sandBase b => checkBase 0x11 0 b none
  | .sandExt x => checkX 0x11 0 x
  | .sorBase b => checkBase 0x11 1 b none
  | .sorExt x => checkX 0x11 1 x
  | .sxorBase b => checkBase 0x11 2 b none
  | .sxorExt x => checkX 0x11 2 x
  | .sshlBase b => checkBase 0x11 3 b none
  | .sshlExt x => checkX 0x11 3 x
  | .sshrBase b => checkBase 0x11 4 b none
  | .sshrExt x => checkX 0x11 4 x
  | .ssarBase b => checkBase 0x11 5 b none
  | .ssarExt x => checkX 0x11 5 x
  | .sld e => checkExt 0x12 0 e
  | .sst e => checkExt 0x12 1 e
  | .shfl e => checkExt 0x14 0 e
  | .vote e => checkExt 0x14 1 e
  | .ballot e => checkExt 0x14 2 e
  | .matchLanes e => checkExt 0x14 3 e
  | .rdlane e => checkExt 0x14 4 e
  | .wrlane e => checkExt 0x14 5 e
  | .reduce e => checkExt 0x15 0 e
  | .scan e => checkExt 0x15 1 e
  | .faddBase b => checkBase 0x18 0 b none
  | .faddExt x => checkX 0x18 0 x
  | .fsubBase b => checkBase 0x18 1 b none
  | .fsubExt x => checkX 0x18 1 x
  | .fmulBase b => checkBase 0x18 2 b none
  | .fmulExt x => checkX 0x18 2 x
  | .fminBase b => checkBase 0x18 3 b none
  | .fminExt x => checkX 0x18 3 x
  | .fmaxBase b => checkBase 0x18 4 b none
  | .fmaxExt x => checkX 0x18 4 x
  | .ffma e => checkExt 0x18 5 e
  | .fsetp e => checkExt 0x18 6 e
  | .fclass e => checkExt 0x18 7 e
  | .frnd e => checkExt 0x18 8 e
  | .fscale e => checkExt 0x18 9 e
  | .hadd2Base b => checkBase 0x19 0 b none
  | .hadd2Ext x => checkX 0x19 0 x
  | .hmul2Base b => checkBase 0x19 1 b none
  | .hmul2Ext x => checkX 0x19 1 x
  | .hmin2Base b => checkBase 0x19 2 b none
  | .hmin2Ext x => checkX 0x19 2 x
  | .hmax2Base b => checkBase 0x19 3 b none
  | .hmax2Ext x => checkX 0x19 3 x
  | .hfma2 e => checkExt 0x19 4 e
  | .fdot2 e => checkExt 0x19 5 e
  | .rcpBase b => checkBase 0x1E 0 b none
  | .rcpExt x => checkX 0x1E 0 x
  | .rsqBase b => checkBase 0x1E 1 b none
  | .rsqExt x => checkX 0x1E 1 x
  | .sqrtBase b => checkBase 0x1E 2 b none
  | .sqrtExt x => checkX 0x1E 2 x
  | .ex2Base b => checkBase 0x1E 3 b none
  | .ex2Ext x => checkX 0x1E 3 x
  | .lg2Base b => checkBase 0x1E 4 b none
  | .lg2Ext x => checkX 0x1E 4 x
  | .sinBase b => checkBase 0x1E 5 b none
  | .sinExt x => checkX 0x1E 5 x
  | .cosBase b => checkBase 0x1E 6 b none
  | .cosExt x => checkX 0x1E 6 x
  | .tanhBase b => checkBase 0x1E 7 b none
  | .tanhExt x => checkX 0x1E 7 x
  | .fcvt e => checkExt 0x1F 0 e
  | .f2i e => checkExt 0x1F 1 e
  | .i2f e => checkExt 0x1F 2 e
  | .fpack e => checkExt 0x1F 3 e
  | .ld e => checkExt 0x20 0 e
  | .ldp e => checkExt 0x20 1 e
  | .st e => checkExt 0x21 0 e
  | .mst e => checkExt 0x22 0 e
  | .rst e => checkExt 0x22 1 e
  | .pagereq e => checkExt 0x23 0 e
  | .prefetch e => checkExt 0x23 1 e
  | .atomAdd e => checkExt 0x24 0 e
  | .atomMin e => checkExt 0x24 1 e
  | .atomMax e => checkExt 0x24 2 e
  | .atomAnd e => checkExt 0x24 3 e
  | .atomOr e => checkExt 0x24 4 e
  | .atomXor e => checkExt 0x24 5 e
  | .atomExch e => checkExt 0x24 6 e
  | .cas e => checkExt 0x24 7 e
  | .redAdd e => checkExt 0x25 0 e
  | .redMin e => checkExt 0x25 1 e
  | .redMax e => checkExt 0x25 2 e
  | .redAnd e => checkExt 0x25 3 e
  | .redOr e => checkExt 0x25 4 e
  | .redXor e => checkExt 0x25 5 e
  | .fence e => checkExt 0x26 0 e
  | .cpfence e => checkExt 0x26 1 e
  | .cpy e => checkExt 0x27 0 e
  | .cpyt e => checkExt 0x27 1 e
  | .copyPrewalkDone .. => none
  | .copySectorLand .. => none
  | .lease e => checkExt 0x27 2 e
  | .lrel e => checkExt 0x27 3 e
  | .txbinit e => checkExt 0x27 4 e
  | .txbexp e => checkExt 0x27 5 e
  | .txbarr e => checkExt 0x27 6 e
  | .txbwait e => checkExt 0x27 7 e
  | .cinv e => checkExt 0x37 0 e
  | .cwb e => checkExt 0x37 1 e
  | .tlbinv e => if e.c.toNat = 0 then checkExt 0x37 2 e else some .badMod
  | .tlbinvAll e => if e.c.toNat = 1 then checkExt 0x37 2 e else some .badMod
  | .mma e => checkExt 0x28 0 e
  | .mmas e => checkExt 0x28 1 e
  | .matrixStep .. => none
  | .tmma e => checkExt 0x28 2 e
  | .tsqStep .. => none
  | .mzero e => checkExt 0x28 3 e
  | .mslot e => checkExt 0x29 0 e
  | .mstat e => checkExt 0x29 1 e
  | .mxeSlotBoundary => none
  | .futSplit e => checkExt 0x2C 0 e
  | .futEnter e => checkExt 0x2C 1 e
  | .futCommit e => checkExt 0x2C 2 e
  | .futureCommitPoint .. => none
  | .futSquash e => checkExt 0x2C 3 e
  | .futStat e => checkExt 0x2C 4 e
  | .futWaitDone e => if (e.mod.extractLsb' 0 1).toNat = 0 then checkExt 0x2C 5 e else some .badMod
  | .futWaitFree e => if (e.mod.extractLsb' 0 1).toNat = 1 then checkExt 0x2C 5 e else some .badMod
  | .squashDrainComplete .. => none
  | .tagReclaimComplete .. => none
  | .flip e => checkExt 0x2D 0 e
  | .ickpt e => checkExt 0x2D 1 e
  | .sinkSlotStart .. => none
  | .trace e => if (e.mod.extractLsb' 0 1).toNat = 0 then checkExt 0x30 0 e else some .badMod
  | .traceAh e => if (e.mod.extractLsb' 0 1).toNat = 1 then checkExt 0x30 0 e else some .badMod
  | .rayTraversalEnd .. => none
  | .rayCandidateReady .. => none
  | .rayget e => checkExt 0x30 5 e
  | .hitacc e => checkExt 0x30 2 e
  | .hitrej e => checkExt 0x30 3 e
  | .hitend e => checkExt 0x30 4 e
  | .beam e => checkExt 0x30 1 e
  | .beamComplete .. => none
  | .tex e => checkExt 0x31 0 e
  | .texg e => checkExt 0x31 1 e
  | .texq e => checkExt 0x31 2 e
  | .gatherResultReturn .. => none
  | .atlreq e => checkExt 0x32 0 e
  | .atlmap e => checkExt 0x32 1 e
  | .bldBuild e => checkExt 0x34 0 e
  | .bldRefit e => checkExt 0x34 1 e
  | .bldRebal e => checkExt 0x34 2 e
  | .buildJobComplete .. => none
  | .arenaExtensionService .. => none
  | .bldPub e => checkExt 0x34 3 e
  | .bldPin e => checkExt 0x34 4 e
  | .bldUnpin e => checkExt 0x34 5 e
  | .bldGen e => checkExt 0x34 6 e
  | .bldQual e => checkExt 0x34 7 e
  | .generationReclaimComplete .. => none
  | .sigrd e => checkExt 0x36 0 e
  | .sigchk e => checkExt 0x36 1 e
  | .replComparison .. => none
  | .replCompareTimeout .. => none
  | .intervalBoundary .. => none
  | .intervalCapture .. => none
  | .starvationBreak .. => none
  | .primaryWaveAgeLimit .. => none
  | .gangTier .. => none
  | .gangRecall .. => none
  | .templateInstanceStart .. => none
  | .queueEntryArrival .. => none
  | .queuePortResend .. => none
  | .verticalEntryArrival .. => none
  | .verticalPortResend .. => none
  | .queueCloseArrival .. => none
  | .stageCoreRebalance .. => none
  | .barrierTimeout .. => none
  | .convergeTimeout .. => none
  | .sleepExpire .. => none
  | .repackBudgetExpire .. => none
  | .loadResponse .. => none
  | .registrationRequest .. => none
  | .registryAck .. => none
  | .forwardedRequest .. => none
  | .l1Fill .. => none
  | .vacFill .. => none
  | .pageWalk .. => none
  | .mmpFaultService .. => none
  | .leaseExpire .. => none
  | .engineWayTimeout .. => none
  | .cxlMemRead .. => none
  | .cxlMemWrite .. => none
  | .snpInv .. => none
  | .snpData .. => none
  | .snpCur .. => none
  | .cxlCacheCompletion .. => none
  | .cxlCompletionTimeout .. => none
  | .peerWriteAck .. => none
  | .create .. => none
  | .reset .. => none
  | .resetComplete .. => none
  | .suspend .. => none
  | .resume .. => none
  | .destroy .. => none
  | .destroyComplete .. => none
  | .partCmdUnknown .. => none
  | .partLaunch .. => none
  | .requestRecordService .. => none
  | .hostEventPost .. => none
  | .hsvcAns .. => none
  | .hostEventTimeout .. => none
  | .fpoolWrite .. => none
  | .fscContractWrite .. => none
  | .sinkModeWrite .. => none
  | .vltPwrWrite .. => none
  | .vaultSlabWakeDone .. => none
  | .dbgCtlWrite .. => none
  | .dbgResume .. => none
  | .debugMemoryRead .. => none
  | .registerWrite .. => none
  | .fscPeriodStart .. => none
  | .fscBudgetExhausted .. => none
  | .fscPreempt .. => none
  | .preemptDeadline .. => none
  | .gangRestore .. => none
  | .emergencyImageCopy .. => none
  | .saveDivertTimeout .. => none
  | .thermalSensorSample .. => none
  | .migrationMove .. => none
  | .coolingLoopLoss .. => none
  | .nominalTableReturn => none
  | .perstDeassert .. => none
  | .firmwareReload .. => none
  | .ansRollback .. => none
  | .ansTerminate .. => none
  | .ansReset .. => none
  | .ansRelease .. => none
  | .replMismatchTimeout .. => none
  | .bondLaneTest .. => none
  | .gddr7Retrain .. => none
  | .hostLinkLoss => none
  | .suspendComplete .. => none
  | .backInvalidationComplete .. => none

/-- The instruction is well-formed: its words trap ILLEGAL_OP in none of the cases of R169 that do not depend on the
state of a fibre. -/
def Instr.wf (i : Instr) : Bool := i.check.isNone

end Sys2Proof
end

