-- ==== Sys2Proof/Decode.lean ====
section
/-! DEFINITION. The decoder, from 32-bit words to an instruction or a rejection by name (R152 to R169), total on
any words, and after it the encoder, written from the same layouts. -/

namespace Sys2Proof

/-! ### Fields of the first word -/

/-- LEN (R152). -/
def lenField (w : Word) : Nat := (w.extractLsb' 30 2).toNat
/-- MAJOR (R154). -/
def majorField (w : Word) : Nat := (w.extractLsb' 24 6).toNat
/-- The words of an instruction by LEN (R152). -/
def lenWords (w : Word) : Nat :=
  match lenField w with
  | 0 => 1
  | 3 => 5
  | _ => 3

/-! ### Unpacking -/

/-- Layout B0 (R155). -/
def unpackBase (w : Word) : Base :=
  { stall := w.extractLsb' 21 3, gn := w.getLsbD 20, gp := w.extractLsb' 17 3, d := w.extractLsb' 7 7, a := w.extractLsb' 0 7 }
/-- Layout B1 (R157). -/
def unpackBranch (w : Word) : BaseBranch :=
  { stall := w.extractLsb' 21 3, gn := w.getLsbD 20, gp := w.extractLsb' 17 3, off := w.extractLsb' 0 16 }
/-- REP (R158). -/
def unpackRep (w : Word) : RepWord :=
  { stall := w.extractLsb' 21 3, cnt := w.extractLsb' 11 6, md := w.getLsbD 10, ma := w.getLsbD 9, mb := w.getLsbD 8
    mc := w.getLsbD 7 }
/-- The extended form (R159). -/
def unpackExt (w0 w1 w2 : Word) (lit : Option DWord) : Ext :=
  { stall := w0.extractLsb' 21 3, gn := w0.getLsbD 20, gp := w0.extractLsb' 16 4, mod := w0.extractLsb' 0 10
    d := w1.extractLsb' 23 9, a := w1.extractLsb' 14 9, b := w1.extractLsb' 5 9, dk := w1.getLsbD 4, ak := w1.getLsbD 3
    bk := w1.extractLsb' 1 2, ck := w1.getLsbD 0
    c := w2.extractLsb' 23 9, ty := OpType.ofCode (w2.extractLsb' 19 4), pdv := w2.getLsbD 18, pd := w2.extractLsb' 14 4
    imm := w2.extractLsb' 0 14, lit := lit }
/-- A literal: its low word first (R152). -/
def litOf (lo hi : Word) : DWord := hi ++ lo

/-! ### The opcode map

Lean's code generator has no room for the tags of so many constructors, so what builds an `Instr` is not compiled;
the kernel evaluates it as it does any definition. -/

noncomputable section

/-- Major 0x01 of `ofExt`. -/
def ofExt01 (minor : Nat) (e : Ext) : Option Instr :=
  match minor with
  | 0 => some (.braExt (.ext e))
  | 1 => some (.callExt (.ext e))
  | 2 => some (.brx e)
  | 3 => some (.callx e)
  | 4 => some (.ret e)
  | _ => none

/-- Major 0x02 of `ofExt`. -/
def ofExt02 (minor : Nat) (e : Ext) : Option Instr :=
  match minor with
  | 0 => some (.fendExt e)
  | 1 => some (.yieldExt e)
  | 2 => some (.yieldp e)
  | 3 => some (.sleep e)
  | 4 => some (.wake e)
  | 5 => some (.spawn e)
  | 6 => some (.repack e)
  | _ => none

/-- Major 0x03 of `ofExt`. -/
def ofExt03 (minor : Nat) (e : Ext) : Option Instr :=
  match minor with
  | 0 => some (.gnew e)
  | 1 => some (.gjoin e)
  | 2 => some (.gleave e)
  | 3 => some (.gfree e)
  | 4 => some (.gbar e)
  | 5 => some (.garrive e)
  | 6 => some (.gwait e)
  | 7 => some (.cvset e)
  | 8 => some (.cvsign e)
  | 9 => some (.cvwait e)
  | _ => none

/-- Major 0x04 of `ofExt`. -/
def ofExt04 (minor : Nat) (e : Ext) : Option Instr :=
  match minor with
  | 0 => some (.qpush e)
  | 1 => some (.qpop e)
  | 2 => some (.qpeek e)
  | 3 => some (.qclose e)
  | _ => none

/-- Major 0x05 of `ofExt`. -/
def ofExt05 (minor : Nat) (e : Ext) : Option Instr :=
  match minor with
  | 0 => some (.launch e)
  | 1 => some (.lwait e)
  | _ => none

/-- Major 0x06 of `ofExt`. -/
def ofExt06 (minor : Nat) (e : Ext) : Option Instr :=
  match minor with
  | 0 => some (.getsr e)
  | 1 => some (.setsr e)
  | 2 => some (.trap e)
  | 3 => some (.syscall e)
  | 4 => if (e.mod.extractLsb' 0 2).toNat = 0 then some (.eretRetry e) else if (e.mod.extractLsb' 0 2).toNat = 1 then some (.eretSkip e) else if (e.mod.extractLsb' 0 2).toNat = 2 then some (.eretEnd e) else none
  | 5 => some (.bkpt e)
  | 6 => some (.halt e)
  | 7 => some (.tfence e)
  | 8 => if (e.mod.extractLsb' 0 2).toNat = 0 then some (.preqSave e) else if (e.mod.extractLsb' 0 2).toNat = 1 then some (.preqResume e) else if (e.mod.extractLsb' 0 2).toNat = 2 then some (.preqStat e) else none
  | 9 => if (e.mod.extractLsb' 0 1).toNat = 0 then some (.migrReq e) else some (.migrStat e)
  | _ => none

/-- Major 0x08 of `ofExt`. -/
def ofExt08 (minor : Nat) (e : Ext) : Option Instr :=
  match minor with
  | 0 => some (.iaddExt (.ext e))
  | 1 => some (.isubExt (.ext e))
  | 2 => some (.iminExt (.ext e))
  | 3 => some (.imaxExt (.ext e))
  | 4 => some (.iabsExt (.ext e))
  | 5 => some (.inegExt (.ext e))
  | 6 => some (.movExt (.ext e))
  | 7 => some (.movi e)
  | 8 => some (.iadd3 e)
  | 9 => some (.lea e)
  | 10 => some (.sel e)
  | 11 => some (.isetp e)
  | _ => none

/-- Major 0x09 of `ofExt`. -/
def ofExt09 (minor : Nat) (e : Ext) : Option Instr :=
  match minor with
  | 0 => some (.imulExt (.ext e))
  | 1 => some (.imulhExt (.ext e))
  | 2 => some (.imad e)
  | 3 => some (.imadw e)
  | 4 => some (.dp4 e)
  | _ => none

/-- Major 0x0A of `ofExt`. -/
def ofExt0A (minor : Nat) (e : Ext) : Option Instr :=
  match minor with
  | 0 => some (.andExt (.ext e))
  | 1 => some (.orExt (.ext e))
  | 2 => some (.xorExt (.ext e))
  | 3 => some (.notExt (.ext e))
  | 4 => some (.blut e)
  | _ => none

/-- Major 0x0B of `ofExt`. -/
def ofExt0B (minor : Nat) (e : Ext) : Option Instr :=
  match minor with
  | 0 => some (.shlExt (.ext e))
  | 1 => some (.shrExt (.ext e))
  | 2 => some (.sarExt (.ext e))
  | 3 => some (.rolExt (.ext e))
  | 4 => some (.fshl e)
  | _ => none

/-- Major 0x0C of `ofExt`. -/
def ofExt0C (minor : Nat) (e : Ext) : Option Instr :=
  match minor with
  | 0 => some (.clzExt (.ext e))
  | 1 => some (.ctzExt (.ext e))
  | 2 => some (.ffsExt (.ext e))
  | 3 => some (.popcExt (.ext e))
  | 4 => some (.brevExt (.ext e))
  | 5 => some (.bfe e)
  | 6 => some (.bfi e)
  | 7 => some (.prmt e)
  | _ => none

/-- Major 0x10 of `ofExt`. -/
def ofExt10 (minor : Nat) (e : Ext) : Option Instr :=
  match minor with
  | 0 => some (.saddExt (.ext e))
  | 1 => some (.ssubExt (.ext e))
  | 2 => some (.smulExt (.ext e))
  | 3 => some (.sminExt (.ext e))
  | 4 => some (.smaxExt (.ext e))
  | 5 => some (.smovExt (.ext e))
  | 6 => some (.smad e)
  | 7 => some (.smovi e)
  | 8 => some (.ssetp e)
  | 9 => some (.ssel e)
  | 10 => some (.slea e)
  | _ => none

/-- Major 0x11 of `ofExt`. -/
def ofExt11 (minor : Nat) (e : Ext) : Option Instr :=
  match minor with
  | 0 => some (.sandExt (.ext e))
  | 1 => some (.sorExt (.ext e))
  | 2 => some (.sxorExt (.ext e))
  | 3 => some (.sshlExt (.ext e))
  | 4 => some (.sshrExt (.ext e))
  | 5 => some (.ssarExt (.ext e))
  | _ => none

/-- Major 0x12 of `ofExt`. -/
def ofExt12 (minor : Nat) (e : Ext) : Option Instr :=
  match minor with
  | 0 => some (.sld e)
  | 1 => some (.sst e)
  | _ => none

/-- Major 0x14 of `ofExt`. -/
def ofExt14 (minor : Nat) (e : Ext) : Option Instr :=
  match minor with
  | 0 => some (.shfl e)
  | 1 => some (.vote e)
  | 2 => some (.ballot e)
  | 3 => some (.matchLanes e)
  | 4 => some (.rdlane e)
  | 5 => some (.wrlane e)
  | _ => none

/-- Major 0x15 of `ofExt`. -/
def ofExt15 (minor : Nat) (e : Ext) : Option Instr :=
  match minor with
  | 0 => some (.reduce e)
  | 1 => some (.scan e)
  | _ => none

/-- Major 0x18 of `ofExt`. -/
def ofExt18 (minor : Nat) (e : Ext) : Option Instr :=
  match minor with
  | 0 => some (.faddExt (.ext e))
  | 1 => some (.fsubExt (.ext e))
  | 2 => some (.fmulExt (.ext e))
  | 3 => some (.fminExt (.ext e))
  | 4 => some (.fmaxExt (.ext e))
  | 5 => some (.ffma e)
  | 6 => some (.fsetp e)
  | 7 => some (.fclass e)
  | 8 => some (.frnd e)
  | 9 => some (.fscale e)
  | _ => none

/-- Major 0x19 of `ofExt`. -/
def ofExt19 (minor : Nat) (e : Ext) : Option Instr :=
  match minor with
  | 0 => some (.hadd2Ext (.ext e))
  | 1 => some (.hmul2Ext (.ext e))
  | 2 => some (.hmin2Ext (.ext e))
  | 3 => some (.hmax2Ext (.ext e))
  | 4 => some (.hfma2 e)
  | 5 => some (.fdot2 e)
  | _ => none

/-- Major 0x1E of `ofExt`. -/
def ofExt1E (minor : Nat) (e : Ext) : Option Instr :=
  match minor with
  | 0 => some (.rcpExt (.ext e))
  | 1 => some (.rsqExt (.ext e))
  | 2 => some (.sqrtExt (.ext e))
  | 3 => some (.ex2Ext (.ext e))
  | 4 => some (.lg2Ext (.ext e))
  | 5 => some (.sinExt (.ext e))
  | 6 => some (.cosExt (.ext e))
  | 7 => some (.tanhExt (.ext e))
  | _ => none

/-- Major 0x1F of `ofExt`. -/
def ofExt1F (minor : Nat) (e : Ext) : Option Instr :=
  match minor with
  | 0 => some (.fcvt e)
  | 1 => some (.f2i e)
  | 2 => some (.i2f e)
  | 3 => some (.fpack e)
  | _ => none

/-- Major 0x20 of `ofExt`. -/
def ofExt20 (minor : Nat) (e : Ext) : Option Instr :=
  match minor with
  | 0 => some (.ld e)
  | 1 => some (.ldp e)
  | _ => none

/-- Major 0x21 of `ofExt`. -/
def ofExt21 (minor : Nat) (e : Ext) : Option Instr :=
  match minor with
  | 0 => some (.st e)
  | _ => none

/-- Major 0x22 of `ofExt`. -/
def ofExt22 (minor : Nat) (e : Ext) : Option Instr :=
  match minor with
  | 0 => some (.mst e)
  | 1 => some (.rst e)
  | _ => none

/-- Major 0x23 of `ofExt`. -/
def ofExt23 (minor : Nat) (e : Ext) : Option Instr :=
  match minor with
  | 0 => some (.pagereq e)
  | 1 => some (.prefetch e)
  | _ => none

/-- Major 0x24 of `ofExt`. -/
def ofExt24 (minor : Nat) (e : Ext) : Option Instr :=
  match minor with
  | 0 => some (.atomAdd e)
  | 1 => some (.atomMin e)
  | 2 => some (.atomMax e)
  | 3 => some (.atomAnd e)
  | 4 => some (.atomOr e)
  | 5 => some (.atomXor e)
  | 6 => some (.atomExch e)
  | 7 => some (.cas e)
  | _ => none

/-- Major 0x25 of `ofExt`. -/
def ofExt25 (minor : Nat) (e : Ext) : Option Instr :=
  match minor with
  | 0 => some (.redAdd e)
  | 1 => some (.redMin e)
  | 2 => some (.redMax e)
  | 3 => some (.redAnd e)
  | 4 => some (.redOr e)
  | 5 => some (.redXor e)
  | _ => none

/-- Major 0x26 of `ofExt`. -/
def ofExt26 (minor : Nat) (e : Ext) : Option Instr :=
  match minor with
  | 0 => some (.fence e)
  | 1 => some (.cpfence e)
  | _ => none

/-- Major 0x27 of `ofExt`. -/
def ofExt27 (minor : Nat) (e : Ext) : Option Instr :=
  match minor with
  | 0 => some (.cpy e)
  | 1 => some (.cpyt e)
  | 2 => some (.lease e)
  | 3 => some (.lrel e)
  | 4 => some (.txbinit e)
  | 5 => some (.txbexp e)
  | 6 => some (.txbarr e)
  | 7 => some (.txbwait e)
  | _ => none

/-- Major 0x28 of `ofExt`. -/
def ofExt28 (minor : Nat) (e : Ext) : Option Instr :=
  match minor with
  | 0 => some (.mma e)
  | 1 => some (.mmas e)
  | 2 => some (.tmma e)
  | 3 => some (.mzero e)
  | _ => none

/-- Major 0x29 of `ofExt`. -/
def ofExt29 (minor : Nat) (e : Ext) : Option Instr :=
  match minor with
  | 0 => some (.mslot e)
  | 1 => some (.mstat e)
  | _ => none

/-- Major 0x2C of `ofExt`. -/
def ofExt2C (minor : Nat) (e : Ext) : Option Instr :=
  match minor with
  | 0 => some (.futSplit e)
  | 1 => some (.futEnter e)
  | 2 => some (.futCommit e)
  | 3 => some (.futSquash e)
  | 4 => some (.futStat e)
  | 5 => if (e.mod.extractLsb' 0 1).toNat = 0 then some (.futWaitDone e) else some (.futWaitFree e)
  | _ => none

/-- Major 0x2D of `ofExt`. -/
def ofExt2D (minor : Nat) (e : Ext) : Option Instr :=
  match minor with
  | 0 => some (.flip e)
  | 1 => some (.ickpt e)
  | _ => none

/-- Major 0x30 of `ofExt`. -/
def ofExt30 (minor : Nat) (e : Ext) : Option Instr :=
  match minor with
  | 0 => if (e.mod.extractLsb' 0 1).toNat = 0 then some (.trace e) else some (.traceAh e)
  | 1 => some (.beam e)
  | 2 => some (.hitacc e)
  | 3 => some (.hitrej e)
  | 4 => some (.hitend e)
  | 5 => some (.rayget e)
  | _ => none

/-- Major 0x31 of `ofExt`. -/
def ofExt31 (minor : Nat) (e : Ext) : Option Instr :=
  match minor with
  | 0 => some (.tex e)
  | 1 => some (.texg e)
  | 2 => some (.texq e)
  | _ => none

/-- Major 0x32 of `ofExt`. -/
def ofExt32 (minor : Nat) (e : Ext) : Option Instr :=
  match minor with
  | 0 => some (.atlreq e)
  | 1 => some (.atlmap e)
  | _ => none

/-- Major 0x34 of `ofExt`. -/
def ofExt34 (minor : Nat) (e : Ext) : Option Instr :=
  match minor with
  | 0 => some (.bldBuild e)
  | 1 => some (.bldRefit e)
  | 2 => some (.bldRebal e)
  | 3 => some (.bldPub e)
  | 4 => some (.bldPin e)
  | 5 => some (.bldUnpin e)
  | 6 => some (.bldGen e)
  | 7 => some (.bldQual e)
  | _ => none

/-- Major 0x36 of `ofExt`. -/
def ofExt36 (minor : Nat) (e : Ext) : Option Instr :=
  match minor with
  | 0 => some (.sigrd e)
  | 1 => some (.sigchk e)
  | _ => none

/-- Major 0x37 of `ofExt`. -/
def ofExt37 (minor : Nat) (e : Ext) : Option Instr :=
  match minor with
  | 0 => some (.cinv e)
  | 1 => some (.cwb e)
  | 2 => if e.c.toNat = 0 then some (.tlbinv e) else if e.c.toNat = 1 then some (.tlbinvAll e) else none
  | _ => none

/-- The instruction of an extended form by the opcode map (R167). -/
def ofExt (major minor : Nat) (e : Ext) : Option Instr :=
  match major with
  | 0x01 => ofExt01 minor e
  | 0x02 => ofExt02 minor e
  | 0x03 => ofExt03 minor e
  | 0x04 => ofExt04 minor e
  | 0x05 => ofExt05 minor e
  | 0x06 => ofExt06 minor e
  | 0x08 => ofExt08 minor e
  | 0x09 => ofExt09 minor e
  | 0x0A => ofExt0A minor e
  | 0x0B => ofExt0B minor e
  | 0x0C => ofExt0C minor e
  | 0x10 => ofExt10 minor e
  | 0x11 => ofExt11 minor e
  | 0x12 => ofExt12 minor e
  | 0x14 => ofExt14 minor e
  | 0x15 => ofExt15 minor e
  | 0x18 => ofExt18 minor e
  | 0x19 => ofExt19 minor e
  | 0x1E => ofExt1E minor e
  | 0x1F => ofExt1F minor e
  | 0x20 => ofExt20 minor e
  | 0x21 => ofExt21 minor e
  | 0x22 => ofExt22 minor e
  | 0x23 => ofExt23 minor e
  | 0x24 => ofExt24 minor e
  | 0x25 => ofExt25 minor e
  | 0x26 => ofExt26 minor e
  | 0x27 => ofExt27 minor e
  | 0x28 => ofExt28 minor e
  | 0x29 => ofExt29 minor e
  | 0x2C => ofExt2C minor e
  | 0x2D => ofExt2D minor e
  | 0x30 => ofExt30 minor e
  | 0x31 => ofExt31 minor e
  | 0x32 => ofExt32 minor e
  | 0x34 => ofExt34 minor e
  | 0x36 => ofExt36 minor e
  | 0x37 => ofExt37 minor e
  | _ => none

/-- Major 0x02 of `ofBase`. -/
def ofBase02 (minor : Nat) (b : Base) : Option Instr :=
  match minor with
  | 0 => some (.fendBase b)
  | 1 => some (.yieldBase b)
  | _ => none

/-- Major 0x08 of `ofBase`. -/
def ofBase08 (minor : Nat) (b : Base) : Option Instr :=
  match minor with
  | 0 => some (.iaddBase b)
  | 1 => some (.isubBase b)
  | 2 => some (.iminBase b)
  | 3 => some (.imaxBase b)
  | 4 => some (.iabsBase b)
  | 5 => some (.inegBase b)
  | 6 => some (.movBase b)
  | _ => none

/-- Major 0x09 of `ofBase`. -/
def ofBase09 (minor : Nat) (b : Base) : Option Instr :=
  match minor with
  | 0 => some (.imulBase b)
  | 1 => some (.imulhBase b)
  | _ => none

/-- Major 0x0A of `ofBase`. -/
def ofBase0A (minor : Nat) (b : Base) : Option Instr :=
  match minor with
  | 0 => some (.andBase b)
  | 1 => some (.orBase b)
  | 2 => some (.xorBase b)
  | 3 => some (.notBase b)
  | _ => none

/-- Major 0x0B of `ofBase`. -/
def ofBase0B (minor : Nat) (b : Base) : Option Instr :=
  match minor with
  | 0 => some (.shlBase b)
  | 1 => some (.shrBase b)
  | 2 => some (.sarBase b)
  | 3 => some (.rolBase b)
  | _ => none

/-- Major 0x0C of `ofBase`. -/
def ofBase0C (minor : Nat) (b : Base) : Option Instr :=
  match minor with
  | 0 => some (.clzBase b)
  | 1 => some (.ctzBase b)
  | 2 => some (.ffsBase b)
  | 3 => some (.popcBase b)
  | 4 => some (.brevBase b)
  | _ => none

/-- Major 0x10 of `ofBase`. -/
def ofBase10 (minor : Nat) (b : Base) : Option Instr :=
  match minor with
  | 0 => some (.saddBase b)
  | 1 => some (.ssubBase b)
  | 2 => some (.smulBase b)
  | 3 => some (.sminBase b)
  | 4 => some (.smaxBase b)
  | 5 => some (.smovBase b)
  | _ => none

/-- Major 0x11 of `ofBase`. -/
def ofBase11 (minor : Nat) (b : Base) : Option Instr :=
  match minor with
  | 0 => some (.sandBase b)
  | 1 => some (.sorBase b)
  | 2 => some (.sxorBase b)
  | 3 => some (.sshlBase b)
  | 4 => some (.sshrBase b)
  | 5 => some (.ssarBase b)
  | _ => none

/-- Major 0x18 of `ofBase`. -/
def ofBase18 (minor : Nat) (b : Base) : Option Instr :=
  match minor with
  | 0 => some (.faddBase b)
  | 1 => some (.fsubBase b)
  | 2 => some (.fmulBase b)
  | 3 => some (.fminBase b)
  | 4 => some (.fmaxBase b)
  | _ => none

/-- Major 0x19 of `ofBase`. -/
def ofBase19 (minor : Nat) (b : Base) : Option Instr :=
  match minor with
  | 0 => some (.hadd2Base b)
  | 1 => some (.hmul2Base b)
  | 2 => some (.hmin2Base b)
  | 3 => some (.hmax2Base b)
  | _ => none

/-- Major 0x1E of `ofBase`. -/
def ofBase1E (minor : Nat) (b : Base) : Option Instr :=
  match minor with
  | 0 => some (.rcpBase b)
  | 1 => some (.rsqBase b)
  | 2 => some (.sqrtBase b)
  | 3 => some (.ex2Base b)
  | 4 => some (.lg2Base b)
  | 5 => some (.sinBase b)
  | 6 => some (.cosBase b)
  | 7 => some (.tanhBase b)
  | _ => none

/-- The instruction of a B0 word (R155, R167). -/
def ofBase (major minor : Nat) (b : Base) : Option Instr :=
  match major with
  | 0x02 => ofBase02 minor b
  | 0x08 => ofBase08 minor b
  | 0x09 => ofBase09 minor b
  | 0x0A => ofBase0A minor b
  | 0x0B => ofBase0B minor b
  | 0x0C => ofBase0C minor b
  | 0x10 => ofBase10 minor b
  | 0x11 => ofBase11 minor b
  | 0x18 => ofBase18 minor b
  | 0x19 => ofBase19 minor b
  | 0x1E => ofBase1E minor b
  | _ => none

/-- Major 0x08 of `ofBaseLit`. -/
def ofBaseLit08 (minor : Nat) (b : Base) (lit : DWord) : Option Instr :=
  match minor with
  | 0 => some (.iaddExt (.baseLit b lit))
  | 1 => some (.isubExt (.baseLit b lit))
  | 2 => some (.iminExt (.baseLit b lit))
  | 3 => some (.imaxExt (.baseLit b lit))
  | 4 => some (.iabsExt (.baseLit b lit))
  | 5 => some (.inegExt (.baseLit b lit))
  | 6 => some (.movExt (.baseLit b lit))
  | _ => none

/-- Major 0x09 of `ofBaseLit`. -/
def ofBaseLit09 (minor : Nat) (b : Base) (lit : DWord) : Option Instr :=
  match minor with
  | 0 => some (.imulExt (.baseLit b lit))
  | 1 => some (.imulhExt (.baseLit b lit))
  | _ => none

/-- Major 0x0A of `ofBaseLit`. -/
def ofBaseLit0A (minor : Nat) (b : Base) (lit : DWord) : Option Instr :=
  match minor with
  | 0 => some (.andExt (.baseLit b lit))
  | 1 => some (.orExt (.baseLit b lit))
  | 2 => some (.xorExt (.baseLit b lit))
  | 3 => some (.notExt (.baseLit b lit))
  | _ => none

/-- Major 0x0B of `ofBaseLit`. -/
def ofBaseLit0B (minor : Nat) (b : Base) (lit : DWord) : Option Instr :=
  match minor with
  | 0 => some (.shlExt (.baseLit b lit))
  | 1 => some (.shrExt (.baseLit b lit))
  | 2 => some (.sarExt (.baseLit b lit))
  | 3 => some (.rolExt (.baseLit b lit))
  | _ => none

/-- Major 0x0C of `ofBaseLit`. -/
def ofBaseLit0C (minor : Nat) (b : Base) (lit : DWord) : Option Instr :=
  match minor with
  | 0 => some (.clzExt (.baseLit b lit))
  | 1 => some (.ctzExt (.baseLit b lit))
  | 2 => some (.ffsExt (.baseLit b lit))
  | 3 => some (.popcExt (.baseLit b lit))
  | 4 => some (.brevExt (.baseLit b lit))
  | _ => none

/-- Major 0x10 of `ofBaseLit`. -/
def ofBaseLit10 (minor : Nat) (b : Base) (lit : DWord) : Option Instr :=
  match minor with
  | 0 => some (.saddExt (.baseLit b lit))
  | 1 => some (.ssubExt (.baseLit b lit))
  | 2 => some (.smulExt (.baseLit b lit))
  | 3 => some (.sminExt (.baseLit b lit))
  | 4 => some (.smaxExt (.baseLit b lit))
  | 5 => some (.smovExt (.baseLit b lit))
  | _ => none

/-- Major 0x11 of `ofBaseLit`. -/
def ofBaseLit11 (minor : Nat) (b : Base) (lit : DWord) : Option Instr :=
  match minor with
  | 0 => some (.sandExt (.baseLit b lit))
  | 1 => some (.sorExt (.baseLit b lit))
  | 2 => some (.sxorExt (.baseLit b lit))
  | 3 => some (.sshlExt (.baseLit b lit))
  | 4 => some (.sshrExt (.baseLit b lit))
  | 5 => some (.ssarExt (.baseLit b lit))
  | _ => none

/-- Major 0x18 of `ofBaseLit`. -/
def ofBaseLit18 (minor : Nat) (b : Base) (lit : DWord) : Option Instr :=
  match minor with
  | 0 => some (.faddExt (.baseLit b lit))
  | 1 => some (.fsubExt (.baseLit b lit))
  | 2 => some (.fmulExt (.baseLit b lit))
  | 3 => some (.fminExt (.baseLit b lit))
  | 4 => some (.fmaxExt (.baseLit b lit))
  | _ => none

/-- Major 0x19 of `ofBaseLit`. -/
def ofBaseLit19 (minor : Nat) (b : Base) (lit : DWord) : Option Instr :=
  match minor with
  | 0 => some (.hadd2Ext (.baseLit b lit))
  | 1 => some (.hmul2Ext (.baseLit b lit))
  | 2 => some (.hmin2Ext (.baseLit b lit))
  | 3 => some (.hmax2Ext (.baseLit b lit))
  | _ => none

/-- Major 0x1E of `ofBaseLit`. -/
def ofBaseLit1E (minor : Nat) (b : Base) (lit : DWord) : Option Instr :=
  match minor with
  | 0 => some (.rcpExt (.baseLit b lit))
  | 1 => some (.rsqExt (.baseLit b lit))
  | 2 => some (.sqrtExt (.baseLit b lit))
  | 3 => some (.ex2Ext (.baseLit b lit))
  | 4 => some (.lg2Ext (.baseLit b lit))
  | 5 => some (.sinExt (.baseLit b lit))
  | 6 => some (.cosExt (.baseLit b lit))
  | 7 => some (.tanhExt (.baseLit b lit))
  | _ => none

/-- The instruction of a B0 word with a literal (R156, R167). -/
def ofBaseLit (major minor : Nat) (b : Base) (lit : DWord) : Option Instr :=
  match major with
  | 0x08 => ofBaseLit08 minor b lit
  | 0x09 => ofBaseLit09 minor b lit
  | 0x0A => ofBaseLit0A minor b lit
  | 0x0B => ofBaseLit0B minor b lit
  | 0x0C => ofBaseLit0C minor b lit
  | 0x10 => ofBaseLit10 minor b lit
  | 0x11 => ofBaseLit11 minor b lit
  | 0x18 => ofBaseLit18 minor b lit
  | 0x19 => ofBaseLit19 minor b lit
  | 0x1E => ofBaseLit1E minor b lit
  | _ => none

/-! ### Decoding -/

/-- Keep an instruction that passes its static check. -/
def checked (o : Option Instr) : Except Reject Instr :=
  match o with
  | none => .error .reserved
  | some i =>
    match i.check with
    | none => .ok i
    | some r => .error r

/-- Major 0x00 (R158). -/
def decodeZero (w : Word) : Except Reject Instr :=
  if lenField w ≠ 0 then .error .noBase
  else match (w.extractLsb' 17 4).toNat with
    | 0 => if w.extractLsb' 0 17 = 0 then .ok (.nop (w.extractLsb' 21 3)) else .error .badSub
    | 1 => if w.extractLsb' 0 7 = 0 then .ok (.rep (unpackRep w)) else .error .badSub
    | _ => .error .badSub

/-- A base word, with its literal under LEN 10 (R155 to R157, R168). -/
def decodeBase (w : Word) (lit : Option DWord) : Except Reject Instr :=
  let major := majorField w
  let minor := (w.extractLsb' 14 3).toNat
  if major = 1 then
    match w.getLsbD 16, lit with
    | false, none => .ok (.braBase (unpackBranch w))
    | true, none => .ok (.callBase (unpackBranch w))
    | false, some l => checked (some (.braExt (.baseLit (unpackBranch w) l)))
    | true, some l => checked (some (.callExt (.baseLit (unpackBranch w) l)))
  else if !hasBase major minor then
    .error (if (formOf major minor (expandBase major minor (unpackBase w) none)).isNone then .reserved else .noBase)
  else
    match lit with
    | none => checked (ofBase major minor (unpackBase w))
    | some l =>
      if baseSources major minor = 0 then .error .literal else checked (ofBaseLit major minor (unpackBase w) l)

/-- The extended form (R159). -/
def decodeExt (w0 w1 w2 : Word) (lit : Option DWord) : Except Reject Instr :=
  checked (ofExt (majorField w0) (w0.extractLsb' 10 6).toNat (unpackExt w0 w1 w2 lit))

/-- Decode the instruction at the head of a list of words, and return the words after it (R152). -/
def decode : List Word → Except Reject (Instr × List Word)
  | [] => .error .truncated
  | w0 :: r0 =>
    if majorField w0 = 0 then (decodeZero w0).map (·, r0)
    else match lenField w0, r0 with
      | 0, r => (decodeBase w0 none).map (·, r)
      | 2, w1 :: w2 :: r => (decodeBase w0 (some (litOf w1 w2))).map (·, r)
      | 1, w1 :: w2 :: r => (decodeExt w0 w1 w2 none).map (·, r)
      | 3, w1 :: w2 :: w3 :: w4 :: r => (decodeExt w0 w1 w2 (some (litOf w3 w4))).map (·, r)
      | _, _ => .error .truncated

/-- The words of a number whose bit 0 is the least significant bit of the first word. -/
def wordsOfNat : Nat → Nat → List Word
  | 0, _ => []
  | n + 1, v => BitVec.ofNat 32 v :: wordsOfNat n (v / 2 ^ 32)

/-- The instruction the decoder reads from `nbits` bits numbered as the opcode table numbers them; the bits above
are zero, up to the longest instruction of five words. -/
def decodeTableWord (nbits w : Nat) : Option Instr :=
  match decode (wordsOfNat 5 (w % 2 ^ nbits)) with
  | .ok (i, _) => some i
  | .error _ => none

end

/-! ### The encoder -/

/-- Layout B0 (R155). -/
def packBase (len : BitVec 2) (major : BitVec 6) (minor : BitVec 3) (b : Base) : Word :=
  len ++ major ++ b.stall ++ BitVec.ofBool b.gn ++ b.gp ++ minor ++ b.d ++ b.a
/-- Layout B1 (R157). -/
def packBranch (len : BitVec 2) (link : Bool) (b : BaseBranch) : Word :=
  len ++ 1#6 ++ b.stall ++ BitVec.ofBool b.gn ++ b.gp ++ BitVec.ofBool link ++ b.off
/-- NOP (R158). -/
def packNop (stall : BitVec 3) : Word := 0#8 ++ stall ++ 0#21
/-- REP (R158). -/
def packRep (r : RepWord) : Word :=
  0#8 ++ r.stall ++ 1#4 ++ r.cnt ++ BitVec.ofBool r.md ++ BitVec.ofBool r.ma ++ BitVec.ofBool r.mb ++ BitVec.ofBool r.mc ++ 0#7
/-- Word 0 of the extended form (R159). -/
def packExt0 (len : BitVec 2) (major minor : BitVec 6) (e : Ext) : Word :=
  len ++ major ++ e.stall ++ BitVec.ofBool e.gn ++ e.gp ++ minor ++ e.mod
/-- Word 1 of the extended form (R159). -/
def packExt1 (e : Ext) : Word :=
  e.d ++ e.a ++ e.b ++ BitVec.ofBool e.dk ++ BitVec.ofBool e.ak ++ e.bk ++ BitVec.ofBool e.ck
/-- Word 2 of the extended form (R159). -/
def packExt2 (e : Ext) : Word := e.c ++ e.ty.code ++ BitVec.ofBool e.pdv ++ e.pd ++ e.imm
/-- The words of a literal (R152). -/
def litWords (l : DWord) : List Word := [l.extractLsb' 0 32, l.extractLsb' 32 32]

/-- The words of an extended form. -/
def encodeExt (major minor : BitVec 6) (e : Ext) : List Word :=
  match e.lit with
  | none => [packExt0 1 major minor e, packExt1 e, packExt2 e]
  | some l => [packExt0 3 major minor e, packExt1 e, packExt2 e] ++ litWords l
/-- The words of a longer form. -/
def encodeX (major minor : BitVec 6) : XForm → List Word
  | .ext e => encodeExt major minor e
  | .baseLit b l => packBase 2 major (minor.setWidth 3) b :: litWords l
/-- The words of a longer form of BRA or CALL. -/
def encodeBranch (link : Bool) : BranchForm → List Word
  | .ext e => encodeExt 1 (if link then 1 else 0) e
  | .baseLit b l => packBranch 2 link b :: litWords l

/-- The words of an instruction; an event has none. -/
def encode : Instr → List Word
  | .nop st => [packNop st]
  | .rep r => [packRep r]
  | .braBase b => [packBranch 0 false b]
  | .braExt x => encodeBranch false x
  | .callBase b => [packBranch 0 true b]
  | .callExt x => encodeBranch true x
  | .brx e => encodeExt 0x01 2 e
  | .callx e => encodeExt 0x01 3 e
  | .ret e => encodeExt 0x01 4 e
  | .fendBase b => [packBase 0 0x02 0 b]
  | .fendExt e => encodeExt 0x02 0 e
  | .yieldBase b => [packBase 0 0x02 1 b]
  | .yieldExt e => encodeExt 0x02 1 e
  | .yieldp e => encodeExt 0x02 2 e
  | .sleep e => encodeExt 0x02 3 e
  | .wake e => encodeExt 0x02 4 e
  | .spawn e => encodeExt 0x02 5 e
  | .repack e => encodeExt 0x02 6 e
  | .gnew e => encodeExt 0x03 0 e
  | .gjoin e => encodeExt 0x03 1 e
  | .gleave e => encodeExt 0x03 2 e
  | .gfree e => encodeExt 0x03 3 e
  | .gbar e => encodeExt 0x03 4 e
  | .garrive e => encodeExt 0x03 5 e
  | .gwait e => encodeExt 0x03 6 e
  | .cvset e => encodeExt 0x03 7 e
  | .cvsign e => encodeExt 0x03 8 e
  | .cvwait e => encodeExt 0x03 9 e
  | .qpush e => encodeExt 0x04 0 e
  | .qpop e => encodeExt 0x04 1 e
  | .qpeek e => encodeExt 0x04 2 e
  | .qclose e => encodeExt 0x04 3 e
  | .launch e => encodeExt 0x05 0 e
  | .lwait e => encodeExt 0x05 1 e
  | .getsr e => encodeExt 0x06 0 e
  | .setsr e => encodeExt 0x06 1 e
  | .trap e => encodeExt 0x06 2 e
  | .syscall e => encodeExt 0x06 3 e
  | .eretRetry e => encodeExt 0x06 4 e
  | .eretSkip e => encodeExt 0x06 4 e
  | .eretEnd e => encodeExt 0x06 4 e
  | .bkpt e => encodeExt 0x06 5 e
  | .halt e => encodeExt 0x06 6 e
  | .tfence e => encodeExt 0x06 7 e
  | .preqSave e => encodeExt 0x06 8 e
  | .preqResume e => encodeExt 0x06 8 e
  | .preqStat e => encodeExt 0x06 8 e
  | .migrReq e => encodeExt 0x06 9 e
  | .migrStat e => encodeExt 0x06 9 e
  | .iaddBase b => [packBase 0 0x08 0 b]
  | .iaddExt x => encodeX 0x08 0 x
  | .isubBase b => [packBase 0 0x08 1 b]
  | .isubExt x => encodeX 0x08 1 x
  | .iminBase b => [packBase 0 0x08 2 b]
  | .iminExt x => encodeX 0x08 2 x
  | .imaxBase b => [packBase 0 0x08 3 b]
  | .imaxExt x => encodeX 0x08 3 x
  | .iabsBase b => [packBase 0 0x08 4 b]
  | .iabsExt x => encodeX 0x08 4 x
  | .inegBase b => [packBase 0 0x08 5 b]
  | .inegExt x => encodeX 0x08 5 x
  | .movBase b => [packBase 0 0x08 6 b]
  | .movExt x => encodeX 0x08 6 x
  | .movi e => encodeExt 0x08 7 e
  | .iadd3 e => encodeExt 0x08 8 e
  | .lea e => encodeExt 0x08 9 e
  | .sel e => encodeExt 0x08 10 e
  | .isetp e => encodeExt 0x08 11 e
  | .imulBase b => [packBase 0 0x09 0 b]
  | .imulExt x => encodeX 0x09 0 x
  | .imulhBase b => [packBase 0 0x09 1 b]
  | .imulhExt x => encodeX 0x09 1 x
  | .imad e => encodeExt 0x09 2 e
  | .imadw e => encodeExt 0x09 3 e
  | .dp4 e => encodeExt 0x09 4 e
  | .andBase b => [packBase 0 0x0A 0 b]
  | .andExt x => encodeX 0x0A 0 x
  | .orBase b => [packBase 0 0x0A 1 b]
  | .orExt x => encodeX 0x0A 1 x
  | .xorBase b => [packBase 0 0x0A 2 b]
  | .xorExt x => encodeX 0x0A 2 x
  | .notBase b => [packBase 0 0x0A 3 b]
  | .notExt x => encodeX 0x0A 3 x
  | .blut e => encodeExt 0x0A 4 e
  | .shlBase b => [packBase 0 0x0B 0 b]
  | .shlExt x => encodeX 0x0B 0 x
  | .shrBase b => [packBase 0 0x0B 1 b]
  | .shrExt x => encodeX 0x0B 1 x
  | .sarBase b => [packBase 0 0x0B 2 b]
  | .sarExt x => encodeX 0x0B 2 x
  | .rolBase b => [packBase 0 0x0B 3 b]
  | .rolExt x => encodeX 0x0B 3 x
  | .fshl e => encodeExt 0x0B 4 e
  | .clzBase b => [packBase 0 0x0C 0 b]
  | .clzExt x => encodeX 0x0C 0 x
  | .ctzBase b => [packBase 0 0x0C 1 b]
  | .ctzExt x => encodeX 0x0C 1 x
  | .ffsBase b => [packBase 0 0x0C 2 b]
  | .ffsExt x => encodeX 0x0C 2 x
  | .popcBase b => [packBase 0 0x0C 3 b]
  | .popcExt x => encodeX 0x0C 3 x
  | .brevBase b => [packBase 0 0x0C 4 b]
  | .brevExt x => encodeX 0x0C 4 x
  | .bfe e => encodeExt 0x0C 5 e
  | .bfi e => encodeExt 0x0C 6 e
  | .prmt e => encodeExt 0x0C 7 e
  | .saddBase b => [packBase 0 0x10 0 b]
  | .saddExt x => encodeX 0x10 0 x
  | .ssubBase b => [packBase 0 0x10 1 b]
  | .ssubExt x => encodeX 0x10 1 x
  | .smulBase b => [packBase 0 0x10 2 b]
  | .smulExt x => encodeX 0x10 2 x
  | .sminBase b => [packBase 0 0x10 3 b]
  | .sminExt x => encodeX 0x10 3 x
  | .smaxBase b => [packBase 0 0x10 4 b]
  | .smaxExt x => encodeX 0x10 4 x
  | .smovBase b => [packBase 0 0x10 5 b]
  | .smovExt x => encodeX 0x10 5 x
  | .smad e => encodeExt 0x10 6 e
  | .smovi e => encodeExt 0x10 7 e
  | .ssetp e => encodeExt 0x10 8 e
  | .ssel e => encodeExt 0x10 9 e
  | .slea e => encodeExt 0x10 10 e
  | .sandBase b => [packBase 0 0x11 0 b]
  | .sandExt x => encodeX 0x11 0 x
  | .sorBase b => [packBase 0 0x11 1 b]
  | .sorExt x => encodeX 0x11 1 x
  | .sxorBase b => [packBase 0 0x11 2 b]
  | .sxorExt x => encodeX 0x11 2 x
  | .sshlBase b => [packBase 0 0x11 3 b]
  | .sshlExt x => encodeX 0x11 3 x
  | .sshrBase b => [packBase 0 0x11 4 b]
  | .sshrExt x => encodeX 0x11 4 x
  | .ssarBase b => [packBase 0 0x11 5 b]
  | .ssarExt x => encodeX 0x11 5 x
  | .sld e => encodeExt 0x12 0 e
  | .sst e => encodeExt 0x12 1 e
  | .shfl e => encodeExt 0x14 0 e
  | .vote e => encodeExt 0x14 1 e
  | .ballot e => encodeExt 0x14 2 e
  | .matchLanes e => encodeExt 0x14 3 e
  | .rdlane e => encodeExt 0x14 4 e
  | .wrlane e => encodeExt 0x14 5 e
  | .reduce e => encodeExt 0x15 0 e
  | .scan e => encodeExt 0x15 1 e
  | .faddBase b => [packBase 0 0x18 0 b]
  | .faddExt x => encodeX 0x18 0 x
  | .fsubBase b => [packBase 0 0x18 1 b]
  | .fsubExt x => encodeX 0x18 1 x
  | .fmulBase b => [packBase 0 0x18 2 b]
  | .fmulExt x => encodeX 0x18 2 x
  | .fminBase b => [packBase 0 0x18 3 b]
  | .fminExt x => encodeX 0x18 3 x
  | .fmaxBase b => [packBase 0 0x18 4 b]
  | .fmaxExt x => encodeX 0x18 4 x
  | .ffma e => encodeExt 0x18 5 e
  | .fsetp e => encodeExt 0x18 6 e
  | .fclass e => encodeExt 0x18 7 e
  | .frnd e => encodeExt 0x18 8 e
  | .fscale e => encodeExt 0x18 9 e
  | .hadd2Base b => [packBase 0 0x19 0 b]
  | .hadd2Ext x => encodeX 0x19 0 x
  | .hmul2Base b => [packBase 0 0x19 1 b]
  | .hmul2Ext x => encodeX 0x19 1 x
  | .hmin2Base b => [packBase 0 0x19 2 b]
  | .hmin2Ext x => encodeX 0x19 2 x
  | .hmax2Base b => [packBase 0 0x19 3 b]
  | .hmax2Ext x => encodeX 0x19 3 x
  | .hfma2 e => encodeExt 0x19 4 e
  | .fdot2 e => encodeExt 0x19 5 e
  | .rcpBase b => [packBase 0 0x1E 0 b]
  | .rcpExt x => encodeX 0x1E 0 x
  | .rsqBase b => [packBase 0 0x1E 1 b]
  | .rsqExt x => encodeX 0x1E 1 x
  | .sqrtBase b => [packBase 0 0x1E 2 b]
  | .sqrtExt x => encodeX 0x1E 2 x
  | .ex2Base b => [packBase 0 0x1E 3 b]
  | .ex2Ext x => encodeX 0x1E 3 x
  | .lg2Base b => [packBase 0 0x1E 4 b]
  | .lg2Ext x => encodeX 0x1E 4 x
  | .sinBase b => [packBase 0 0x1E 5 b]
  | .sinExt x => encodeX 0x1E 5 x
  | .cosBase b => [packBase 0 0x1E 6 b]
  | .cosExt x => encodeX 0x1E 6 x
  | .tanhBase b => [packBase 0 0x1E 7 b]
  | .tanhExt x => encodeX 0x1E 7 x
  | .fcvt e => encodeExt 0x1F 0 e
  | .f2i e => encodeExt 0x1F 1 e
  | .i2f e => encodeExt 0x1F 2 e
  | .fpack e => encodeExt 0x1F 3 e
  | .ld e => encodeExt 0x20 0 e
  | .ldp e => encodeExt 0x20 1 e
  | .st e => encodeExt 0x21 0 e
  | .mst e => encodeExt 0x22 0 e
  | .rst e => encodeExt 0x22 1 e
  | .pagereq e => encodeExt 0x23 0 e
  | .prefetch e => encodeExt 0x23 1 e
  | .atomAdd e => encodeExt 0x24 0 e
  | .atomMin e => encodeExt 0x24 1 e
  | .atomMax e => encodeExt 0x24 2 e
  | .atomAnd e => encodeExt 0x24 3 e
  | .atomOr e => encodeExt 0x24 4 e
  | .atomXor e => encodeExt 0x24 5 e
  | .atomExch e => encodeExt 0x24 6 e
  | .cas e => encodeExt 0x24 7 e
  | .redAdd e => encodeExt 0x25 0 e
  | .redMin e => encodeExt 0x25 1 e
  | .redMax e => encodeExt 0x25 2 e
  | .redAnd e => encodeExt 0x25 3 e
  | .redOr e => encodeExt 0x25 4 e
  | .redXor e => encodeExt 0x25 5 e
  | .fence e => encodeExt 0x26 0 e
  | .cpfence e => encodeExt 0x26 1 e
  | .cpy e => encodeExt 0x27 0 e
  | .cpyt e => encodeExt 0x27 1 e
  | .copyPrewalkDone .. => []
  | .copySectorLand .. => []
  | .lease e => encodeExt 0x27 2 e
  | .lrel e => encodeExt 0x27 3 e
  | .txbinit e => encodeExt 0x27 4 e
  | .txbexp e => encodeExt 0x27 5 e
  | .txbarr e => encodeExt 0x27 6 e
  | .txbwait e => encodeExt 0x27 7 e
  | .cinv e => encodeExt 0x37 0 e
  | .cwb e => encodeExt 0x37 1 e
  | .tlbinv e => encodeExt 0x37 2 e
  | .tlbinvAll e => encodeExt 0x37 2 e
  | .mma e => encodeExt 0x28 0 e
  | .mmas e => encodeExt 0x28 1 e
  | .matrixStep .. => []
  | .tmma e => encodeExt 0x28 2 e
  | .tsqStep .. => []
  | .mzero e => encodeExt 0x28 3 e
  | .mslot e => encodeExt 0x29 0 e
  | .mstat e => encodeExt 0x29 1 e
  | .mxeSlotBoundary => []
  | .futSplit e => encodeExt 0x2C 0 e
  | .futEnter e => encodeExt 0x2C 1 e
  | .futCommit e => encodeExt 0x2C 2 e
  | .futureCommitPoint .. => []
  | .futSquash e => encodeExt 0x2C 3 e
  | .futStat e => encodeExt 0x2C 4 e
  | .futWaitDone e => encodeExt 0x2C 5 e
  | .futWaitFree e => encodeExt 0x2C 5 e
  | .squashDrainComplete .. => []
  | .tagReclaimComplete .. => []
  | .flip e => encodeExt 0x2D 0 e
  | .ickpt e => encodeExt 0x2D 1 e
  | .sinkSlotStart .. => []
  | .trace e => encodeExt 0x30 0 e
  | .traceAh e => encodeExt 0x30 0 e
  | .rayTraversalEnd .. => []
  | .rayCandidateReady .. => []
  | .rayget e => encodeExt 0x30 5 e
  | .hitacc e => encodeExt 0x30 2 e
  | .hitrej e => encodeExt 0x30 3 e
  | .hitend e => encodeExt 0x30 4 e
  | .beam e => encodeExt 0x30 1 e
  | .beamComplete .. => []
  | .tex e => encodeExt 0x31 0 e
  | .texg e => encodeExt 0x31 1 e
  | .texq e => encodeExt 0x31 2 e
  | .gatherResultReturn .. => []
  | .atlreq e => encodeExt 0x32 0 e
  | .atlmap e => encodeExt 0x32 1 e
  | .bldBuild e => encodeExt 0x34 0 e
  | .bldRefit e => encodeExt 0x34 1 e
  | .bldRebal e => encodeExt 0x34 2 e
  | .buildJobComplete .. => []
  | .arenaExtensionService .. => []
  | .bldPub e => encodeExt 0x34 3 e
  | .bldPin e => encodeExt 0x34 4 e
  | .bldUnpin e => encodeExt 0x34 5 e
  | .bldGen e => encodeExt 0x34 6 e
  | .bldQual e => encodeExt 0x34 7 e
  | .generationReclaimComplete .. => []
  | .sigrd e => encodeExt 0x36 0 e
  | .sigchk e => encodeExt 0x36 1 e
  | .replComparison .. => []
  | .replCompareTimeout .. => []
  | .intervalBoundary .. => []
  | .intervalCapture .. => []
  | .starvationBreak .. => []
  | .primaryWaveAgeLimit .. => []
  | .gangTier .. => []
  | .gangRecall .. => []
  | .templateInstanceStart .. => []
  | .queueEntryArrival .. => []
  | .queuePortResend .. => []
  | .verticalEntryArrival .. => []
  | .verticalPortResend .. => []
  | .queueCloseArrival .. => []
  | .stageCoreRebalance .. => []
  | .barrierTimeout .. => []
  | .convergeTimeout .. => []
  | .sleepExpire .. => []
  | .repackBudgetExpire .. => []
  | .loadResponse .. => []
  | .registrationRequest .. => []
  | .registryAck .. => []
  | .forwardedRequest .. => []
  | .l1Fill .. => []
  | .vacFill .. => []
  | .pageWalk .. => []
  | .mmpFaultService .. => []
  | .leaseExpire .. => []
  | .engineWayTimeout .. => []
  | .cxlMemRead .. => []
  | .cxlMemWrite .. => []
  | .snpInv .. => []
  | .snpData .. => []
  | .snpCur .. => []
  | .cxlCacheCompletion .. => []
  | .cxlCompletionTimeout .. => []
  | .peerWriteAck .. => []
  | .create .. => []
  | .reset .. => []
  | .resetComplete .. => []
  | .suspend .. => []
  | .resume .. => []
  | .destroy .. => []
  | .destroyComplete .. => []
  | .partCmdUnknown .. => []
  | .partLaunch .. => []
  | .requestRecordService .. => []
  | .hostEventPost .. => []
  | .hsvcAns .. => []
  | .hostEventTimeout .. => []
  | .fpoolWrite .. => []
  | .fscContractWrite .. => []
  | .sinkModeWrite .. => []
  | .vltPwrWrite .. => []
  | .vaultSlabWakeDone .. => []
  | .dbgCtlWrite .. => []
  | .dbgResume .. => []
  | .debugMemoryRead .. => []
  | .registerWrite .. => []
  | .fscPeriodStart .. => []
  | .fscBudgetExhausted .. => []
  | .fscPreempt .. => []
  | .preemptDeadline .. => []
  | .gangRestore .. => []
  | .emergencyImageCopy .. => []
  | .saveDivertTimeout .. => []
  | .thermalSensorSample .. => []
  | .migrationMove .. => []
  | .coolingLoopLoss .. => []
  | .nominalTableReturn => []
  | .perstDeassert .. => []
  | .firmwareReload .. => []
  | .ansRollback .. => []
  | .ansTerminate .. => []
  | .ansReset .. => []
  | .ansRelease .. => []
  | .replMismatchTimeout .. => []
  | .bondLaneTest .. => []
  | .gddr7Retrain .. => []
  | .hostLinkLoss => []
  | .suspendComplete .. => []
  | .backInvalidationComplete .. => []

/-- MAJOR and MINOR of an instruction with words, as the opcode map gives them (R167). -/
def Instr.key : Instr → Option (Nat × Nat)
  | .nop _ => some (0x00, 0)
  | .rep _ => some (0x00, 1)
  | .braBase _ => some (0x01, 0)
  | .braExt _ => some (0x01, 0)
  | .callBase _ => some (0x01, 1)
  | .callExt _ => some (0x01, 1)
  | .brx _ => some (0x01, 2)
  | .callx _ => some (0x01, 3)
  | .ret _ => some (0x01, 4)
  | .fendBase _ => some (0x02, 0)
  | .fendExt _ => some (0x02, 0)
  | .yieldBase _ => some (0x02, 1)
  | .yieldExt _ => some (0x02, 1)
  | .yieldp _ => some (0x02, 2)
  | .sleep _ => some (0x02, 3)
  | .wake _ => some (0x02, 4)
  | .spawn _ => some (0x02, 5)
  | .repack _ => some (0x02, 6)
  | .gnew _ => some (0x03, 0)
  | .gjoin _ => some (0x03, 1)
  | .gleave _ => some (0x03, 2)
  | .gfree _ => some (0x03, 3)
  | .gbar _ => some (0x03, 4)
  | .garrive _ => some (0x03, 5)
  | .gwait _ => some (0x03, 6)
  | .cvset _ => some (0x03, 7)
  | .cvsign _ => some (0x03, 8)
  | .cvwait _ => some (0x03, 9)
  | .qpush _ => some (0x04, 0)
  | .qpop _ => some (0x04, 1)
  | .qpeek _ => some (0x04, 2)
  | .qclose _ => some (0x04, 3)
  | .launch _ => some (0x05, 0)
  | .lwait _ => some (0x05, 1)
  | .getsr _ => some (0x06, 0)
  | .setsr _ => some (0x06, 1)
  | .trap _ => some (0x06, 2)
  | .syscall _ => some (0x06, 3)
  | .eretRetry _ => some (0x06, 4)
  | .eretSkip _ => some (0x06, 4)
  | .eretEnd _ => some (0x06, 4)
  | .bkpt _ => some (0x06, 5)
  | .halt _ => some (0x06, 6)
  | .tfence _ => some (0x06, 7)
  | .preqSave _ => some (0x06, 8)
  | .preqResume _ => some (0x06, 8)
  | .preqStat _ => some (0x06, 8)
  | .migrReq _ => some (0x06, 9)
  | .migrStat _ => some (0x06, 9)
  | .iaddBase _ => some (0x08, 0)
  | .iaddExt _ => some (0x08, 0)
  | .isubBase _ => some (0x08, 1)
  | .isubExt _ => some (0x08, 1)
  | .iminBase _ => some (0x08, 2)
  | .iminExt _ => some (0x08, 2)
  | .imaxBase _ => some (0x08, 3)
  | .imaxExt _ => some (0x08, 3)
  | .iabsBase _ => some (0x08, 4)
  | .iabsExt _ => some (0x08, 4)
  | .inegBase _ => some (0x08, 5)
  | .inegExt _ => some (0x08, 5)
  | .movBase _ => some (0x08, 6)
  | .movExt _ => some (0x08, 6)
  | .movi _ => some (0x08, 7)
  | .iadd3 _ => some (0x08, 8)
  | .lea _ => some (0x08, 9)
  | .sel _ => some (0x08, 10)
  | .isetp _ => some (0x08, 11)
  | .imulBase _ => some (0x09, 0)
  | .imulExt _ => some (0x09, 0)
  | .imulhBase _ => some (0x09, 1)
  | .imulhExt _ => some (0x09, 1)
  | .imad _ => some (0x09, 2)
  | .imadw _ => some (0x09, 3)
  | .dp4 _ => some (0x09, 4)
  | .andBase _ => some (0x0A, 0)
  | .andExt _ => some (0x0A, 0)
  | .orBase _ => some (0x0A, 1)
  | .orExt _ => some (0x0A, 1)
  | .xorBase _ => some (0x0A, 2)
  | .xorExt _ => some (0x0A, 2)
  | .notBase _ => some (0x0A, 3)
  | .notExt _ => some (0x0A, 3)
  | .blut _ => some (0x0A, 4)
  | .shlBase _ => some (0x0B, 0)
  | .shlExt _ => some (0x0B, 0)
  | .shrBase _ => some (0x0B, 1)
  | .shrExt _ => some (0x0B, 1)
  | .sarBase _ => some (0x0B, 2)
  | .sarExt _ => some (0x0B, 2)
  | .rolBase _ => some (0x0B, 3)
  | .rolExt _ => some (0x0B, 3)
  | .fshl _ => some (0x0B, 4)
  | .clzBase _ => some (0x0C, 0)
  | .clzExt _ => some (0x0C, 0)
  | .ctzBase _ => some (0x0C, 1)
  | .ctzExt _ => some (0x0C, 1)
  | .ffsBase _ => some (0x0C, 2)
  | .ffsExt _ => some (0x0C, 2)
  | .popcBase _ => some (0x0C, 3)
  | .popcExt _ => some (0x0C, 3)
  | .brevBase _ => some (0x0C, 4)
  | .brevExt _ => some (0x0C, 4)
  | .bfe _ => some (0x0C, 5)
  | .bfi _ => some (0x0C, 6)
  | .prmt _ => some (0x0C, 7)
  | .saddBase _ => some (0x10, 0)
  | .saddExt _ => some (0x10, 0)
  | .ssubBase _ => some (0x10, 1)
  | .ssubExt _ => some (0x10, 1)
  | .smulBase _ => some (0x10, 2)
  | .smulExt _ => some (0x10, 2)
  | .sminBase _ => some (0x10, 3)
  | .sminExt _ => some (0x10, 3)
  | .smaxBase _ => some (0x10, 4)
  | .smaxExt _ => some (0x10, 4)
  | .smovBase _ => some (0x10, 5)
  | .smovExt _ => some (0x10, 5)
  | .smad _ => some (0x10, 6)
  | .smovi _ => some (0x10, 7)
  | .ssetp _ => some (0x10, 8)
  | .ssel _ => some (0x10, 9)
  | .slea _ => some (0x10, 10)
  | .sandBase _ => some (0x11, 0)
  | .sandExt _ => some (0x11, 0)
  | .sorBase _ => some (0x11, 1)
  | .sorExt _ => some (0x11, 1)
  | .sxorBase _ => some (0x11, 2)
  | .sxorExt _ => some (0x11, 2)
  | .sshlBase _ => some (0x11, 3)
  | .sshlExt _ => some (0x11, 3)
  | .sshrBase _ => some (0x11, 4)
  | .sshrExt _ => some (0x11, 4)
  | .ssarBase _ => some (0x11, 5)
  | .ssarExt _ => some (0x11, 5)
  | .sld _ => some (0x12, 0)
  | .sst _ => some (0x12, 1)
  | .shfl _ => some (0x14, 0)
  | .vote _ => some (0x14, 1)
  | .ballot _ => some (0x14, 2)
  | .matchLanes _ => some (0x14, 3)
  | .rdlane _ => some (0x14, 4)
  | .wrlane _ => some (0x14, 5)
  | .reduce _ => some (0x15, 0)
  | .scan _ => some (0x15, 1)
  | .faddBase _ => some (0x18, 0)
  | .faddExt _ => some (0x18, 0)
  | .fsubBase _ => some (0x18, 1)
  | .fsubExt _ => some (0x18, 1)
  | .fmulBase _ => some (0x18, 2)
  | .fmulExt _ => some (0x18, 2)
  | .fminBase _ => some (0x18, 3)
  | .fminExt _ => some (0x18, 3)
  | .fmaxBase _ => some (0x18, 4)
  | .fmaxExt _ => some (0x18, 4)
  | .ffma _ => some (0x18, 5)
  | .fsetp _ => some (0x18, 6)
  | .fclass _ => some (0x18, 7)
  | .frnd _ => some (0x18, 8)
  | .fscale _ => some (0x18, 9)
  | .hadd2Base _ => some (0x19, 0)
  | .hadd2Ext _ => some (0x19, 0)
  | .hmul2Base _ => some (0x19, 1)
  | .hmul2Ext _ => some (0x19, 1)
  | .hmin2Base _ => some (0x19, 2)
  | .hmin2Ext _ => some (0x19, 2)
  | .hmax2Base _ => some (0x19, 3)
  | .hmax2Ext _ => some (0x19, 3)
  | .hfma2 _ => some (0x19, 4)
  | .fdot2 _ => some (0x19, 5)
  | .rcpBase _ => some (0x1E, 0)
  | .rcpExt _ => some (0x1E, 0)
  | .rsqBase _ => some (0x1E, 1)
  | .rsqExt _ => some (0x1E, 1)
  | .sqrtBase _ => some (0x1E, 2)
  | .sqrtExt _ => some (0x1E, 2)
  | .ex2Base _ => some (0x1E, 3)
  | .ex2Ext _ => some (0x1E, 3)
  | .lg2Base _ => some (0x1E, 4)
  | .lg2Ext _ => some (0x1E, 4)
  | .sinBase _ => some (0x1E, 5)
  | .sinExt _ => some (0x1E, 5)
  | .cosBase _ => some (0x1E, 6)
  | .cosExt _ => some (0x1E, 6)
  | .tanhBase _ => some (0x1E, 7)
  | .tanhExt _ => some (0x1E, 7)
  | .fcvt _ => some (0x1F, 0)
  | .f2i _ => some (0x1F, 1)
  | .i2f _ => some (0x1F, 2)
  | .fpack _ => some (0x1F, 3)
  | .ld _ => some (0x20, 0)
  | .ldp _ => some (0x20, 1)
  | .st _ => some (0x21, 0)
  | .mst _ => some (0x22, 0)
  | .rst _ => some (0x22, 1)
  | .pagereq _ => some (0x23, 0)
  | .prefetch _ => some (0x23, 1)
  | .atomAdd _ => some (0x24, 0)
  | .atomMin _ => some (0x24, 1)
  | .atomMax _ => some (0x24, 2)
  | .atomAnd _ => some (0x24, 3)
  | .atomOr _ => some (0x24, 4)
  | .atomXor _ => some (0x24, 5)
  | .atomExch _ => some (0x24, 6)
  | .cas _ => some (0x24, 7)
  | .redAdd _ => some (0x25, 0)
  | .redMin _ => some (0x25, 1)
  | .redMax _ => some (0x25, 2)
  | .redAnd _ => some (0x25, 3)
  | .redOr _ => some (0x25, 4)
  | .redXor _ => some (0x25, 5)
  | .fence _ => some (0x26, 0)
  | .cpfence _ => some (0x26, 1)
  | .cpy _ => some (0x27, 0)
  | .cpyt _ => some (0x27, 1)
  | .copyPrewalkDone .. => none
  | .copySectorLand .. => none
  | .lease _ => some (0x27, 2)
  | .lrel _ => some (0x27, 3)
  | .txbinit _ => some (0x27, 4)
  | .txbexp _ => some (0x27, 5)
  | .txbarr _ => some (0x27, 6)
  | .txbwait _ => some (0x27, 7)
  | .cinv _ => some (0x37, 0)
  | .cwb _ => some (0x37, 1)
  | .tlbinv _ => some (0x37, 2)
  | .tlbinvAll _ => some (0x37, 2)
  | .mma _ => some (0x28, 0)
  | .mmas _ => some (0x28, 1)
  | .matrixStep .. => none
  | .tmma _ => some (0x28, 2)
  | .tsqStep .. => none
  | .mzero _ => some (0x28, 3)
  | .mslot _ => some (0x29, 0)
  | .mstat _ => some (0x29, 1)
  | .mxeSlotBoundary => none
  | .futSplit _ => some (0x2C, 0)
  | .futEnter _ => some (0x2C, 1)
  | .futCommit _ => some (0x2C, 2)
  | .futureCommitPoint .. => none
  | .futSquash _ => some (0x2C, 3)
  | .futStat _ => some (0x2C, 4)
  | .futWaitDone _ => some (0x2C, 5)
  | .futWaitFree _ => some (0x2C, 5)
  | .squashDrainComplete .. => none
  | .tagReclaimComplete .. => none
  | .flip _ => some (0x2D, 0)
  | .ickpt _ => some (0x2D, 1)
  | .sinkSlotStart .. => none
  | .trace _ => some (0x30, 0)
  | .traceAh _ => some (0x30, 0)
  | .rayTraversalEnd .. => none
  | .rayCandidateReady .. => none
  | .rayget _ => some (0x30, 5)
  | .hitacc _ => some (0x30, 2)
  | .hitrej _ => some (0x30, 3)
  | .hitend _ => some (0x30, 4)
  | .beam _ => some (0x30, 1)
  | .beamComplete .. => none
  | .tex _ => some (0x31, 0)
  | .texg _ => some (0x31, 1)
  | .texq _ => some (0x31, 2)
  | .gatherResultReturn .. => none
  | .atlreq _ => some (0x32, 0)
  | .atlmap _ => some (0x32, 1)
  | .bldBuild _ => some (0x34, 0)
  | .bldRefit _ => some (0x34, 1)
  | .bldRebal _ => some (0x34, 2)
  | .buildJobComplete .. => none
  | .arenaExtensionService .. => none
  | .bldPub _ => some (0x34, 3)
  | .bldPin _ => some (0x34, 4)
  | .bldUnpin _ => some (0x34, 5)
  | .bldGen _ => some (0x34, 6)
  | .bldQual _ => some (0x34, 7)
  | .generationReclaimComplete .. => none
  | .sigrd _ => some (0x36, 0)
  | .sigchk _ => some (0x36, 1)
  | .replComparison .. => none
  | .replCompareTimeout .. => none
  | .intervalBoundary .. => none
  | .intervalCapture .. => none
  | .starvationBreak .. => none
  | .primaryWaveAgeLimit .. => none
  | .gangTier .. => none
  | .gangRecall .. => none
  | .templateInstanceStart .. => none
  | .queueEntryArrival .. => none
  | .queuePortResend .. => none
  | .verticalEntryArrival .. => none
  | .verticalPortResend .. => none
  | .queueCloseArrival .. => none
  | .stageCoreRebalance .. => none
  | .barrierTimeout .. => none
  | .convergeTimeout .. => none
  | .sleepExpire .. => none
  | .repackBudgetExpire .. => none
  | .loadResponse .. => none
  | .registrationRequest .. => none
  | .registryAck .. => none
  | .forwardedRequest .. => none
  | .l1Fill .. => none
  | .vacFill .. => none
  | .pageWalk .. => none
  | .mmpFaultService .. => none
  | .leaseExpire .. => none
  | .engineWayTimeout .. => none
  | .cxlMemRead .. => none
  | .cxlMemWrite .. => none
  | .snpInv .. => none
  | .snpData .. => none
  | .snpCur .. => none
  | .cxlCacheCompletion .. => none
  | .cxlCompletionTimeout .. => none
  | .peerWriteAck .. => none
  | .create .. => none
  | .reset .. => none
  | .resetComplete .. => none
  | .suspend .. => none
  | .resume .. => none
  | .destroy .. => none
  | .destroyComplete .. => none
  | .partCmdUnknown .. => none
  | .partLaunch .. => none
  | .requestRecordService .. => none
  | .hostEventPost .. => none
  | .hsvcAns .. => none
  | .hostEventTimeout .. => none
  | .fpoolWrite .. => none
  | .fscContractWrite .. => none
  | .sinkModeWrite .. => none
  | .vltPwrWrite .. => none
  | .vaultSlabWakeDone .. => none
  | .dbgCtlWrite .. => none
  | .dbgResume .. => none
  | .debugMemoryRead .. => none
  | .registerWrite .. => none
  | .fscPeriodStart .. => none
  | .fscBudgetExhausted .. => none
  | .fscPreempt .. => none
  | .preemptDeadline .. => none
  | .gangRestore .. => none
  | .emergencyImageCopy .. => none
  | .saveDivertTimeout .. => none
  | .thermalSensorSample .. => none
  | .migrationMove .. => none
  | .coolingLoopLoss .. => none
  | .nominalTableReturn => none
  | .perstDeassert .. => none
  | .firmwareReload .. => none
  | .ansRollback .. => none
  | .ansTerminate .. => none
  | .ansReset .. => none
  | .ansRelease .. => none
  | .replMismatchTimeout .. => none
  | .bondLaneTest .. => none
  | .gddr7Retrain .. => none
  | .hostLinkLoss => none
  | .suspendComplete .. => none
  | .backInvalidationComplete .. => none

end Sys2Proof
end

