-- ==== Sys2Proof/Machine/Contracts.lean ====
section
/-! DEFINITION. Frame contracts: their fields (R400), the active contract (R402), the effective priorities that replace PRIO in R33
(R402), the periods of a contract, the draining of its budget, and overruns (R403, R499). -/

namespace Sys2Proof.Machine

/-! ### Fields -/

/-- One microsecond of CLOCK. -/
def clocksPerUs : Nat := 1800

/-- A contract that nothing has written. -/
def Contract.blank : Contract := { reg := 0, adm := false, start := none, spent := 0, delivered := false, overrun := false, period := 0 }

/-- EN, SYNC and SINK. -/
def Contract.en (c : Contract) : Bool := c.reg.getLsbD 63
def Contract.sync (c : Contract) : Bool := c.reg.getLsbD 61
def Contract.sink (c : Contract) : Nat := bits c.reg.toNat 56 5
/-- PERIOD, DEADLINE and BUDGET in microseconds. -/
def Contract.p (c : Contract) : Nat := bits c.reg.toNat 36 18
def Contract.d (c : Contract) : Nat := bits c.reg.toNat 18 18
def Contract.c (c : Contract) : Nat := bits c.reg.toNat 0 18

/-- Clocks of budget that the current period has left. -/
def Contract.left (c : Contract) : Nat := c.c * clocksPerUs - c.spent

/-- A contract of a partition. -/
def State.contract (s : State) (part k : Nat) : Contract := nth Contract.blank (s.partn part).contracts k

/-- Change a contract. -/
def State.updContract (s : State) (part k : Nat) (g : Contract → Contract) : State :=
  s.updPart part fun p => { p with contracts := p.contracts.modify k g }

/-! ### The active contract and priorities (R402) -/

/-- The pipelines of a contract have a RUNNABLE fibre or a pending instance. -/
def State.contractWorks (s : State) (part k : Nat) : Bool :=
  s.pipes.any fun (p : Pipe) => p.part == part && p.ended.isNone && p.contract == some k &&
    (!p.pending.isEmpty || s.fibres.any fun f => f.part == part && f.pipe == p.handle && f.runs)

/-- The active contract: of those with budget left and work, the one with the earliest absolute deadline. -/
def State.activeContract (s : State) (part : Nat) : Option Nat :=
  minBy (fun k => ((s.contract part k).start.getD 0 + (s.contract part k).d * clocksPerUs) * 16 + k) ((List.range 16).filter fun k =>
    let c := s.contract part k
    c.adm && c.start.isSome && decide (0 < c.left) && s.contractWorks part k)

/-- The effective priority of a stage: 0 frame-critical, 1 frame, 2 background, 3 idle. -/
def State.effPrio (s : State) (p : Pipe) (prio : Nat) : Nat :=
  if prio ≠ 0 then prio
  else
    match p.contract with
    | none => 1
    | some k =>
      if (s.contract p.part k).overrun then 2
      else if s.activeContract p.part = some k then 0 else 1

/-! ### Budgets and overruns -/

/-- The clock at which an active contract's budget ends. -/
def State.budgetEnds (s : State) : List Nat :=
  (List.range 16).filterMap fun p => (s.activeContract p).map fun k => s.clock + (s.contract p k).left

/-- Budgets drain by the clocks that pass while their contract is active (R402). -/
def State.drainBudgets (s : State) (n : Nat) : State :=
  (List.range 16).foldl (fun s p =>
    match s.activeContract p with
    | none => s
    | some k =>
      let s' := s.updContract p k fun c => { c with spent := c.spent + n }
      if (s'.contract p k).left = 0 then s'.post (.fscBudgetExhausted p k) else s') s

/-- A period of a contract is overrun: its record, and OVRCNT (R499). -/
def State.overrunPeriod (s : State) (part k : Nat) : State :=
  let c := s.contract part k
  let s := s.report { cause := 0x010A, addr := k * 2 ^ 32 + c.period % 2 ^ 32, detail := k, part := some part }
  let s := s.updPart part fun p => { p with ovrcnt := min 65535 (p.ovrcnt + 1) }
  s.updContract part k fun c => { c with overrun := true }

/-- FSC_BUDGET_EXHAUSTED: a period whose budget is spent before delivery is overrun (R403). -/
def execFscBudgetExhausted (part k : Nat) (s : State) : Host.Outcome State Fault Refusal :=
  let c := s.contract part k
  .next (if c.adm && c.start.isSome && c.left == 0 && !c.delivered && !c.overrun then s.overrunPeriod part k else s)

/-- A period of a contract begins; the one before it ends, overrun where it has not delivered (R400, R499). -/
def State.beginPeriod (s : State) (part k start : Nat) : State :=
  let c := s.contract part k
  let s := if c.start.isSome && !c.delivered && !c.overrun then s.overrunPeriod part k else s
  let n := if c.start.isSome then c.period + 1 else c.period
  let s := s.updContract part k fun c => { c with start := some start, spent := 0, delivered := false, overrun := false, period := n }
  let s := if (s.partn part).intCtl.getLsbD 32 && bits (s.partn part).intCtl.toNat 16 4 == k && (s.partn part).intCtl.getLsbD 33
    then (s.updPart part fun p => { p with ickpt := true }).post (.intervalBoundary part) else s
  (s.pipes.filter fun (p : Pipe) => p.part == part && p.ended.isNone && p.contract == some k).foldl (fun s (p : Pipe) =>
    match p.pending with | [] => s | x :: _ => s.post (.templateInstanceStart part p.handle x.stage)) s

/-- FSC_PERIOD_START: a free-running period ends where the next begins; a synchronous one begins at a slot start of its sink (R400). -/
def execFscPeriodStart (part k : Nat) (s : State) : Host.Outcome State Fault Refusal :=
  let c := s.contract part k
  if !c.adm then .next s
  else if c.sync then .next (s.beginPeriod part k s.clock)
  else
    match c.start with
    | none => .next s
    | some t =>
      let due := t + c.p * clocksPerUs
      if s.clock < due then .next s
      else .next ((s.beginPeriod part k due).timer (due + c.p * clocksPerUs) (.fscPeriodStart part k))

end Sys2Proof.Machine
end

