-- ==== Sys2Proof/Machine/Issue.lean ====
section
/-! DEFINITION. What the machine does in one step, over any decoder and any execution of instructions and events: the fetch
(R153, R170), the choice of the wave that issues (R29 to R35), the repeats of a REP (R187), and the passing of time. -/

namespace Sys2Proof.Machine

/-! ### Fetch -/

/-- The value of a word that a fetch reads (R111, R153): the core's L1, else the home copy, which another core's unreleased
data poisons (R79). -/
def State.fetchValue (s : State) (f : Fibre) (l : Loc) : Word × Bool :=
  match if l.cached then s.l1Word (s.coreOf f) (s.readCopy f.part f.tag l).1 l.key else none with
  | some w => if w.valid = 15 then (w.data, w.poison) else miss
  | none => miss
where
  /-- The answer of the home slice. -/
  miss : Word × Bool :=
    let r := s.serveWord (s.coreOf f) (s.readCopy f.part f.tag l).1 l.key l.grain false ((s.pipeOf f).replicated || !l.cached)
    (r.1, r.2.1)

/-- One word of an instruction at an address, with the freshly walked page entries. -/
def State.fetchWord (s : State) (f : Fibre) (a : Nat) : Except Stop (Word × List Nat) :=
  match s.place f { ea := a, n := 4, form := 0, acc := 4, align := 4 } with
  | .error e => .error e
  | .ok (p :: _, ws) =>
    let (w, poison) := s.fetchValue f p.loc
    if poison then .error (.trap { cause := cPoisonUse, addr := a }) else .ok (w, ws)
  | .ok ([], ws) => .ok (0, ws)

/-- `n` words from an address up. -/
def State.fetchWords (s : State) (f : Fibre) (a : Nat) : Nat → Except Stop (List Word × List Nat)
  | 0 => .ok ([], [])
  | n + 1 =>
    match s.fetchWord f (a % 2 ^ 64) with
    | .error e => .error e
    | .ok (w, ws) =>
      match s.fetchWords f (a + 4) n with
      | .error e => .error e
      | .ok (r, ws') => .ok (w :: r, ws ++ ws')

/-- The words of the instruction at an address (R152); a failing fetch says how many bytes the instruction has, where its first
word is known (R448). -/
def State.fetchInstr (s : State) (f : Fibre) (a : Nat) : Except (Stop × Option Nat) (List Word × List Nat) :=
  match s.fetchWord f (a % 2 ^ 64) with
  | .error e => .error (e, none)
  | .ok (w, ws) =>
    match s.fetchWords f (a + 4) (lenWords w - 1) with
    | .error e => .error (e, some (4 * lenWords w))
    | .ok (r, ws') => .ok (w :: r, ws ++ ws')

/-! ### Raw forms -/

/-- The extended form that words stand for, with MAJOR and MINOR, where it is legal (R152 to R169). NOP, REP and the layout B1
have none. -/
def rawForm : List Word → Option (Nat × Nat × Ext)
  | [] => none
  | w0 :: r =>
    let major := majorField w0
    let bm := (w0.extractLsb' 14 3).toNat
    let em := (w0.extractLsb' 10 6).toNat
    let ok (m : Nat) (c : Option Reject) (e : Ext) : Option (Nat × Nat × Ext) := if c.isNone then some (major, m, e) else none
    match lenField w0, r with
    | 0, _ =>
      let b := unpackBase w0
      if hasBase major bm then ok bm (checkBase major bm b none) (expandBase major bm b none) else none
    | 2, lo :: hi :: _ =>
      let b := unpackBase w0
      if hasBase major bm then ok bm (checkBase major bm b (some (litOf lo hi))) (expandBase major bm b (some (litOf lo hi))) else none
    | 1, w1 :: w2 :: _ =>
      let e := unpackExt w0 w1 w2 none
      ok em (checkExt major em e) e
    | _, w1 :: w2 :: lo :: hi :: _ =>
      let e := unpackExt w0 w1 w2 (some (litOf lo hi))
      ok em (checkExt major em e) e
    | _, _ => none

/-! ### The next instruction -/

/-- The words that the wave issues: the instruction at the PC, or the next repeat of a live REP; and the first word that a record
reports. -/
def State.issueWords (s : State) (f : Fibre) (live : Bool) : Except (Stop × Option Nat) (List Word × Word × List Nat) :=
  match s.fetchInstr f f.pc.toNat with
  | .error e => .error e
  | .ok (ws, t) =>
    let w0 := ws.headD 0
    if !live then .ok (ws, w0, t)
    else
      match s.fetchInstr f (f.pc.toNat + 4) with
      | .error (e, _) => .error (e, some 4)
      | .ok (xs, t') =>
        let x0 := xs.headD 0
        match rawForm xs with
        | none => .ok (xs, x0, t ++ t')
        | some (major, minor, e) =>
          let r := unpackRep w0
          match (formOf major minor e).bind fun fm => repStep r fm e (r.cnt.toNat + 1 - f.repcnt) with
          | none => .error (.trap { cause := cIllegal, detail := x0.toNat }, some 4)
          | some e' => .ok (encodeExt (BitVec.ofNat 6 major) (BitVec.ofNat 6 minor) e', x0, t ++ t')

/-- The fields of an instruction that names no operand (R158). -/
def plainExt (stall : BitVec 3) : Ext :=
  { stall := stall, gn := false, gp := 0, mod := 0, d := 0, a := 0, b := 0, dk := false, ak := false, bk := 0, ck := false, c := 0
    ty := .b32, pdv := false, pd := 0, imm := 0, lit := none }

/-- The fields of a base branch (R157). -/
def branchExt (b : BaseBranch) : Ext := { plainExt b.stall with gn := b.gn, gp := b.gp.setWidth 4, bk := 2 }

/-- The issue of a word or words, as the scoreboard sees it: the registers of its form (R155 to R159); NOP and REP have none. -/
def peekIssue (ws : List Word) : Option Issue :=
  let w0 := ws.headD 0
  let mk (x : Nat × Nat × Ext) : Issue := { major := x.1, minor := x.2.1, e := x.2.2, len := 4 * ws.length }
  if majorField w0 = 1 ∧ (lenField w0 = 0 ∨ lenField w0 = 2) then
    let e := branchExt (unpackBranch w0)
    some (if w0.getLsbD 16 then mk (1, 1, { e with d := 14 }) else mk (1, 0, e))
  else (rawForm ws).map mk

/-- What fibres issue next; none where its fetch fails or it names no register. -/
def State.nextIssue (s : State) (w : List Fibre) : Option Issue :=
  match s.issueWords (w.headD Fibre.blank) (w.all fun g => g.repLive) with
  | .error _ => none
  | .ok (ws, _, _) => peekIssue ws

/-! ### Waves (R29 to R34) -/

/-- Two fibres of one gang belong to one wave. -/
def Fibre.sameWave (f g : Fibre) : Bool := f.pc == g.pc && f.cur == g.cur && f.tag == g.tag && f.repcnt == g.repcnt

/-- The waves of a list of fibres, each in ascending lane; `fuel` bounds their number. -/
def wavesOf : Nat → List Fibre → List (List Fibre)
  | 0, _ => []
  | _, [] => []
  | n + 1, f :: r => (f :: r.filter fun g => f.sameWave g) :: wavesOf n (r.filter fun g => !f.sameWave g)

/-- The RUNNABLE fibres of a gang by lane. -/
def State.runnable (s : State) (g : GangId) : List Fibre :=
  sortBy (fun f => f.lane) (s.fibres.filter fun f => f.runs && f.gang == g)

/-- The waves of a gang, the primary one first (R31): by PC, then by lowest lane. -/
def State.gangWaves (s : State) (g : GangId) : List (List Fibre) :=
  let fs := s.runnable g
  sortBy (fun w => (w.headD Fibre.blank).pc.toNat) (wavesOf fs.length fs)

/-- The stall count of every fibre of a wave has elapsed (R30). -/
def waveElapsed (clock : Nat) (w : List Fibre) : Bool := !w.isEmpty && w.all fun f => decide (f.readyAt ≤ clock)

/-- A wave is ready: its stall counts have elapsed, and the scoreboard lets its next instruction issue, if only to trap (R30). -/
def State.waveReady (s : State) (w : List Fibre) : Bool :=
  waveElapsed s.clock w &&
  match s.nextIssue w with
  | none => true
  | some i => match { s with cur := w.map Fibre.uid }.gate i with | .delay _ | .pend => false | .go | .trap _ => true

/-- A fibre's next instruction needs a result of variable latency that has not returned (R61, R176). -/
def State.needsResult (s : State) (f : Fibre) : Bool :=
  (s.pendV.any (fun x => x.1 == f.uid) || (s.group f.groupId).pend.any fun x => x.2.isNone) &&
  match s.nextIssue [f] with
  | none => false
  | some i => !({ s with cur := [f.uid] }.needing i).isEmpty

/-- The slices of a wave (R29). -/
def slicesOf (w : List Fibre) : BitVec 16 := w.foldl (fun m f => m ||| (1#16 <<< (f.lane / 4))) 0

/-- The slices that a wave's next instruction occupies: none where it is of the scalar family (R33). -/
def State.slicesUsed (s : State) (w : List Fibre) : BitVec 16 :=
  let f := w.headD Fibre.blank
  match s.fetchWord f (if w.all fun g => g.repLive then (f.pc.toNat + 4) % 2 ^ 64 else f.pc.toNat) with
  | .ok (x, _) => if 0x10 ≤ majorField x ∧ majorField x ≤ 0x12 then 0 else slicesOf w
  | .error _ => slicesOf w

/-- The clock of a wave's last issue: the oldest-waiting wave has the least (R32). -/
def waveAge (w : List Fibre) : Nat := w.foldl (fun m f => max m f.lastIssue) 0

/-- The record of a gang. -/
def State.gangRec (s : State) (g : GangId) : GangRec :=
  (s.gangs.find? fun r => r.id == g).getD
    { id := g, starve := 0, breakNext := false, force := false, readySince := none, lastIssue := 0 }

/-- Replace the record of a gang. -/
def State.setGang (s : State) (r : GangRec) : State :=
  { s with gangs := r :: s.gangs.filter fun x => !(x.id == r.id) }

/-- The effective priority of a wave's stage: 0 is the highest (R50, R402). -/
def State.wavePrio (s : State) (w : List Fibre) : Nat :=
  let f := w.headD Fibre.blank
  s.effPrio (s.pipeOf f) (((s.stageOf f).map fun r => r.prio).getD 0)

/-- A candidate to issue: its gang, its fibres, whether it is the primary wave, and whether it stands in the primary wave's place. -/
structure Cand where
  gang : GangId
  wave : List Fibre
  primary : Bool
  inPlace : Bool
  deriving Repr

/-- The waves of a gang that may issue now; under a starvation break the oldest ready secondary wave stands in the primary
wave's place (R32). -/
def State.candidates (s : State) (g : GangId) : List Cand :=
  let r := s.gangRec g
  match s.gangWaves g with
  | [] => []
  | p :: sec =>
    let ready := sec.filter s.waveReady
    let oldest := minBy (fun w => waveAge w * 2 ^ 64 + (w.headD Fibre.blank).pc.toNat) ready
    let first : List Cand :=
      match if r.breakNext then oldest else none with
      | some w => [{ gang := g, wave := w, primary := false, inPlace := true }]
      | none => if s.waveReady p then [{ gang := g, wave := p, primary := true, inPlace := true }] else []
    first ++ (ready.filter fun w => !(first.any fun c => c.wave == w)).map fun w => { gang := g, wave := w, primary := false, inPlace := false }

/-- What a gang has ready. -/
def State.gangView (s : State) (g : GangId) : GangView :=
  match s.gangWaves g with
  | [] => { gang := g, primary := false, secondary := false }
  | p :: sec => { gang := g, primary := s.waveReady p, secondary := sec.any s.waveReady }

/-- The gangs of a quadrant that hold RUNNABLE fibres, in slot order. -/
def State.gangsAt (s : State) (part core quad repl : Nat) : List GangId :=
  sortBy (fun g => g.slot) ((s.fibres.filter fun f => f.runs && f.part == part && f.onCore == core && f.quad == quad && f.repl == repl).foldl
    (fun l f => if l.contains f.gang then l else l ++ [f.gang]) [])

/-- The wave that fills the first slot (R33, R34). -/
def State.firstSlot (s : State) (gs : List GangId) : Option Cand :=
  let cs := (gs.flatMap s.candidates).filter fun c => c.inPlace
  match cs.find? fun c => (s.gangRec c.gang).force with
  | some c => some c
  | none => minBy (fun c => s.wavePrio c.wave * 2 ^ 64 + (s.gangRec c.gang).lastIssue) cs

/-- The wave that fills the second slot beside the first (R33). -/
def State.secondSlot (s : State) (gs : List GangId) (first : Option Cand) : Option Cand :=
  let used := match first with | some c => s.slicesUsed c.wave | none => 0
  let cs := (gs.flatMap s.candidates).filter fun c => s.slicesUsed c.wave &&& used == 0 && !(first.any fun b => b.wave == c.wave)
  match minBy (fun c => s.wavePrio c.wave) cs with
  | none => none
  | some b =>
    let top := cs.filter fun c => s.wavePrio c.wave == s.wavePrio b.wave
    match minBy (fun c => (s.gangRec c.gang).lastIssue) (top.filter fun c => c.inPlace) with
    | some c => some c
    | none => minBy (fun c => (waveAge c.wave * 2 ^ 64 + (c.wave.headD Fibre.blank).pc.toNat) * 8 + c.gang.slot) top

/-- A candidate that takes a slot. -/
def State.choice (s : State) (second : Bool) (c : Cand) : Chosen :=
  { use := { gang := c.gang, slices := s.slicesUsed c.wave, primary := c.primary, inPlace := c.inPlace, second := second }
    uids := c.wave.map fun f => f.uid, pc := (c.wave.headD Fibre.blank).pc }

/-- The waves that a quadrant issues in this clock, both chosen from what is ready as it begins (R33). -/
def State.chooseIn (s : State) (part core quad repl : Nat) : List Chosen :=
  let gs := s.gangsAt part core quad repl
  let first := s.firstSlot gs
  (first.map (s.choice false)).toList ++ ((s.secondSlot gs first).map (s.choice true)).toList

/-- An arithmetic clock of a core begins at this CLOCK (R424, R426). -/
def State.coreTicks (s : State) (core : Nat) : Bool := s.coreClock core 0 == s.clock

/-- The quadrants that hold a fibre whose stall count has run out, on cores that have an arithmetic clock now. -/
def State.quads (s : State) : List (Nat × Nat × Nat × Nat) :=
  (s.fibres.filter fun f => f.runs && decide (f.readyAt ≤ s.clock) && s.coreTicks (s.coreOf f)).foldl (fun l f =>
    let q := (f.part, f.onCore, f.quad, f.repl)
    if l.contains q then l else l ++ [q]) []

/-- The gangs that hold RUNNABLE fibres. -/
def State.liveGangs (s : State) : List GangId :=
  (s.fibres.filter fun f => f.runs).foldl (fun l f => if l.contains f.gang then l else l ++ [f.gang]) []

/-- The choice of this clock, made once, from the state with which its issues begin. -/
def State.makePlan (s : State) : State :=
  match s.plan with
  | some _ => s
  | none => { s with plan := some { chosen := s.quads.flatMap fun (p, c, q, r) => s.chooseIn p c q r, views := s.liveGangs.map s.gangView } }

/-- The fibres of a chosen wave that still stand at its instruction. -/
def State.stands (s : State) (c : Chosen) : List Nat :=
  c.uids.filter fun u => (s.fibre u).runs && (s.fibre u).uid == u && (s.fibre u).pc == c.pc

/-- The wave that issues next in this clock. -/
def State.pick (s : State) : Option Chosen :=
  s.plan.bind fun p => p.chosen.find? fun c => !(s.stands c).isEmpty

/-- A wave takes its issue slot. -/
def State.noteIssue (s : State) (c : Chosen) : State :=
  { s with cur := s.stands c, slots := c.use :: s.slots, plan := s.plan.map fun p => { p with chosen := p.chosen.erase c } }

/-! ### One issue -/

/-- A failing fetch or a rejected word stops the whole wave (R153, R170). -/
def State.stopWave (s : State) (st : Stop) (len : Option Nat) : Host.Outcome State Fault Refusal :=
  match st with
  | .trap t => .next (s.trap (s.cur.headD 0) s.cur t none len)
  | .wait .. | .service .. | .wake .. | .hostLine .. | .fault _ => s.stopped s.cur (len.getD 4) st

/-- Fetch, decode and execute the instruction of the current wave. -/
def State.issueWith {α : Type} (dec : List Word → Except Reject (α × List Word)) (ex : α → State → Host.Outcome State Fault Refusal)
    (s : State) : Host.Outcome State Fault Refusal :=
  let w := s.wave
  let f := w.headD Fibre.blank
  let live := w.all fun g => g.repLive
  match s.issueWords f live with
  | .error (st, len) => s.stopWave st len
  | .ok (ws, w0, walks) =>
    let s := { s.keepWalks f walks with curWord := w0 }
    let s := if live then s else s.updAll s.cur fun g => { g with repLive := false }
    match dec ws with
    | .error _ => s.stopWave (.trap s.illegal) (some (4 * lenWords w0))
    | .ok (i, _) => ex i s

/-! ### Time -/

/-- The gang records at the end of a clock, from what issued of what was ready: the starvation counter (R32) and the age of the primary wave (R34),
with the events they raise; a break and a forced slot last until they are used. -/
def State.ageGang (s : State) (v : GangView) : State :=
  let r := s.gangRec v.gang
  let mine := s.slots.filter fun u => u.gang == v.gang
  let prim := mine.any fun u => u.primary
  let starve := if mine.any fun u => !u.primary then 0 else if prim && v.secondary then r.starve + 1 else r.starve
  let since := if v.primary && !prim then some (r.readySince.getD s.clock) else none
  let s := if starve = 256 then s.post (.starvationBreak v.gang) else s
  let s := match since with
    | some c => if s.clock + 1 = c + 4096 then s.post (.primaryWaveAgeLimit v.gang) else s
    | none => s
  s.setGang { r with starve := if starve = 256 then 0 else starve, readySince := since
                     breakNext := r.breakNext && !mine.any fun u => u.inPlace
                     force := r.force && v.primary && !prim
                     lastIssue := if mine.isEmpty then r.lastIssue else s.clock }

/-- The clock to which time passes: the next one, or the next at which something is due. -/
def State.nextClock (s : State) : Nat :=
  let due := s.budgetEnds ++ (s.timers.map fun t => t.1) ++ ((s.fibres.filter fun f => f.runs).map fun f => f.readyAt)
  match minBy (fun n => n) due with
  | none => s.clock + 1
  | some c => max (s.clock + 1) c

/-- Time passes. -/
def State.tick (s : State) : State :=
  let s := (match s.plan with | some p => p.views | none => []).foldl State.ageGang s
  let due := s.nextClock
  { s.drainBudgets (due - s.clock) with clock := due, slots := [], plan := none, cur := [] }

/-- A slot start that is due comes before every other change of its clock (R300). -/
def State.dueSlot (s : State) : Option (Event × List (Nat × Event)) :=
  (s.timers.find? fun t => decide (t.1 ≤ s.clock) && (match t.2 with | .sinkSlotStart _ => true | _ => false)).map fun t => (t.2, s.timers.erase t)

/-- The expiry of a watchdog: an arrival in its clock still counts, so that it comes after the clock's issues (R366, R484). -/
def expiry : Event → Bool
  | .barrierTimeout .. | .convergeTimeout .. | .replCompareTimeout .. => true
  | _ => false

/-- The first timer that is due among those that satisfy `p`, and the others. -/
def State.firstDue (s : State) (p : Event → Bool) : Option (Event × List (Nat × Event)) :=
  (minBy (fun (t : Nat × Event) => t.1) (s.timers.filter fun t => decide (t.1 ≤ s.clock) && p t.2)).map fun t => (t.2, s.timers.erase t)

/-- The first timer that is due before the issues of a clock, and the first that is due after them. -/
def State.dueTimer (s : State) : Option (Event × List (Nat × Event)) := s.firstDue fun e => !expiry e
def State.dueExpiry (s : State) : Option (Event × List (Nat × Event)) := s.firstDue expiry

/-- One step over a decoder `dec`, an execution `ex`, a reading of events `ev`, and what comes about by itself, `settle`: an event that is due,
else an issue, else a watchdog that expires, else the passing of time. Before READY, and once the device has stopped, only events and time pass (R421, R443). -/
def stepWith {α : Type} (dec : List Word → Except Reject (α × List Word)) (ex : α → State → Host.Outcome State Fault Refusal)
    (ev : Event → α) (settle : State → State) (s : State) : Host.Outcome State Fault Refusal :=
  match s.dueSlot with
  | some (e, r) => ex (ev e) { s with timers := r }
  | none =>
    let s := if s.ready then settle s else s
    match s.agenda with
    | e :: r => ex (ev e) { s with agenda := r }
    | [] =>
      match s.dueTimer with
      | some (e, r) => ex (ev e) { s with timers := r }
      | none =>
        let s := if s.ready then s.makePlan else s
        match if s.ready then s.pick else none with
        | some c => (s.noteIssue c).issueWith dec ex
        | none =>
          match s.dueExpiry with
          | some (e, r) => ex (ev e) { s with timers := r }
          | none => .next s.tick

end Sys2Proof.Machine
end

