-- ==== Sys2Proof/Machine/Num.lean ====
section
/-! DEFINITION. Number formats and exact arithmetic (R136 to R146): decoding a format, rounding an exact real to a format with its
flags, sums and products of exact reals, order, minimum and maximum, and the approximations that bound the special functions
(R231). -/

namespace Sys2Proof.Machine

/-! ### Formats (R136) -/

/-- A floating-point format: widths of E and M, bias, and the meaning of the top exponent (0 IEEE, 1 E4M3, 2 E2M1). -/
structure Fmt where
  ew : Nat
  mw : Nat
  bias : Nat
  top : Nat
  deriving DecidableEq, Repr

/-- The format of a floating-point type; F32 for the others. -/
def OpTypeFmt (t : OpType) : Fmt :=
  match t with
  | .f16 => ⟨5, 10, 15, 0⟩
  | .bf16 => ⟨8, 7, 127, 0⟩
  | .e4m3 => ⟨4, 3, 7, 1⟩
  | .e5m2 => ⟨5, 2, 15, 0⟩
  | .e2m1 => ⟨2, 1, 1, 2⟩
  | .f32 | .b32 | .b64 | .s8 | .s16 | .s32 | .s64 | .n8 | .n16 | .n32 | .n64 => ⟨8, 23, 127, 0⟩

/-- Width of a format. -/
def Fmt.width (fm : Fmt) : Nat := 1 + fm.ew + fm.mw
/-- The code of +∞ in an IEEE-style format. -/
def Fmt.infCode (fm : Fmt) : Nat := (2 ^ fm.ew - 1) * 2 ^ fm.mw
/-- The code of the largest finite magnitude. -/
def Fmt.maxCode (fm : Fmt) : Nat :=
  if fm.top = 0 then fm.infCode - 1 else if fm.top = 1 then 2 ^ (fm.ew + fm.mw) - 2 else 2 ^ (fm.ew + fm.mw) - 1
/-- The canonical NaN (R137); E2M1 has none and gives +0 (R141). -/
def Fmt.nan (fm : Fmt) : Nat :=
  if fm.top = 0 then fm.infCode + 2 ^ (fm.mw - 1) else if fm.top = 1 then 2 ^ (fm.ew + fm.mw) - 1 else 0
/-- The sign bit set or not. -/
def Fmt.signed (fm : Fmt) (neg : Bool) (code : Nat) : Nat := code + if neg then 2 ^ (fm.ew + fm.mw) else 0

/-! ### Flags (R147) -/

def fNV : BitVec 5 := 16
def fDZ : BitVec 5 := 8
def fOF : BitVec 5 := 4
def fUF : BitVec 5 := 2
def fNX : BitVec 5 := 1

/-! ### Exact values -/

/-- An exact value: a NaN, signalling or not, an infinity, or a sign and a fraction n/d (d > 0). -/
inductive FV where
  | nan (sig : Bool)
  | inf (neg : Bool)
  | num (neg : Bool) (n d : Nat)
  deriving DecidableEq, Repr

/-- n/d times 2^k, as a fraction. -/
def scale (n d : Nat) (k : Int) : Nat × Nat := if 0 ≤ k then (n * 2 ^ k.toNat, d) else (n, d * 2 ^ (-k).toNat)

/-- The value of a code of a format (R136, R137). -/
def Fmt.value (fm : Fmt) (x : Nat) : FV :=
  let neg := x / 2 ^ (fm.ew + fm.mw) % 2 == 1
  let code := x % 2 ^ (fm.ew + fm.mw)
  let e := code / 2 ^ fm.mw
  let m := code % 2 ^ fm.mw
  if fm.top = 0 ∧ e = 2 ^ fm.ew - 1 then
    if m = 0 then .inf neg else .nan (m < 2 ^ (fm.mw - 1))
  else if fm.top = 1 ∧ code = 2 ^ (fm.ew + fm.mw) - 1 then .nan false
  else
    let (n, d) := scale (if e = 0 then m else 2 ^ fm.mw + m) 1 ((max e 1 : Nat) - (fm.bias : Int) - fm.mw)
    .num neg n d

/-- The value is a zero. -/
def FV.isZero : FV → Bool
  | .num _ n _ => n == 0
  | .nan _ => false
  | .inf _ => false
/-- The sign. -/
def FV.neg : FV → Bool
  | .num s _ _ => s
  | .inf s => s
  | .nan _ => false
/-- The value is a NaN, or a signalling one. -/
def FV.isNan : FV → Bool
  | .nan _ => true
  | .num _ _ _ => false
  | .inf _ => false
def FV.isSig : FV → Bool
  | .nan s => s
  | .num _ _ _ => false
  | .inf _ => false
/-- The value with its sign reversed. -/
def FV.negate : FV → FV
  | .num s n d => .num (!s) n d
  | .inf s => .inf (!s)
  | .nan s => .nan s

/-- The number of a finite value. -/
def FV.signedNum : FV → Int
  | .num s n _ => if s then -(n : Int) else n
  | .nan _ => 0
  | .inf _ => 0
/-- The denominator of a finite value. -/
def FV.den : FV → Nat
  | .num _ _ d => d
  | .nan _ => 1
  | .inf _ => 1

/-- The value of an integer. -/
def FV.ofInt (x : Int) : FV := .num (decide (x < 0)) x.natAbs 1

/-! ### Rounding (R141) -/

/-- floor(log2 (n/d)) for n > 0. -/
def floorLog2 (n d : Nat) : Int :=
  let k : Int := (Nat.log2 n : Int) - Nat.log2 d
  let (n', d') := scale n d (-k)
  if d' ≤ n' then k else k - 1

/-- RoundGrid of a magnitude: n/d to a multiple of 2^k under a mode (0 RNE, 1 RZ, 2 RUP, 3 RDN), as the multiple and whether it
is exact. -/
def roundGrid (n d : Nat) (k : Int) (mode : Nat) (neg : Bool) : Nat × Bool :=
  let (n', d') := scale n d (-k)
  let q := n' / d'
  let r := n' % d'
  let up := match mode with
    | 0 => decide (d' < 2 * r) || (2 * r == d' && q % 2 == 1)
    | 1 => false
    | 2 => r != 0 && !neg
    | _ => r != 0 && neg
  (if up then q + 1 else q, r == 0)

/-- InfiniteResult (R141) of an infinity: the code and whether NV is set for an infinite operand. -/
def Fmt.infinite (fm : Fmt) (neg : Bool) : Nat :=
  fm.signed neg (if fm.top = 0 then fm.infCode else if fm.top = 1 then 2 ^ (fm.ew + fm.mw) - 1 else fm.maxCode)

/-- OverflowResult is finite (R141). -/
def overflowFinite (mode : Nat) (neg : Bool) : Bool :=
  match mode with
  | 0 => false
  | 1 => true
  | 2 => neg
  | _ => !neg

/-- RoundToFormat (R141); `ftz` is FtzOut, and `sat` the .SAT of a conversion (R233). -/
def Fmt.round (fm : Fmt) (mode : Nat) (ftz sat : Bool) (x : FV) : Nat × BitVec 5 :=
  match x with
  | .nan _ => (fm.nan, if fm.top = 2 then fNV else 0)
  | .inf s => (if sat then fm.signed s fm.maxCode else fm.infinite s, if fm.top = 0 then 0 else fNV)
  | .num s n d =>
    if n = 0 then (fm.signed s 0, 0)
    else
      let l := floorLog2 n d
      let (q, ex) := roundGrid n d (l - fm.mw) mode s
      let e : Int := l + fm.bias
      let code : Int := (e - 1) * 2 ^ fm.mw + q
      if (fm.maxCode : Int) < code then
        (if sat || overflowFinite mode s then fm.signed s fm.maxCode else fm.infinite s, fOF ||| fNX)
      else if code < 2 ^ fm.mw then
        if ftz then (fm.signed s 0, fUF ||| fNX)
        else
          let (y, exact) := roundGrid n d (1 - (fm.bias : Int) - fm.mw) mode s
          (fm.signed s y, if exact then 0 else fUF ||| fNX)
      else (fm.signed s code.toNat, if ex then 0 else fNX)

/-! ### Exact operations (R142, R143) -/

/-- NV where an operand is a signalling NaN. -/
def sigFlags (xs : List FV) : BitVec 5 := if xs.any FV.isSig then fNV else 0

/-- An exact sum: an exact zero takes its sign as R142 gives. -/
def FV.add (mode : Nat) (a b : FV) : FV × BitVec 5 :=
  match a, b with
  | .nan _, _ | _, .nan _ => (.nan false, sigFlags [a, b])
  | .inf s, .inf t => if s == t then (.inf s, 0) else (.nan false, fNV)
  | .inf s, .num .. => (.inf s, 0)
  | .num .., .inf t => (.inf t, 0)
  | .num s n d, .num t m c =>
    let x := a.signedNum * c + b.signedNum * d
    if x = 0 then (.num (if n = 0 ∧ m = 0 ∧ s = t then s else mode == 3) 0 1, 0)
    else (.num (decide (x < 0)) x.natAbs (d * c), 0)

/-- An exact product. -/
def FV.mul (a b : FV) : FV × BitVec 5 :=
  match a, b with
  | .nan _, _ | _, .nan _ => (.nan false, sigFlags [a, b])
  | .inf s, .inf t => (.inf (s != t), 0)
  | .inf s, .num t n _ => if n = 0 then (.nan false, fNV) else (.inf (s != t), 0)
  | .num s n _, .inf t => if n = 0 then (.nan false, fNV) else (.inf (s != t), 0)
  | .num s n d, .num t m c => (.num (s != t) (n * m) (d * c), 0)

/-- An exact a × b + c with one rounding to come (R227). -/
def FV.fma (mode : Nat) (a b c : FV) : FV × BitVec 5 :=
  let (p, fl) := a.mul b
  let (r, fl') := p.add mode c
  (r, fl ||| fl' ||| sigFlags [c])

/-- a × 2^k. -/
def FV.scaleBy (a : FV) (k : Int) : FV :=
  match a with
  | .num s n d => let (n', d') := scale n d k; .num s n' d'
  | .nan s => .nan s
  | .inf s => .inf s

/-- a < b for two numbers or infinities, and a = b. -/
def FV.lt (a b : FV) : Bool :=
  match a, b with
  | .nan _, _ | _, .nan _ => false
  | .inf s, .inf t => s && !t
  | .inf s, .num .. => s
  | .num .., .inf t => !t
  | .num _ _ d, .num _ _ c => decide (a.signedNum * c < b.signedNum * d)
def FV.eq (a b : FV) : Bool := !a.isNan && !b.isNan && !a.lt b && !b.lt a

/-- A fraction rounded to an integer in a mode, and whether it is exact. -/
def FV.toInteger (mode : Nat) (a : FV) : Int × Bool :=
  match a with
  | .num s n d => let (q, ex) := roundGrid n d 0 mode s; (if s then -(q : Int) else q, ex)
  | .nan _ => (0, false)
  | .inf _ => (0, false)

/-! ### Minimum and maximum of codes (R146) -/

/-- The order of codes, with −0 below +0. -/
def Fmt.orderKey (fm : Fmt) (x : Nat) : Int :=
  let m := x % 2 ^ (fm.ew + fm.mw)
  if x / 2 ^ (fm.ew + fm.mw) % 2 = 1 then -(m : Int) - 1 else m

/-- minimumNumber, or with `mx` maximumNumber: the selected code. -/
def Fmt.select (fm : Fmt) (mx : Bool) (x y : Nat) : Nat × BitVec 5 :=
  let a := fm.value x
  let b := fm.value y
  let r := if a.isNan && b.isNan then fm.nan
    else if a.isNan then y
    else if b.isNan then x
    else if mx then (if fm.orderKey x < fm.orderKey y then y else x)
    else if fm.orderKey y < fm.orderKey x then y else x
  (r, sigFlags [a, b])

/-! ### Roots -/

/-- The integer square root, bit by bit from bit `k − 1` down. -/
def isqrtFrom (n r : Nat) : Nat → Nat
  | 0 => r
  | k + 1 => if (r + 2 ^ k) * (r + 2 ^ k) ≤ n then isqrtFrom n (r + 2 ^ k) k else isqrtFrom n r k

/-- A fraction that rounds as √(n/d) does, with 160 bits below the point: the root, or a point strictly between two neighbours of
that grid. -/
def sqrtFrac (n d : Nat) : Nat × Nat :=
  let x := n * 2 ^ 320
  let r := isqrtFrom (x / d) 0 240
  if r * r * d = x then (r, 2 ^ 160) else (2 * r + 1, 2 ^ 161)

/-! ### Approximations of the special functions

Fixed-point numbers with 160 bits below the point; each approximation lies within 2^−40 of the function, relative to it where
R231 bounds a relative error. -/

def fxBits : Nat := 160
def fxOne : Int := 2 ^ 160
/-- ln 2 with 160 bits, and π with 288 bits below the point. -/
def ln2Fx : Int := 0xb17217f7d1cf79abc9e3b39803f2f6af40f34326
def piFx : Int := 0x3243f6a8885a308d313198a2e03707344a4093822299f31d0082efa98ec4e6c89452821e6

/-- A product of fixed-point numbers. -/
def fxMul (a b : Int) : Int := (a * b).fdiv fxOne

/-- Σ t·x^k/k! from term `t` of index `i` on, `n` terms. -/
def expSeries (x t : Int) (i : Nat) : Nat → Int
  | 0 => 0
  | n + 1 => t + expSeries x ((fxMul t x).fdiv (i + 1 : Nat)) (i + 1) n
/-- e^x for 0 ≤ x < 1. -/
def expFx (x : Int) : Int := expSeries x fxOne 0 48

/-- The alternating series Σ (−1)^k x^(2k+i)/(2k+i)!. -/
def trigSeries (x2 t : Int) (i : Nat) : Nat → Int
  | 0 => 0
  | n + 1 => t + trigSeries x2 (-((fxMul t x2).fdiv ((i + 1) * (i + 2) : Nat))) (i + 2) n

/-- log2 of m in [1, 2), by squaring: `n` bits. -/
def log2Bits (m : Int) : Nat → Int
  | 0 => 0
  | n + 1 =>
    let s := fxMul m m
    if 2 * fxOne ≤ s then 2 ^ n + log2Bits (s / 2) n else log2Bits s n

/-- sin, or with `c` cos, of n/d ≥ 0, in fixed point. -/
def sinFx (c : Bool) (n d : Nat) : Int :=
  let x : Int := ((n : Int) * 2 ^ 288) / d
  let r := (x % (2 * piFx)) / 2 ^ 128
  let r2 := fxMul r r
  if c then trigSeries r2 fxOne 0 40 else trigSeries r2 r 1 40

/-- tanh of n/d > 0 as a fraction. -/
def tanhFrac (n d : Nat) : Nat × Nat :=
  if n * 2 ^ 12 < d then
    -- x − x³/3
    (3 * n * d * d - n * n * n, 3 * d * d * d)
  else if 64 * d ≤ n then (1, 1)
  else
    let y : Int := (2 * (n : Int) * fxOne) / d
    let k := (y / ln2Fx).toNat
    let p := expFx (y % ln2Fx) * 2 ^ k
    ((p - fxOne).toNat, (p + fxOne).toNat)

/-- 2^(n/d) with the sign of the exponent, as a fraction; |n/d| is below 2^10. -/
def ex2Frac (neg : Bool) (n d : Nat) : Nat × Nat :=
  let x : Int := ((if neg then -(n : Int) else n) * fxOne).fdiv d
  let k := x.fdiv fxOne
  scale (expFx (fxMul (x - k * fxOne) ln2Fx)).toNat (2 ^ fxBits) k

/-- log2 (n/d) in fixed point with 64 bits of fraction computed. -/
def log2Fx (n d : Nat) : Int :=
  let l := floorLog2 n d
  let (n', d') := scale n d (-l)
  l * fxOne + log2Bits ((n' : Int) * fxOne / d') 96 * 2 ^ 64

end Sys2Proof.Machine
end

