-- ==== Sys2Proof/Machine/Flags.lean ====
section
/-! DEFINITION. Flag computations: every floating-point operation on codes with the flags it sets, under the flush bits of FTZ_CTL
(R141 to R147, R225 to R236), and the special functions with their bounds (R231). -/

namespace Sys2Proof.Machine

/-- A code and the flags that computing it sets. -/
abbrev FRes := Nat × BitVec 5

/-! ### Flushing (R144, R145) -/

/-- The _IN bit of a format in FTZ_CTL; the _OUT bit stands one above it. E2M1 is never flushed. -/
def ftzBit (ty : OpType) : Option Nat :=
  match ty with
  | .f16 => some 2
  | .bf16 => some 4
  | .e4m3 | .e5m2 => some 6
  | .e2m1 => none
  | .f32 | .b32 | .b64 | .s8 | .s16 | .s32 | .s64 | .n8 | .n16 | .n32 | .n64 => some 0

/-- Operands of a format are flushed, and results. -/
def ftzIn (ctl : DWord) (ty : OpType) : Bool := match ftzBit ty with | some i => ctl.getLsbD i | none => false
def ftzOut (ctl : DWord) (ty : OpType) : Bool := match ftzBit ty with | some i => ctl.getLsbD (i + 1) | none => false

/-- An operand's code after flushing: a subnormal becomes a zero of its sign. -/
def flushCode (ctl : DWord) (ty : OpType) (x : Nat) : Nat :=
  let fm := OpTypeFmt ty
  let m := x % 2 ^ (fm.ew + fm.mw)
  if ftzIn ctl ty ∧ 0 < m ∧ m < 2 ^ fm.mw then x - m else x

/-- The exact value of an operand after flushing. -/
def operand (ctl : DWord) (ty : OpType) (x : Nat) : FV := (OpTypeFmt ty).value (flushCode ctl ty x)

/-- Round to a format under FTZ_CTL. -/
def result (ctl : DWord) (ty : OpType) (mode : Nat) (x : FV) : FRes := (OpTypeFmt ty).round mode (ftzOut ctl ty) false x

/-- The clamp of .SAT (R226): to [0, 1], a NaN to +0. -/
def satUnit (ty : OpType) (sat : Bool) (r : FRes) : FRes :=
  let fm := OpTypeFmt ty
  let one := fm.bias * 2 ^ fm.mw
  let v := fm.value r.1
  if !sat then r
  else if v.isNan || v.neg then (0, r.2)
  else if one < r.1 then (one, r.2) else r

/-- Join an exact operation's flags to its rounding. -/
def rounded (ctl : DWord) (ty : OpType) (mode : Nat) (sat : Bool) (x : FV × BitVec 5) : FRes :=
  let r := result ctl ty mode x.1
  satUnit ty sat (r.1, r.2 ||| x.2)

/-! ### Arithmetic on codes (R227, R230) -/

def fpAdd (ctl : DWord) (ty : OpType) (mode : Nat) (sat : Bool) (a b : Nat) : FRes :=
  rounded ctl ty mode sat ((operand ctl ty a).add mode (operand ctl ty b))
def fpSub (ctl : DWord) (ty : OpType) (mode : Nat) (sat : Bool) (a b : Nat) : FRes :=
  rounded ctl ty mode sat ((operand ctl ty a).add mode (operand ctl ty b).negate)
def fpMul (ctl : DWord) (ty : OpType) (mode : Nat) (sat : Bool) (a b : Nat) : FRes :=
  rounded ctl ty mode sat ((operand ctl ty a).mul (operand ctl ty b))
def fpFma (ctl : DWord) (ty : OpType) (mode : Nat) (sat : Bool) (a b c : Nat) : FRes :=
  rounded ctl ty mode sat (FV.fma mode (operand ctl ty a) (operand ctl ty b) (operand ctl ty c))
/-- FMIN and FMAX: never rounded or result-flushed (R146). -/
def fpSelect (ctl : DWord) (ty : OpType) (mx : Bool) (a b : Nat) : FRes :=
  (OpTypeFmt ty).select mx (flushCode ctl ty a) (flushCode ctl ty b)

/-- FRND: an integral value with the sign of b; only a signalling NaN sets a flag (R227). -/
def fpRnd (ctl : DWord) (mode : Nat) (b : Nat) : FRes :=
  match operand ctl .f32 b with
  | .nan s => ((OpTypeFmt .f32).nan, if s then fNV else 0)
  | .inf s => ((OpTypeFmt .f32).infinite s, 0)
  | .num s n d => (((OpTypeFmt .f32).round 0 false false (.num s (roundGrid n d 0 mode s).1 1)).1, 0)

/-- FSCALE: a × 2^n (R227). A magnitude of n beyond 700 gives what 700 gives. -/
def fpScale (ctl : DWord) (mode : Nat) (a : Nat) (n : Int) : FRes :=
  let v := operand ctl .f32 a
  let n := if n < -700 then -700 else if 700 < n then 700 else n
  rounded ctl .f32 mode false (v.scaleBy n, sigFlags [v])

/-- FSETP: the predicate and the flags (R228). -/
def fpCompare (ctl : DWord) (cc : Nat) (x y : Nat) : Bool × BitVec 5 :=
  let a := operand ctl .f32 x
  let b := operand ctl .f32 y
  let un := a.isNan || b.isNan
  let sig := sigFlags [a, b]
  let r (t u : Bool) (q : Bool) : Bool × BitVec 5 := (if un then u else t, sig ||| if un && q then fNV else 0)
  match cc with
  | 0 => r (a.eq b) false false
  | 8 => r (a.eq b) true false
  | 1 => r (!a.eq b) false false
  | 9 => r (!a.eq b) true false
  | 2 => r (a.lt b) false true
  | 10 => r (a.lt b) true false
  | 3 => r (!b.lt a) false true
  | 11 => r (!b.lt a) true false
  | 4 => r (b.lt a) false true
  | 12 => r (b.lt a) true false
  | 5 => r (!a.lt b) false true
  | 13 => r (!a.lt b) true false
  | 6 => r true false false
  | _ => r false true false

/-- FCLASS: the mask of the class, without flushing (R229). -/
def fpClass (x : Nat) : Nat :=
  let fm := OpTypeFmt .f32
  let m := x % 2 ^ (fm.ew + fm.mw)
  match fm.value x with
  | .nan s => if s then 2 ^ 8 else 2 ^ 9
  | .inf s => if s then 1 else 2 ^ 7
  | .num s _ _ =>
    if m = 0 then (if s then 2 ^ 3 else 2 ^ 4)
    else if m < 2 ^ fm.mw then (if s then 2 ^ 2 else 2 ^ 5)
    else if s then 2 else 2 ^ 6

/-- FDOT2: c + a_0 × b_0 + a_1 × b_1, exact, with one rounding; infinities of opposite sign among the products and c set NV whatever else is there
(R230). -/
def fpDot2 (ctl : DWord) (ty : OpType) (mode : Nat) (sat : Bool) (a b c : Nat) : FRes :=
  let el (x i : Nat) : FV := operand ctl ty (x / 2 ^ (16 * i) % 2 ^ 16)
  let (p, fp) := (el a 0).mul (el b 0)
  let (q, fq) := (el a 1).mul (el b 1)
  let z := operand ctl .f32 c
  let xs := [p, q, z]
  let opposite := xs.any (fun x => x == .inf false) && xs.any fun x => x == .inf true
  rounded ctl .f32 mode sat (((p.add mode q).1.add mode z).1, fp ||| fq ||| sigFlags [z] ||| if opposite then fNV else 0)

/-! ### Conversions (R233 to R235) -/

/-- A float of one format to another, with .SAT (R233). -/
def fpConvert (ctl : DWord) (src dst : OpType) (mode : Nat) (sat : Bool) (x : Nat) : FRes :=
  let v := operand ctl src x
  let r := (OpTypeFmt dst).round mode (ftzOut ctl dst) sat v
  (r.1, r.2 ||| sigFlags [v])

/-- A float to an integer type: the integer and the flags (R234). -/
def fpToInt (ctl : DWord) (src : OpType) (lo hi : Int) (mode : Nat) (x : Nat) : Int × BitVec 5 :=
  match operand ctl src x with
  | .nan _ => (0, fNV)
  | .inf s => (if s then lo else hi, fNV)
  | .num s n d =>
    let (q, ex) := FV.toInteger mode (.num s n d)
    if hi < q then (hi, fNV) else if q < lo then (lo, fNV) else (q, if ex then 0 else fNX)

/-- An integer to a float (R235). -/
def fpOfInt (ctl : DWord) (dst : OpType) (mode : Nat) (sat : Bool) (x : Int) : FRes :=
  (OpTypeFmt dst).round mode (ftzOut ctl dst) sat (FV.ofInt x)

/-! ### Special functions (R231) -/

/-- The distance of two fractions is at most a third. -/
def near (n d m c k l : Nat) : Bool := decide ((n * c - m * d) * l ≤ k * (d * c) ∧ (m * d - n * c) * l ≤ k * (d * c))

/-- A bound of `u` ulp at a magnitude n/d, as a fraction; below MinNormal it is 2^−149. -/
def ulpBound (u n d : Nat) : Nat × Nat :=
  let l := floorLog2 n d
  if l < -126 then (1, 2 ^ 149) else scale u 1 (l - 23)

/-- The free value of the implementation where it is a non-negative number within a bound of the magnitude n/d and at most
`cap`; otherwise the value nearest to n/d. -/
def chosen (minor : Nat) (b : Nat) (n d : Nat) (bound : Nat × Nat) (cap : Nat) : Nat :=
  let raw := (Config.specialRaw minor (BitVec.ofNat 32 b)).toNat
  let ok : Bool := match (OpTypeFmt .f32).value raw with
    | .num false m c => near m c n d bound.1 bound.2 && decide (raw ≤ cap)
    | .num true _ _ => false
    | .nan _ => false
    | .inf _ => false
  if ok then raw else min cap (if n = 0 then 0 else ((OpTypeFmt .f32).round 0 false false (.num false n d)).1)

/-- The flags and the flush of a result that is not exact (R231): NX, and UF where it is zero or subnormal. -/
def inexactResult (ctl : DWord) (neg : Bool) (code : Nat) : FRes :=
  let fm := OpTypeFmt .f32
  let tiny : Bool := decide (code < 2 ^ 23)
  (fm.signed neg (if tiny && ftzOut ctl .f32 then 0 else code), fNX ||| if tiny then fUF else 0)

/-- An exact finite value of the table: no NX of its own; UF with NX where it is zero or subnormal. -/
def exactResult (ctl : DWord) (neg : Bool) (code : Nat) : FRes :=
  let fm := OpTypeFmt .f32
  let tiny : Bool := decide (code < 2 ^ 23)
  (fm.signed neg (if tiny && ftzOut ctl .f32 then 0 else code), if tiny then fNX ||| fUF else 0)

/-- The code of 1.0 and of +∞ in F32. -/
def f32One : Nat := 0x3F800000
def f32Inf : Nat := 0x7F800000
def f32Nan : Nat := 0x7FC00000
/-- The code of a number in F32, rounded to nearest. -/
def f32Of (neg : Bool) (n d : Nat) : Nat := ((OpTypeFmt .f32).round 0 false false (.num neg n d)).1

/-- Is n/d a power of two; its exponent is then `floorLog2`. -/
def isPow2 (n d : Nat) : Bool := scale n d (-floorLog2 n d) |> fun (a, b) => a == b

/-- A function on the magnitude of b whose result is rounded or a special value. -/
def spRcp (ctl : DWord) (mode : Nat) : FV → FRes
  | .nan s => (f32Nan, if s then fNV else 0)
  | .inf s => ((OpTypeFmt .f32).signed s 0, 0)
  | .num s n d => if n = 0 then ((OpTypeFmt .f32).infinite s, fDZ) else result ctl .f32 mode (.num s d n)

def spSqrt (ctl : DWord) (mode : Nat) : FV → FRes
  | .nan s => (f32Nan, if s then fNV else 0)
  | .inf s => if s then (f32Nan, fNV) else (f32Inf, 0)
  | .num s n d =>
    if n = 0 then ((OpTypeFmt .f32).signed s 0, 0)
    else if s then (f32Nan, fNV)
    else let (m, c) := sqrtFrac n d; result ctl .f32 mode (.num false m c)

def spRsq (ctl : DWord) (b : Nat) : FV → FRes
  | .nan s => (f32Nan, if s then fNV else 0)
  | .inf s => if s then (f32Nan, fNV) else (0, 0)
  | .num s n d =>
    if n = 0 then ((OpTypeFmt .f32).infinite s, fDZ)
    else if s then (f32Nan, fNV)
    else
      let (m, c) := sqrtFrac d n
      if isPow2 n d && floorLog2 n d % 2 == 0 then exactResult ctl false (f32Of false m c)
      else inexactResult ctl false (chosen 1 b m c (ulpBound 1 m c) (f32Inf - 1))

def spEx2 (ctl : DWord) (b : Nat) : FV → FRes
  | .nan s => (f32Nan, if s then fNV else 0)
  | .inf s => (if s then 0 else f32Inf, 0)
  | .num s n d =>
    if n = 0 then (f32One, 0)
    else if !s && 128 * d ≤ n then (f32Inf, fOF ||| fNX)
    else if n % d = 0 ∧ (!s ∨ n / d ≤ 149) then
      let (m, c) := scale 1 1 (if s then -((n / d : Nat) : Int) else (n / d : Nat))
      exactResult ctl false (f32Of false m c)
    else if s && 1000 * d ≤ n then inexactResult ctl false (chosen 3 b 0 1 (1, 2 ^ 149) 1)
    else
      let (m, c) := ex2Frac s n d
      inexactResult ctl false (chosen 3 b m c (ulpBound 2 m c) (f32Inf - 1))

def spLg2 (ctl : DWord) (b : Nat) : FV → FRes
  | .nan s => (f32Nan, if s then fNV else 0)
  | .inf s => if s then (f32Nan, fNV) else (f32Inf, 0)
  | .num s n d =>
    if n = 0 then ((OpTypeFmt .f32).infinite true, fDZ)
    else if s then (f32Nan, fNV)
    else if isPow2 n d then
      let k := floorLog2 n d
      if k = 0 then exactResult ctl false 0 else ((f32Of (decide (k < 0)) k.natAbs 1), 0)
    else
      let y := log2Fx n d
      let m := y.natAbs
      let c := 2 ^ fxBits
      let bound := if d ≤ 2 * n ∧ n ≤ 2 * d then (1, 2 ^ 22) else ulpBound 2 m c
      inexactResult ctl (decide (y < 0)) (chosen 4 b m c bound (f32Inf - 1))

def spTrig (ctl : DWord) (cosine : Bool) (b : Nat) : FV → FRes
  | .nan s => (f32Nan, if s then fNV else 0)
  | .inf _ => (f32Nan, fNV)
  | .num s n d =>
    if n = 0 then (if cosine then f32One else (OpTypeFmt .f32).signed s 0, 0)
    else
      let y := sinFx cosine n d
      let neg := (decide (y < 0)) != (s && !cosine)
      inexactResult ctl neg (chosen (if cosine then 6 else 5) b y.natAbs (2 ^ fxBits) (1, 2 ^ 22) f32One)

def spTanh (ctl : DWord) (b : Nat) : FV → FRes
  | .nan s => (f32Nan, if s then fNV else 0)
  | .inf s => ((OpTypeFmt .f32).signed s f32One, 0)
  | .num s n d =>
    if n = 0 then ((OpTypeFmt .f32).signed s 0, 0)
    else
      let (m, c) := tanhFrac n d
      inexactResult ctl s (chosen 7 b m c (ulpBound 2 m c) f32One)

/-- The special function of a minor of major 0x1E; the free value sees b without its sign where the function is odd or even. -/
def fpSpecial (ctl : DWord) (minor mode : Nat) (x : Nat) : FRes :=
  let x := flushCode ctl .f32 x
  let v := (OpTypeFmt .f32).value x
  let m := x % 2 ^ 31
  match minor with
  | 0 => spRcp ctl mode v
  | 1 => spRsq ctl x v
  | 2 => spSqrt ctl mode v
  | 3 => spEx2 ctl x v
  | 4 => spLg2 ctl x v
  | 5 => spTrig ctl false m v
  | 6 => spTrig ctl true m v
  | _ => spTanh ctl m v

/-! ### Reduction (R150) -/

/-- The lesser or the greater, or a sum, with RNE and no flush. -/
def fpCombine (ty : OpType) (op : Nat) (a b : Nat) : Nat :=
  match op with
  | 0 => (fpAdd 0 ty 0 false a b).1
  | 1 => (fpSelect 0 ty false a b).1
  | _ => (fpSelect 0 ty true a b).1

end Sys2Proof.Machine
end

