-- ==== Sys2Proof/Machine/Groups.lean ====
section
/-! DEFINITION. Groups at work: membership (R41, R42), dissolution (R45), barrier phases (R44, R195), convergence rounds (R46, R47), the
serial phase of buffered .ORD updates (R378, R379), the end of a fibre (R188, R129) and the end of a pipeline (R200). -/

namespace Sys2Proof.Machine

/-! ### Buffered updates -/

/-- SiteAdd (R248): integers wrap; F32 and each half of F16 round to nearest even, with nothing flushed. -/
def siteAdd (ty : OpType) (old x : Nat) : Nat :=
  match ty with
  | .f32 => (fpAdd 0 .f32 0 false old x).1
  | .f16 => (fpAdd 0 .f16 0 false (old % 2 ^ 16) (x % 2 ^ 16)).1 + (fpAdd 0 .f16 0 false (old / 2 ^ 16 % 2 ^ 16) (x / 2 ^ 16 % 2 ^ 16)).1 * 2 ^ 16
  | .bf16 | .e4m3 | .e5m2 | .e2m1 | .b32 | .b64 | .s8 | .s16 | .s32 | .s64 | .n8 | .n16 | .n32 | .n64 => (old + x) % 2 ^ ty.width

/-- The type of a buffered update. -/
def OrdUpdate.ty (u : OrdUpdate) : OpType := if u.f16 then .f16 else .f32

/-- The epoch of an update: the interval, or its pipeline's lifetime when intervals are off (R379). -/
def State.epochOf (s : State) (part : Nat) (u : OrdUpdate) : Option Nat := if (s.partn part).intCtl.getLsbD 33 then none else some u.pipe

/-- Record an update in the log of its line's epoch (R379). The prior value is what the update's tag reads, whether it has a version yet or not. -/
def State.logOrd (s : State) (part handle : Nat) (u : OrdUpdate) : State :=
  let t := if u.loc.vers then s.writeTag part u.tag else 0
  let line := copyKey t u.loc.key / 128
  let epoch := s.epochOf part u
  let prior := (List.range 4).flatMap fun i => (s.engineRead part u.tag { u.loc with key := u.loc.key / 128 * 128 + 32 * i } 32).1
  let mine (l : OrdLine) : Bool := l.line == line && l.pipe == epoch
  s.updPart part fun p =>
    if p.ordLines.any mine then
      { p with ordLines := mapIf mine (fun l => { l with shared := l.shared || l.grp != handle, log := l.log ++ [u] }) p.ordLines }
    else { p with ordLines := p.ordLines ++ [{ line := line, pipe := epoch, prior := prior, grp := handle, shared := false, log := [u] }] }

/-- The live fibres of a fibre's replica set, itself first (R362). -/
def State.replicaUids (s : State) (uid : Nat) : List Nat :=
  let f := s.fibre uid
  uid :: (s.fibres.filter fun g => g.part == f.part && g.pipe == f.pipe && g.setId == f.setId && g.uid != uid && g.live).map fun g => g.uid

/-- Perform a buffered update at its site, and give the old value to its register, in every replica of its fibre (R248, R370, R378). The way of a
version that it creates was found at issue; a new one is taken where the tag has changed since (R124). -/
def State.applyOrd (s : State) (part handle : Nat) (u : OrdUpdate) : State :=
  let s := s.logOrd part handle u
  let t := if u.loc.vers then s.writeTag part u.tag else 0
  let s := if t = 0 then s else (s.takeWay part t (u.loc.key / 128 * 128)).getD s
  let (d, poison, s) := (s.createVersion part t u.loc).homeRead part u.tag u.loc 4
  let s := s.homeWrite part u.tag u.loc (leBytes 4 (siteAdd u.ty (ofLeBytes d) u.val.toNat))
  match u.dst with
  | none => s
  | some n =>
    let us := s.replicaUids u.uid
    let s := s.updAll us fun f => if f.live then f.setV n ⟨BitVec.ofNat 32 (ofLeBytes d), poison⟩ else f
    { s with pendV := s.pendV.filter fun x => !(us.contains x.1 && x.2 == n) }

/-- Apply the group's buffered updates that satisfy `p`, in ascending (LAUNCH_IDX, program order) (R378). -/
def State.serialPhase (s : State) (i : GroupId) (p : OrdUpdate → Bool) : State :=
  let us := sortBy (fun u => u.launchIdx * 2 ^ 64 + u.seq) ((s.group i).ord.filter p)
  let s := s.updGroup i fun g => { g with ord := g.ord.filter fun u => !p u }
  us.foldl (fun s u => s.applyOrd i.part i.handle u) s

/-- At an epoch's end each shared line's .ORD bytes are rewritten from the prior value and every logged update (R379). -/
def State.endEpochLine (s : State) (part : Nat) (l : OrdLine) : State :=
  if !l.shared then s
  else
    let us := sortBy (fun u => u.launchIdx * 2 ^ 64 + u.seq) l.log
    let keys := us.foldl (fun ks (u : OrdUpdate) => addOnce ks u.loc.key) []
    keys.foldl (fun s k =>
      match us.find? fun u => u.loc.key == k with
      | none => s
      | some u0 =>
        let v := (us.filter fun u => u.loc.key == k).foldl (fun v u => siteAdd u.ty v u.val.toNat)
          (ofLeBytes ((l.prior.drop (k % 128)).take 4))
        s.homeWrite part u0.tag u0.loc (leBytes 4 v)) s

/-- The end of a deterministic epoch: of the interval, or of a pipeline (R379). -/
def State.endEpoch (s : State) (part : Nat) (epoch : Option Nat) : State :=
  let s := ((s.partn part).ordLines.filter fun l => l.pipe == epoch).foldl (fun s l => s.endEpochLine part l) s
  s.updPart part fun p => { p with ordLines := p.ordLines.filter fun l => l.pipe != epoch }

/-! ### Barriers (R44, R195) -/

/-- A barrier with no open phase. -/
def Barrier.idle : Barrier := { isOpen := false, expected := [], lost := 0, arrived := [], since := 0, pipe := 0 }

/-- A barrier of a group. -/
def Group.bar (g : Group) (b : Nat) : Barrier := nth Barrier.idle g.bars b

/-- Change a barrier. -/
def Group.updBar (g : Group) (b : Nat) (h : Barrier → Barrier) : Group := { g with bars := g.bars.modify b h }

/-- Every member counted at the phase's start, less any that have left, has arrived. -/
def Barrier.complete (b : Barrier) : Bool := b.isOpen && b.lost == 0 && b.expected.all fun u => b.arrived.contains u

/-- Complete a phase whose members have all arrived: the serial phase first, then every arrived member is released (R44, R378). -/
def State.endPhase (s : State) (i : GroupId) (b : Nat) : State :=
  let bar := (s.group i).bar b
  if !bar.complete then s
  else
    let s := s.serialPhase i fun u => bar.arrived.contains u.uid || !(s.fibre u.uid).live
    let s := s.updGroup i fun g => g.updBar b fun _ => Barrier.idle
    let out := (s.fibres.filter fun f => f.groupId == i && f.wait == .barrier b)
    let s := out.foldl (fun s f => s.acquire f 1) s
    let s := s.updAll (out.map fun f => f.uid) Fibre.continues
    -- R412: on a core that migrates, the completion saves the arrived fibres in place of releasing them
    let moves (f : Fibre) : Bool := f.st == .runnable && (s.partn f.part).migrs.any fun m => m.state == 1 && m.src == f.onCore
    s.mapFibres fun f => if bar.arrived.contains f.uid && moves f then f.save else f

/-- A member enters the mask of a barrier; the first arrival opens a phase and starts the watchdog (R44, R195, R484). -/
def State.enterMask (s : State) (f : Fibre) (b : Nat) : State :=
  let i := f.groupId
  let g := s.group i
  let bar := g.bar b
  let bar' : Barrier := if bar.isOpen then bar
    else { isOpen := true, expected := g.members.map fun m => m.2, lost := g.lost.length, arrived := [], since := s.clock, pipe := f.pipe }
  let s := if bar.isOpen then s else s.timer (s.clock + watchdog (s.pipeOf f).barwd) (.barrierTimeout i b)
  s.updGroup i fun g => g.updBar b fun _ => { bar' with arrived := bar'.arrived ++ [f.uid] }

/-- The arrival in the next phase of a fibre that has waited for it (R195). -/
def State.arriveLate (s : State) (i : GroupId) (b : Nat) (u : Nat) : State :=
  let s := s.enterMask (s.fibre u) b
  let s := s.updFibre u fun f => if f.wait == .barrierNext b true then { f with wait := .barrier b } else f.continues
  s.endPhase i b

/-- Complete a phase whose members have all arrived; members that wait for the next phase arrive in it at once (R44, R195). -/
def State.completeBarrier (s : State) (i : GroupId) (b : Nat) : State :=
  if !((s.group i).bar b).complete then s
  else
    let late := (s.fibres.filter fun f => f.groupId == i && (f.wait == .barrierNext b true || f.wait == .barrierNext b false)).map fun f => f.uid
    late.foldl (fun s u => s.arriveLate i b u) (s.endPhase i b)

/-- An arrival of a member at a barrier. -/
def State.arrive (s : State) (f : Fibre) (b : Nat) : State := (s.enterMask f b).completeBarrier f.groupId b

/-- The fibre must wait for the next phase before it arrives (R195). -/
def State.arrivesNext (s : State) (f : Fibre) (b : Nat) : Bool :=
  let bar := (s.group f.groupId).bar b
  bar.isOpen && (bar.arrived.contains f.uid || !bar.expected.contains f.uid)

/-! ### Convergence (R46, R47) -/

/-- A register that has never been set. -/
def CvReg.idle : CvReg := { size := 0, signers := [], count := 0, round := 0, since := none, done := [] }

/-- A convergence register of a group. -/
def Group.cv (g : Group) (k : Nat) : CvReg := nth CvReg.idle g.cvs k

/-- Change a convergence register. -/
def Group.updCv (g : Group) (k : Nat) (h : CvReg → CvReg) : Group := { g with cvs := g.cvs.modify k h }

/-- Complete a round whose count has reached its size (R46). -/
def State.endRound (s : State) (i : GroupId) (k : Nat) : State :=
  let c := (s.group i).cv k
  if c.size = 0 ∨ c.count < c.size then s
  else
    let s := s.updGroup i fun g => g.updCv k fun c => { c with signers := [], count := 0, round := c.round + 1, since := none, done := c.done ++ [s.clock] }
    let out := s.fibres.filter fun f => f.groupId == i && f.wait == .round k
    let s := out.foldl (fun s f => s.acquire f 1) s
    let s := s.updAll (out.map fun f => f.uid) Fibre.continues
    s.mapFibres fun f => if f.groupId == i && f.wait == .mmaRound k c.round then f.retry else f

/-- A signature of the open round enters it; the first starts the watchdog (R46, R484). -/
def State.enterRound (s : State) (f : Fibre) (k : Nat) : State :=
  let i := f.groupId
  let c := (s.group i).cv k
  let s := if c.since.isNone then s.timer (s.clock + watchdog (s.pipeOf f).convwd) (.convergeTimeout i k) else s
  let s := s.updGroup i fun g => g.updCv k fun c => { c with signers := c.signers ++ [f.uid], count := c.count + 1, since := some (c.since.getD s.clock) }
  s.updFibre f.uid fun f => { f with signed := f.signed.filter (fun x => !(x.1 == i.handle && x.2.1 == k && x.2.2.1 + 2 ≤ c.round)) ++ [(i.handle, k, c.round, false)] }

/-- The signature of a fibre that has waited for the next round (R47). -/
def State.signLate (s : State) (i : GroupId) (k : Nat) (u : Nat) : State :=
  ((s.enterRound (s.fibre u) k).updFibre u Fibre.continues).endRound i k

/-- Fibres that wait to sign the next round of a register sign the one that is open now (R46, R47). -/
def State.lateSigners (s : State) (i : GroupId) (k : Nat) : State :=
  ((s.fibres.filter fun f => f.groupId == i && f.wait == .signNext k).map fun f => f.uid).foldl (fun s u => s.signLate i k u) s

/-- A signature of the open round; where it completes the round, those that wait sign the next one. -/
def State.sign (s : State) (f : Fibre) (k : Nat) : State :=
  let r := ((s.group f.groupId).cv k).round
  let s := (s.enterRound f k).endRound f.groupId k
  if ((s.group f.groupId).cv k).round = r then s else s.lateSigners f.groupId k

/-! ### Membership -/

/-- The lowest free rank of a group, from `r` up (R41). -/
def Group.freeRank (g : Group) : Nat :=
  ((List.range 1025).find? fun r => !(g.members.any fun m => m.1 == r) && !g.lost.contains r).getD 1024

/-- `n` free ranks of a group, lowest first. -/
def Group.freeRanks (g : Group) (n : Nat) : List Nat :=
  ((List.range 1024).filter fun r => !(g.members.any fun m => m.1 == r) && !g.lost.contains r).take n

/-- Add a member at a rank. -/
def Group.addMember (g : Group) (rank uid : Nat) : Group := { g with everJoined := true, members := sortInsert (fun m => m.1) (rank, uid) g.members }

/-- Instances that wait for room or for contexts try again (R54). -/
def State.retryInstances (s : State) (part : Nat) : State :=
  (s.pipes.filter fun (p : Pipe) => p.part == part && p.ended.isNone).foldl (fun s (p : Pipe) =>
    (p.pending.foldl (fun l x => addOnce l x.stage) []).foldl (fun s k =>
      if s.agenda.contains (.templateInstanceStart part p.handle k) then s else s.post (.templateInstanceStart part p.handle k)) s) s

/-- Dissolve a group: its handle is stale from then on; updates still buffered are applied (R45, R378). Its context is free for an instance (R54). -/
def State.dissolve (s : State) (i : GroupId) : State :=
  let s := s.serialPhase i fun _ => true
  { s with groups := s.groups.filter fun g => !g.is i }.retryInstances i.part

/-- The hardware dissolves a group when its last member that is not lost is gone (R45). -/
def State.checkDissolve (s : State) (i : GroupId) : State :=
  match s.group? i with
  | none => s
  | some g => if g.everJoined && g.members.isEmpty then s.dissolve i else s

/-- A member leaves its current group, or becomes lost in it (R41, R42, R195). -/
def State.leaveGroup (s : State) (f : Fibre) (lost : Bool) : State :=
  let i := f.groupId
  let s := s.updGroup i fun g =>
    { g with members := g.members.filter (fun m => m.2 != f.uid)
             lost := if lost then g.lost ++ [f.rank] else g.lost
             bars := g.bars.map fun b => if lost then b else
               { b with expected := b.expected.filter (fun u => u != f.uid), arrived := b.arrived.filter (fun u => u != f.uid) } }
  let s := (List.range 4).foldl (fun s b => s.completeBarrier i b) s
  s.checkDissolve i

/-- Move a fibre to a group at a rank (R41). Its signatures in the group that it leaves stay (R195). -/
def State.joinGroup (s : State) (uid : Nat) (i : GroupId) (rank : Nat) : State :=
  let s := s.leaveGroup (s.fibre uid) false
  let s := s.updGroup i fun g => g.addMember rank uid
  s.updFibre uid fun f => { f with cur := i.handle, rank := rank }

/-! ### Pins of generations (R347 to R349) -/

/-- The structure context of an index in a partition. -/
def State.structCtx (s : State) (part ctx : Nat) : Option StructCtx := s.structs.find? fun c => c.part == part && c.idx == ctx && c.live

/-- Change a structure context. -/
def State.updStruct (s : State) (part ctx : Nat) (h : StructCtx → StructCtx) : State :=
  { s with structs := mapIf (fun c => c.part == part && c.idx == ctx && c.live) h s.structs }

/-- Change a generation. -/
def State.updGen (s : State) (part ctx gen : Nat) (h : Gen → Gen) : State :=
  s.updStruct part ctx fun c => { c with gens := mapIf (fun g => g.num == gen) h c.gens }

/-- The results that keep what they recorded: the generations that are not FREE, and the staged ones (R347). -/
def StructCtx.results (c : StructCtx) : List GenData := ((c.gens.filter fun g => g.state != 4).map fun g => g.data) ++ c.staged.map fun x => x.2

/-- A top-level result records a generation of a bottom-level structure (R342). -/
def GenData.records (g : GenData) (ctx gen : Nat) : Bool := g.insts.any fun r => r.w2o != [] && r.ctx == ctx && r.gen == gen

/-- Explicit pins on a generation, and records of it by top-level results that are staged or not FREE (R347). -/
def State.otherPins (s : State) (part ctx gen : Nat) : Nat :=
  (s.pipes.foldl (fun n (p : Pipe) => n + if p.part == part && p.ended.isNone then (p.pins.filter fun x => x == (ctx, gen)).length else 0) 0) +
  (s.structs.foldl (fun n (c : StructCtx) => n + if c.part == part && c.live then
    (c.results.filter fun g => g.records ctx gen).length else 0) 0)

/-- A RETIRED generation without pins becomes RECLAIMING (R347). -/
def State.checkReclaim (s : State) (part ctx gen : Nat) : State :=
  match (s.structCtx part ctx).bind fun c => c.gens.find? fun g => g.num == gen with
  | none => s
  | some g =>
    if g.state = 2 ∧ g.pins + s.otherPins part ctx gen = 0 then
      (s.updGen part ctx gen fun g => { g with state := 3 }).post (.generationReclaimComplete part ctx gen)
    else s

/-- Results are gone: what they recorded may be reclaimed (R347). -/
def State.releaseRecords (s : State) (part : Nat) (gs : List GenData) : State :=
  gs.foldl (fun s g => (g.insts.filter fun r => r.w2o != []).foldl (fun s r => s.checkReclaim part r.ctx r.gen) s) s

/-- Discard the staged results of a structure that satisfy a test on their tag. -/
def State.dropStaged (s : State) (part ctx : Nat) (p : Nat → Bool) : State :=
  let gone := (((s.structCtx part ctx).map fun c => c.staged).getD []).filter fun x => p x.1
  (s.updStruct part ctx fun c => { c with staged := c.staged.filter fun x => !p x.1 }).releaseRecords part (gone.map fun x => x.2)

/-- Release a pin that a ray or a BEAM holds. -/
def State.unpinGen (s : State) (part ctx gen : Nat) : State :=
  (s.updGen part ctx gen fun g => { g with pins := g.pins - 1 }).checkReclaim part ctx gen

/-- Cancel the rays of a fibre: slots freed, pins released, nothing written (R319). -/
def State.cancelRays (s : State) (uid : Nat) : State :=
  let mine := s.rays.filter fun r => r.uid == uid
  let s := { s with rays := s.rays.filter fun r => r.uid != uid }
  mine.foldl (fun s r => s.unpinGen r.part r.ctx r.gen) s

/-! ### The end of a fibre and of a pipeline -/

/-- A pipeline's queues hold no entry, and no replay window holds one for it (R200). -/
def State.queuesEmpty (s : State) (p : Pipe) : Bool :=
  (p.queues.all fun q => q.entries.isEmpty) &&
  s.ports.all fun x => !(x.id.part == p.part && x.window.any fun e => e.pipe == p.handle && !e.close)

/-- Release the explicit pins of a pipeline (R348). -/
def State.dropPins (s : State) (part handle : Nat) : State :=
  let pins := (s.pipe part handle).pins
  let s := s.updPipe part handle fun p => { p with pins := [] }
  pins.foldl (fun s (c, g) => s.checkReclaim part c g) s

/-- The end of a pipeline releases what its fibres have written (R200): RLS on the dirty words of every core that it has, or on which a fibre
of it lies. -/
def State.releasePipe (s : State) (part handle : Nat) : State :=
  let own := (s.fibres.filter fun f => f.part == part && f.pipe == handle).map fun f => f.onCore
  ((own ++ (s.pipe part handle).cores).filterMap fun c => (s.partn part).phys? c).foldl (fun s c => s.setRls c) s

/-- What the end of a pipeline settles: its status, the release of its writes, its pins (R348), its matrix slots (R284), and the groups of its fibres that no
member has joined (R45). -/
def State.endPipe (s : State) (part handle status cause : Nat) : State :=
  if (s.pipe part handle).ended.isSome then s
  else
    let mine := (s.fibres.filter fun f => f.part == part && f.pipe == handle).map fun f => f.uid
    let s := ((s.releasePipe part handle).dropPins part handle).updPipe part handle fun p =>
      { p with ended := some (status, cause), queues := p.queues.map fun q => { q with entries := [] }, pending := [] }
    let clear (m : MxeSlot) : MxeSlot :=
      if m.part = part then
        { m with handle := if m.handle = handle then 0 else m.handle, excl := m.excl && m.handle != handle
                 next := m.next.filter fun x => x.1 != handle }
      else m
    let s := { s with mxe := (s.mxe.map clear).filter fun m => m.handle != 0 || m.excl || m.next.isSome }
    let idle := (s.groups.filter fun (g : Group) => g.part == part && !g.everJoined && mine.contains g.creator).map fun (g : Group) => (⟨g.part, g.handle, g.repl⟩ : GroupId)
    let s := idle.foldl (fun s i => s.dissolve i) s
    s.endEpoch part (some handle)

/-- A pipeline ends when every one of its fibres has ENDED, no instance is pending, and its queues and the windows hold nothing for it
(R200). -/
def State.checkPipe (s : State) (part handle : Nat) : State :=
  match s.pipe? part handle with
  | none => s
  | some p =>
    if p.ended.isNone && p.pending.isEmpty && s.queuesEmpty p && s.fibres.all (fun f => !(f.part == part && f.pipe == handle && f.live)) then
      s.endPipe part handle 0 0
    else s

/-- End a fibre; `leave` says that it leaves even a fixed group (R129, R443). Its lane, window and private slot are free, and its
outstanding loads are discarded (R27, R188). Instances that wait for room may start (R54). -/
def State.endFibre (s : State) (uid : Nat) (leave : Bool) : State :=
  let f := s.fibre uid
  if !f.live then s
  else
    let s := s.cancelRays uid
    let elastic := (s.group f.groupId).elastic
    let s := s.updFibre uid fun f =>
      { f with st := .ended, wait := .none, hold := none, vregs := [], sb := [], boundRay := none, forwarded := [], repLive := false }
    let s := { s with loads := mapIf (fun (r : LoadReq) => r.uid == uid && !r.sreg) (fun (r : LoadReq) => { r with cancelled := true }) s.loads
                      gathers := s.gathers.filter fun (g : Gather) => g.uid != uid
                      pendV := s.pendV.filter fun x => x.1 != uid
                      collects := s.collects.map fun (c : Collect) => { c with arrivals := c.arrivals.filter fun a => a.1 != uid } }
    let s := s.leaveGroup f (!leave && !elastic)
    (s.checkPipe f.part f.pipe).retryInstances f.part

end Sys2Proof.Machine
end

