-- ==== Sys2Proof/Machine/Queues.lean ====
section
/-! DEFINITION. Queues and their ports (R51, R56 to R58, R132, R197, R198, R482): the events of a queue port, the operations of the queue
instructions, and the moving of cores between stages (R60). -/

namespace Sys2Proof.Machine

/-- The queue port of a fibre's core (R56). -/
def Fibre.port (f : Fibre) : PortId := ⟨false, f.part, f.onCore, 0⟩

/-- A queue that no queue is. -/
def Queue.absent : Queue := { launching := false, depth := 0, base := 0, entries := [], closed := true, dropping := [] }

/-- A queue of a pipeline. -/
def Pipe.queue (p : Pipe) (q : Nat) : Queue := nth Queue.absent p.queues q

/-- A port. -/
def State.port (s : State) (i : PortId) : Port := (s.ports.find? fun p => p.id == i).getD { id := i, window := [], backoff := [] }

/-- Replace a port. -/
def State.setPort (s : State) (p : Port) : State := { s with ports := p :: s.ports.filter fun x => !(x.id == p.id) }

/-- A pipeline is held and every fibre of it is saved (R407). -/
def State.pipeSaved (s : State) (part h : Nat) : Bool :=
  !(s.pipe part h).holds.isEmpty && s.fibres.all fun f => !(f.part == part && f.pipe == h && f.live) || f.saved

/-- The replay window of a queue port holds 32 entries (R56); a saved pipeline has released its part of it (R407). -/
def State.portFull (s : State) (i : PortId) : Bool := 32 ≤ ((s.port i).window.filter fun e => !s.pipeSaved i.part e.pipe).length

/-- Place an entry in a port's replay window (R56, R99): it is sent once the pusher's earlier stores are acknowledged. -/
def State.portPush (s : State) (i : PortId) (f : Fibre) (q : Nat) (close : Bool) (e : QEntry) : State :=
  let p := s.port i
  let x : PortEntry := { pipe := f.pipe, queue := q, close := close, entry := e, uid := f.uid, sent := false, waitFor := f.unacked }
  ((s.setPort { p with window := p.window ++ [x] }).setRls (s.coreOf f)).post (.queueEntryArrival i)

/-- The back-off after k consecutive NACKs, in clocks (R57). -/
def backoffClocks (k : Nat) : Nat := 256 * 2 ^ (min k 7 - 1)

/-- The first entry of a port that has not been sent, where its release is complete. -/
def Port.next (p : Port) : Option PortEntry :=
  match p.window.find? fun e => !e.sent with
  | some e => if e.waitFor.isEmpty then some e else none
  | none => none

/-- Mark the first unsent entry as sent, or drop it from the window. -/
def Port.sendFirst (p : Port) (keep : Bool) : Port :=
  { p with window := go p.window }
where
  /-- Over the entries of the window. -/
  go : List PortEntry → List PortEntry
    | [] => []
    | e :: r => if e.sent then e :: go r else if keep then { e with sent := true } :: r else r

/-- A port belongs to a stage: the stage has the port's core, or fibres there (R60; DEDUCED, notes/assumptions/90.md). -/
def State.stagePort (s : State) (i : PortId) (p : Pipe) (k : Nat) (r : StageRec) : Bool :=
  !i.cvu && p.part == i.part && (r.cores.contains i.core ||
    s.fibres.any fun f => f.part == p.part && f.pipe == p.handle && f.stage == k && f.onCore == i.core && f.live)

/-- A port has received a NACK: so have its stages, in this period (R60). -/
def State.noteNack (s : State) (i : PortId) : State :=
  { s with pipes := s.pipes.map fun p =>
      { p with stages := (p.stages.zip (List.range p.stages.length)).map fun (r, k) => if s.stagePort i p k r then { r with nacked := true } else r } }

/-- A NACK of an entry of a port for a queue (R57); `first` says that the entry is the one the queue dropped first. -/
def State.nack (s : State) (i : PortId) (e : PortEntry) (first : Bool) : State :=
  let p := (s.port i).sendFirst true
  let s := (s.setPort p).noteNack i
  if !first then s
  else
    let k := ((p.backoff.find? fun b => b.pipe == e.pipe && b.queue == e.queue).map fun b => b.nacks).getD 0 + 1
    let due := s.clock + backoffClocks k
    let b : Backoff := { pipe := e.pipe, queue := e.queue, nacks := k, due := due }
    let s := s.setPort { p with backoff := b :: p.backoff.filter fun b => !(b.pipe == e.pipe && b.queue == e.queue) }
    let s := s.updQueue i.part e.pipe e.queue fun q => { q with dropping := q.dropping ++ [i] }
    s.timer due (.queuePortResend i e.pipe e.queue)

/-- A queue accepts an entry: it leaves the window, and an entry of a LAUNCHING queue becomes a pending instance (R52, R56). -/
def State.acceptEntry (s : State) (i : PortId) (e : PortEntry) : State :=
  let p := (s.port i).sendFirst false
  let s := s.setPort { p with backoff := p.backoff.filter fun b => !(b.pipe == e.pipe && b.queue == e.queue) }
  let q := (s.pipe i.part e.pipe).queue e.queue
  let s := s.updQueue i.part e.pipe e.queue fun q => { q with entries := q.entries ++ [e.entry] }
  if !q.launching then s
  else
    match ((s.pipe i.part e.pipe).stages.zip (List.range 8)).find? fun x => x.1.inq == some e.queue with
    | none => s
    | some (_, k) =>
      (s.updPipe i.part e.pipe fun p => { p with pending := p.pending ++ [{ stage := k, core := none, tag := e.entry.tag, entry := some e.entry }] }).post
        (.templateInstanceStart i.part e.pipe k)

/-- The next entry of a port reaches its queue (R57). -/
def State.arrival (s : State) (i : PortId) : State :=
  match (s.port i).next with
  | none => s
  | some e =>
    let p := s.pipe i.part e.pipe
    let q := p.queue e.queue
    let s :=
      if p.ended.isSome then s.setPort ((s.port i).sendFirst false)
      else if q.dropping.contains i then s.nack i e false
      else if e.close then (s.setPort ((s.port i).sendFirst true)).post (.queueCloseArrival i.part e.pipe e.queue)
      else if q.depth ≤ q.entries.length then s.nack i e true
      else s.acceptEntry i e
    if (s.port i).next.isSome then s.post (.queueEntryArrival i) else s

/-- A port resends every entry that a queue has not accepted, in the original order (R57). -/
def State.resend (s : State) (i : PortId) (pipe queue : Nat) : State :=
  let p := s.port i
  if !(p.backoff.any fun b => b.pipe == pipe && b.queue == queue && b.due ≤ s.clock) ||
      !(((s.pipe i.part pipe).queue queue).dropping.contains i) then s
  else
    let s := s.setPort { p with window := mapIf (fun e => e.pipe == pipe && e.queue == queue) (fun e => { e with sent := false }) p.window }
    (s.updQueue i.part pipe queue fun q => { q with dropping := q.dropping.filter fun x => !(x == i) }).post (.queueEntryArrival i)

/-- The record of the entries that closure discards in one port (R482). -/
def State.closureRec (s : State) (part pipe queue : Nat) (gone : List PortEntry) : State :=
  match gone with
  | [] => s
  | e :: _ =>
    let f := s.fibre e.uid
    let seq := (s.partn part).logHead
    let s := s.report { cause := cQueueClosed, detail := queue, detail2 := gone.length, pipe := pipe, fid := e.entry.fid, tag := e.entry.tag
                        pcore := s.coreOf f, lcore := some f.lcore, repl := f.repl, rpl := (s.pipe part pipe).repl != 0, part := some part }
    s.deliver part pipe seq none

/-- A QCLOSE reaches its queue (R198, R482). -/
def State.closeQueue (s : State) (part pipe queue : Nat) : State :=
  let mine (e : PortEntry) : Bool := e.pipe == pipe && e.queue == queue
  let dropping := ((s.pipe part pipe).queue queue).dropping
  let arrived := s.ports.any fun p => p.id.part == part && !dropping.contains p.id && p.window.any fun e => mine e && e.close && e.sent
  if !arrived then s
  else
    let gone := (s.ports.filter fun p => p.id.part == part).map fun p => p.window.filter fun e => mine e && !e.close
    let clear (p : Port) : Port :=
      { p with window := p.window.filter (fun e => !mine e), backoff := p.backoff.filter fun b => !(b.pipe == pipe && b.queue == queue) }
    let s := { s with ports := mapIf (fun p => p.id.part == part) clear s.ports }
    let s := s.updQueue part pipe queue fun q => { q with closed := true, dropping := [] }
    let s := gone.foldl (fun s g => s.closureRec part pipe queue g) s
    s.checkPipe part pipe

/-- The entry a fibre of tag `t` would pop (R132). -/
def Queue.oldest (q : Queue) (t : Nat) : Option QEntry := if q.launching then none else q.entries.find? fun e => e.tag == t

/-- Remove the first entry of a tag. -/
def Queue.dropOldest (q : Queue) (t : Nat) : Queue := { q with entries := q.entries.eraseP fun e => e.tag == t }

/-- Queue number q is at or above NQUE: ILLEGAL_OP (R183). -/
def State.badQueue (s : State) (f : Fibre) (q : Nat) : Bool := (s.pipeOf f).queues.length ≤ q

/-! ### Moving cores between stages (R60) -/

/-- The demand of a stage, in units of 1/8192. -/
def Pipe.demand (p : Pipe) (r : StageRec) (k : Nat) : Nat :=
  let d := match r.inq with
    | some q => (p.queue q).entries.length * 8192 / max 1 (p.queue q).depth
    | none => if p.pending.any fun x => x.stage == k then 8192 else 0
  if r.nacked then d / 2 else d

/-- One period of the moving of cores. -/
def Pipe.rebalance (p : Pipe) : Pipe :=
  let ds := (p.stages.zip (List.range p.stages.length)).map fun (r, k) => (k, p.demand r k, r)
  let p' := { p with stages := p.stages.map fun r => { r with nacked := false } }
  match minBy (fun x => x.2.1) ds, minBy (fun x => 8192 - x.2.1) ds with
  | some lo, some hi =>
    if hi.2.1 ≤ lo.2.1 + 2048 then p'
    else
      match minBy (fun x => x.2.1) (ds.filter fun x => x.2.2.coreMin < x.2.2.cores.length),
            minBy (fun x => 8192 - x.2.1) (ds.filter fun x => x.2.2.coreMax == 0 || x.2.2.cores.length < x.2.2.coreMax) with
      | some a, some b =>
        if a.1 = b.1 then p'
        else
          match a.2.2.cores.getLast? with
          | none => p'
          | some c => { p' with stages := (p'.stages.modify a.1 fun r => { r with cores := r.cores.dropLast }).modify b.1 fun r =>
                          { r with cores := sortInsert (fun x => x) c r.cores } }
      | _, _ => p'
  | _, _ => p'

/-- The period of R60 in clocks. -/
def rebalanceClocks : Nat := 2048

/-- QUEUE_ENTRY_ARRIVAL. -/
def execQueueEntryArrival (i : PortId) (s : State) : Host.Outcome State Fault Refusal := .next (s.arrival i)
/-- QUEUE_PORT_RESEND. -/
def execQueuePortResend (i : PortId) (pipe queue : Nat) (s : State) : Host.Outcome State Fault Refusal := .next (s.resend i pipe queue)
/-- QUEUE_CLOSE_ARRIVAL. -/
def execQueueCloseArrival (part pipe queue : Nat) (s : State) : Host.Outcome State Fault Refusal := .next (s.closeQueue part pipe queue)
/-- STAGE_CORE_REBALANCE. -/
def execStageCoreRebalance (part pipe : Nat) (s : State) : Host.Outcome State Fault Refusal :=
  if (s.pipe part pipe).ended.isSome then .next s
  else .next (((s.updPipe part pipe Pipe.rebalance).retryInstances part).timer (s.clock + rebalanceClocks) (.stageCoreRebalance part pipe))

end Sys2Proof.Machine
end

