-- ==== Sys2Proof/Machine/Launch.lean ====
section
/-! DEFINITION. The launch of pipelines and the creation of fibres: the descriptor (R48 to R53), the division of cores (R60), placement
(R19, R38, R54, R191, R360), template instances (R54), children of SPAWN (R191). -/

namespace Sys2Proof.Machine

/-! ### Plain reads of several words -/

/-- The bytes that a plain read of a fibre returns at placed pieces, and whether one is poisoned (R77, R79, R368). -/
def State.readPieces (s : State) (f : Fibre) (ps : List Piece) : List Byte × Bool :=
  ps.foldl (fun (acc : List Byte × Bool) p =>
    let t := (s.readCopy f.part f.tag p.loc).1
    let r : List Byte × Bool :=
      match s.l1Hit f.part (s.coreOf f) f.tag p.loc p.n false with
      | some x => x
      | none =>
        let w := s.serveWord (s.coreOf f) t p.loc.key p.loc.grain false (s.pipeOf f).replicated
        ((leBytes 4 w.1.toNat).drop (p.loc.key % 4) |>.take p.n, w.2.1)
    (acc.1 ++ r.1, acc.2 || r.2)) ([], false)

/-- A plain read of `n` bytes by a fibre, under the checks of R241. -/
def State.plainRead (s : State) (f : Fibre) (ea n align : Nat) : Except Stop (List Byte × Bool × List Nat) :=
  match s.place f { ea := ea % 2 ^ 64, n := n, form := 0, acc := 1, align := align } with
  | .error e => .error e
  | .ok (ps, ws) => let (d, p) := s.readPieces f ps; .ok (d, p, ws)

/-! ### The descriptor -/

/-- A watchdog code is valid (R49). -/
def watchdogOk (c : Nat) : Bool := c == 0 || 16 ≤ c

/-- A stage record, where its fields are valid (R50, R53). -/
def parseStage (r nque : Nat) : Option StageRec :=
  let inqV := bits r 95 1 == 1
  if bits r 192 320 ≠ 0 ∨ bits r 111 17 ≠ 0 ∨ bits r 103 1 ≠ 0 ∨ 3 ≤ bits r 85 3 ∨ bits r 72 11 = 0 ∨ 1025 ≤ bits r 72 11 ∨
      bits r 64 6 = 0 ∨ 33 ≤ bits r 64 6 ∨ bits r 0 2 ≠ 0 ∨ (inqV ∧ nque ≤ bits r 92 3) ∨ bits r 83 2 < bits r 90 2 ∨
      (bits r 104 7 ≠ 0 ∧ bits r 104 7 < bits r 96 7) then none
  else some { arg := BitVec.ofNat 64 (bits r 128 64), coreMax := bits r 104 7, coreMin := bits r 96 7
              inq := if inqV then some (bits r 92 3) else none, crEn := bits r 89 1 == 1, crGrp := bits r 90 2
              elastic := bits r 88 1 == 1, shape := bits r 85 3, gcount := bits r 83 2, gsize := bits r 72 11, prio := bits r 70 2
              win := 16 * bits r 64 6, entry := BitVec.ofNat 64 (bits r 0 64), cores := [], nacked := false }

/-- A queue record, where its fields are valid (R51). -/
def parseQueue (r : Nat) : Option Queue :=
  let lg := bits r 64 4
  if bits r 69 187 ≠ 0 ∨ lg < 4 ∨ 12 < lg ∨ bits r 0 64 % (64 * 2 ^ lg) ≠ 0 then none
  else some { launching := bits r 68 1 == 1, depth := 2 ^ lg, base := bits r 0 64, entries := [], closed := false, dropping := [] }

/-- The header's own fields are valid (R49). -/
def headerOk (h : Nat) : Bool :=
  bits h 53 459 == 0 && watchdogOk (bits h 48 5) && bits h 45 3 == 0 && watchdogOk (bits h 40 5) && bits h 37 3 == 0 && bits h 28 4 == 0 &&
  bits h 25 2 != 3 && bits h 23 1 == 0 && bits h 19 4 ≤ 8 && bits h 0 16 == 1

/-- The queue rules of R52. -/
def queueRules (stages : List StageRec) (queues : List Queue) : Bool :=
  (queues.zip (List.range queues.length)).all fun (q, j) =>
    let n := (stages.filter fun r => r.inq == some j).length
    n ≤ 1 && (!q.launching || n == 1)

/-- Deal cores: CORE_MIN to each stage, then the rest one at a time, a stage at CORE_MAX passed over (R60). `k` is the stage whose turn
it is. -/
def dealRest : Nat → Nat → List Nat → List StageRec → List StageRec
  | 0, _, _, st => st
  | _, _, [], st => st
  | fuel + 1, k, c :: r, st =>
    if st.all fun x => x.coreMax != 0 && x.coreMax ≤ x.cores.length then st
    else
      let full := match st[k % max 1 st.length]? with
        | some x => x.coreMax != 0 && x.coreMax ≤ x.cores.length
        | none => false
      if full then dealRest fuel (k + 1) (c :: r) st
      else dealRest fuel (k + 1) r (st.modify (k % max 1 st.length) fun x => { x with cores := x.cores ++ [c] })

/-- Give each stage its CORE_MIN cores. -/
def dealMin (cores : List Nat) : List StageRec → List StageRec × List Nat
  | [] => ([], cores)
  | x :: r =>
    let (ys, rest) := dealMin (cores.drop x.coreMin) r
    ({ x with cores := cores.take x.coreMin } :: ys, rest)

/-- The division of a pipeline's cores among its stages (R60). -/
def dealCores (cores : List Nat) (st : List StageRec) : List StageRec :=
  let (st, rest) := dealMin cores st
  dealRest (8 * (rest.length + 8)) 0 rest st

/-- A pipeline as its descriptor gives it, before it has a handle; none where the descriptor is invalid (R53). -/
def parseDescriptor (part : Nat) (d : List Byte) (cores : List Nat) : Option Pipe :=
  let h := ofLeBytes (d.take 64)
  let stages := (List.range (bits h 16 3 + 1)).map fun k => parseStage (ofLeBytes ((d.drop (64 + 64 * k)).take 64)) (bits h 19 4)
  let queues := (List.range (bits h 19 4)).map fun j => parseQueue (ofLeBytes ((d.drop (576 + 32 * j)).take 32))
  if !headerOk h || stages.any Option.isNone || queues.any Option.isNone then none
  else
    let st := stages.filterMap id
    let qs := queues.filterMap id
    if !queueRules st qs || cores.length < st.foldl (fun n x => n + x.coreMin) 0 then none
    else some { Pipe.blank with
      part := part, contract := if bits h 36 1 = 1 then some (bits h 32 4) else none, determ := bits h 27 1 == 1, check := bits h 24 1 == 1
      barwd := bits h 40 5, convwd := bits h 48 5, repl := bits h 25 2, live := List.range (bits h 25 2 + 1), cores := cores
      stages := dealCores cores st, queues := qs, ended := none }

/-- The bytes of a descriptor that a launch reads: the header, the stage records and the queue records in use (R48). -/
def State.readDescriptor (s : State) (f : Fibre) (ea : Nat) : Except Stop (List Byte × Bool × List Nat) :=
  match s.plainRead f ea 64 1 with
  | .error e => .error e
  | .ok (hd, p0, w0) =>
    let h := ofLeBytes hd
    let ns := 64 * (bits h 16 3 + 1)
    let nq := 32 * min 8 (bits h 19 4)
    match s.plainRead f (ea + 64) ns 1 with
    | .error e => .error e
    | .ok (sd, p1, w1) =>
      if nq = 0 then .ok (hd ++ sd, p0 || p1, w0 ++ w1)
      else
        match s.plainRead f (ea + 576) nq 1 with
        | .error e => .error e
        | .ok (qd, p2, w2) => .ok (hd ++ sd ++ List.replicate (512 - ns) 0 ++ qd, p0 || p1 || p2, w0 ++ w1 ++ w2)

/-! ### Seats -/

/-- A place of a fibre: logical core of replica 0, quadrant, gang slot, gang lane. -/
structure Seat where
  core : Nat
  quad : Nat
  slot : Nat
  lane : Nat
  deriving DecidableEq, Repr

/-- The partner of a logical core in a replica (R360, R361). -/
def State.partner (s : State) (part r c : Nat) : Nat := s.replCore { Fibre.blank with part := part, repl := r } c

/-- The cores that hold the replicas of logical core `c` for a pipeline. -/
def State.replicaCores (s : State) (p : Pipe) (c : Nat) : List Nat := p.live.map fun r => s.partner p.part r c

/-- The fibres in the lanes of a core: those that have not ended, but for those of a gang whose image has been saved, which has no gang slot
(R407). -/
def State.residents (s : State) (part core : Nat) : List Fibre := s.fibres.filter fun f => f.part == part && f.onCore == core && f.live && decide (f.slot < 8)

/-- A quadrant's storage in words (R19). -/
def quadWords : Nat := 98304

/-- Words of windows that a quadrant holds. -/
def wordsIn (fs : List Fibre) (quad : Nat) : Nat := fs.foldl (fun n f => if f.quad = quad then n + f.win else n) 0

/-- Words of physical register storage of a quadrant, and its words of the tier (R19). -/
def physicalWords : Nat := 32768
def tierWords : Nat := 65536

/-- The words of a quadrant's windows that stand in the tier, or in physical storage. -/
def State.wordsHeld (s : State) (part core quad : Nat) (tiered : Bool) : Nat :=
  wordsIn ((s.residents part core).filter fun f => f.tiered == tiered) quad

/-- Choose `n` seats from a list, first come first taken, within the storage of every quadrant they use, in every replica (R19,
R38, R360). -/
def State.chooseSeats (s : State) (p : Pipe) (win n : Nat) (cand : List Seat) : Option (List Seat) :=
  let got := cand.foldl (fun (acc : List Seat) x =>
    if n ≤ acc.length then acc
    else
      let mine := (acc.filter fun y => y.core == x.core && y.quad == x.quad).length
      if (s.replicaCores p x.core).all fun c => wordsIn (s.residents p.part c) x.quad + win * (mine + 1) ≤ quadWords then acc ++ [x] else acc) []
  if got.length = n then some got else none

/-- A gang slot is free in every replica. -/
def State.slotFree (s : State) (p : Pipe) (core quad slot : Nat) : Bool :=
  (s.replicaCores p core).all fun c => (s.residents p.part c).all fun f => !(f.quad == quad && f.slot == slot)

/-- A gang slot holds fibres of a stage of the pipeline. -/
def State.slotOfStage (s : State) (p : Pipe) (stage core quad slot : Nat) : Bool :=
  (s.replicaCores p core).any fun c => (s.residents p.part c).any fun f =>
    f.quad == quad && f.slot == slot && f.pipe == p.handle && f.stage == stage

/-- The free lanes of a gang slot, in every replica. -/
def State.freeLanes (s : State) (p : Pipe) (core quad slot : Nat) : List Seat :=
  ((List.range 64).filter fun l => (s.replicaCores p core).all fun c => (s.residents p.part c).all fun f =>
    !(f.quad == quad && f.slot == slot && f.lane == l)).map fun l => ⟨core, quad, slot, l⟩

/-- The gang slots of some quadrants of a core: (quadrant, slot). -/
def slotsOf (quads : List Nat) : List (Nat × Nat) := quads.flatMap fun q => (List.range 8).map fun k => (q, k)

/-- The seats of the free slots of a core, from the lowest up. -/
def State.freeSlotSeats (s : State) (p : Pipe) (core : Nat) (quads : List Nat) : List Seat :=
  (slotsOf quads).flatMap fun (q, k) => if s.slotFree p core q k then s.freeLanes p core q k else []

/-- The seats that SPAWN may take, in the order of R191. -/
def State.spawnSeats (s : State) (p : Pipe) (stage core quad : Nat) (others : List Nat) : List Seat :=
  let held (c : Nat) (quads : List Nat) : List Seat :=
    (slotsOf quads).flatMap fun (q, k) => if s.slotOfStage p stage c q k then s.freeLanes p c q k else []
  let rest := (List.range 4).filter fun q => q != quad
  held core [quad] ++ held core rest ++ s.freeSlotSeats p core (List.range 4) ++
  others.flatMap fun c => held c (List.range 4) ++ s.freeSlotSeats p c (List.range 4)

/-- One gang's seats after those already taken: the first free slot of a quadrant list that no seat taken uses, with room. -/
def State.gangSeats (s : State) (p : Pipe) (win n : Nat) (quads : List (Nat × Nat)) (taken : List Seat) : Option (List Seat) :=
  let room (c q : Nat) : Bool :=
    let mine := (taken.filter fun y => y.core == c && y.quad == q).length
    (s.replicaCores p c).all fun c' => wordsIn (s.residents p.part c') q + win * (mine + n) ≤ quadWords
  quads.findSome? fun (c, q) =>
    if !room c q then none
    else ((List.range 8).find? fun k => s.slotFree p c q k && !taken.any fun y => y.core == c && y.quad == q && y.slot == k).map fun k =>
      (List.range n).map fun l => ⟨c, q, k, l⟩

/-- The first of `n` consecutive lanes among some. -/
def laneRun (n : Nat) (lanes : List Nat) : Option Nat :=
  (List.range (65 - n)).find? fun l => (List.range n).all fun i => lanes.contains (l + i)

/-- Seats on consecutive free lanes of a gang slot that holds fibres of a stage already, with room (R54). -/
def State.sharedSeats (s : State) (p : Pipe) (stage win n : Nat) (quads : List (Nat × Nat)) (taken : List Seat) : Option (List Seat) :=
  quads.findSome? fun (c, q) =>
    let mine := taken.filter fun y => y.core == c && y.quad == q
    if !(s.replicaCores p c).all fun c' => wordsIn (s.residents p.part c') q + win * (mine.length + n) ≤ quadWords then none
    else (List.range 8).findSome? fun k =>
      if !s.slotOfStage p stage c q k then none
      else (laneRun n (((s.freeLanes p c q k).filter fun x => !mine.contains x).map fun x => x.lane)).map fun l =>
        (List.range n).map fun i => ⟨c, q, k, l + i⟩

/-- Seats for the gangs of an instance: `quads g` lists the quadrants that gang `g` may take; `share` names a stage whose slots' free lanes it may
take too (R54). -/
def State.dealGangs (s : State) (p : Pipe) (win : Nat) (share : Option Nat) (quads : Nat → List (Nat × Nat)) (taken : List Seat) (g : Nat) :
    Nat → Nat → Option (List Seat)
  | 0, _ => some taken
  | _, 0 => some taken
  | fuel + 1, n =>
    match (s.gangSeats p win (min 64 n) (quads g) taken).or (share.bind fun k => s.sharedSeats p k win (min 64 n) (quads g) taken) with
    | none => none
    | some xs => s.dealGangs p win share quads (taken ++ xs) (g + 1) fuel (n - 64)

/-- The sets of some cores, smaller ones first. -/
def coreSets (cores : List Nat) : List (List Nat) :=
  let sets := (List.range (2 ^ cores.length)).map fun m => ((cores.zip (List.range cores.length)).filter fun x => m.testBit x.2).map fun x => x.1
  sortBy List.length sets

/-- Seats for an instance on the cores given, in the stage's shape (R54): 0 PACKED, on as few cores as hold it and whole slots before shared ones;
1 CORE_SPREAD, 2 QUAD_SPREAD (DESIGN CHOICE, notes/assumptions/34.md). -/
def State.instanceSeats (s : State) (p : Pipe) (stage : Nat) (r : StageRec) (cores : List Nat) : Option (List Seat) :=
  let n := (r.gcount + 1) * r.gsize
  let all (c : Nat) : List (Nat × Nat) := (List.range 4).map fun q => (c, q)
  match r.shape with
  | 0 => (coreSets cores).findSome? fun cs => s.dealGangs p r.win (some stage) (fun _ => cs.flatMap all) [] 0 (n / 64 + 1) n
  | 1 => s.dealGangs p r.win none (fun g => all (cores.getD (g % max 1 cores.length) 0)) [] 0 (n / 64 + 1) n
  | _ => cores.findSome? fun c => s.dealGangs p r.win none (fun g => [(c, g % 4)]) [] 0 (n / 64 + 1) n

/-- The cores on which an instance may start, nearest first: cores of the stage in one cluster. -/
def clusterCores (cores : List Nat) (c : Nat) : List Nat := c :: cores.filter fun x => x / 4 == c / 4 && x != c

/-- The clusters to try for an instance: that of its core, or those of the stage's cores from one on (R54). -/
def startCores (r : StageRec) (hint : Option Nat) (draw : Nat) : List (List Nat) :=
  match hint with
  | some c => [clusterCores r.cores c]
  | none =>
    let k := draw % max 1 r.cores.length
    (r.cores.drop k ++ r.cores.take k).map fun c => clusterCores r.cores c

/-! ### Contexts, private slots, fibres -/

/-- A group holds its context: it has no member, or one whose gang has a slot (R407). -/
def State.holdsCtx (s : State) (g : Group) : Bool := g.members.isEmpty || g.members.any fun m => decide ((s.fibre m.2).slot < 8)

/-- The lowest free context of a cluster (R40). -/
def State.freeCtx (s : State) (part cluster : Nat) : Option Nat :=
  (List.range 128).find? fun k => !(s.groups.any fun g => g.part == part && handleCluster g.handle == cluster && g.handle % 128 == k && s.holdsCtx g)

/-- Create a group in every live replica of a pipeline (R40, R193). -/
def State.newGroup (s : State) (p : Pipe) (cluster : Nat) (elastic copyRight : Bool) (creator : Nat) : Option (Nat × State) :=
  match s.freeCtx p.part cluster with
  | none => none
  | some k =>
    let idx := cluster * 128 + k
    let old := (((s.partn p.part).groupSeq.find? fun x => x.1 == idx).map fun x => x.2).getD 0
    let seq := if old = 1048575 then 1 else old + 1
    let h := seq * 2 ^ 12 + cluster * 2 ^ 7 + k
    let s := s.updPart p.part fun q => { q with groupSeq := (idx, seq) :: q.groupSeq.filter fun x => x.1 != idx }
    let gs := p.live.map fun r => { Group.blank with part := p.part, handle := h, repl := r, elastic := elastic, copyRight := copyRight, creator := creator }
    some (h, { s with groups := s.groups ++ gs })

/-- The lowest free private slots of a partition (R65). -/
def State.freePrivate (s : State) (part n : Nat) : Option (List Nat) :=
  let used := (s.fibres.filter fun f => f.part == part && f.live).map fun f => f.priv
  let got := ((List.range (used.length + n)).filter fun k => !used.contains k).take n
  if got.length = n ∧ got.all (fun k => decide (k < 262144)) then some got else none

/-- A fibre to be created. -/
structure NewFibre where
  seat : Seat
  grp : Nat
  rank : Nat
  idx : Nat
  priv : Nat
  deriving Repr

/-- What the fibres of one creation share. -/
structure Creation where
  stage : Nat
  win : Nat
  pc : DWord
  tag : Nat
  ftz : DWord
  /-- The set of the fibre that spawns them, and its count of SPAWNs. -/
  parent : Option (Nat × Nat)
  deriving Repr

/-- The FIBRE_ID of the next fibre: the next 32-bit number but 0 that no live fibre of the partition has (R26). -/
def State.nextFid (s : State) (part : Nat) : Nat :=
  let last := (s.partn part).fidCount
  let used := (s.fibres.filter fun f => f.part == part && f.live).map fun f => f.fid
  (((List.range (used.length + 1)).map fun i => (last + i) % (2 ^ 32 - 1) + 1).find? fun n => !used.contains n).getD 1

/-- Create one fibre in every live replica (R27, R362); its window lies in the tier where physical storage has no room for it (R19). A child of a follower whose parent has not reached the SPAWN waits to be born
(R370). -/
def State.createFibre (s : State) (p : Pipe) (c : Creation) (x : NewFibre) : State :=
  let fid := s.nextFid p.part
  let set := s.nextUid
  let s := s.updPart p.part fun q => { q with fidCount := fid }
  p.live.foldl (fun s r =>
    let core := s.partner p.part r x.seat.core
    let par := (c.parent.bind fun y => s.fibres.find? fun f => f.part == p.part && f.pipe == p.handle && f.setId == y.1 && f.repl == r && f.live).map fun f => f.uid
    let f : Fibre := { Fibre.blank with
      uid := s.nextUid, setId := set, part := p.part, pipe := p.handle, stage := c.stage, repl := r, lcore := x.seat.core, onCore := core
      quad := x.seat.quad, slot := x.seat.slot, lane := x.seat.lane, fid := fid, launchIdx := x.idx, priv := x.priv, pc := c.pc
      win := c.win, cur := x.grp, home := x.grp, rank := x.rank, tag := c.tag, ftz := c.ftz, st := .runnable, readyAt := s.clock + 1
      saved := !p.holds.isEmpty, tiered := decide (physicalWords < s.wordsHeld p.part core x.seat.quad false + c.win) }
    let f := match c.parent, par with
      | some (_, n), some u => if r = p.leader then f else { f with st := .waitMemory, wait := .born n, parent := u }
      | _, _ => f
    let s := s.updGroup ⟨p.part, x.grp, r⟩ fun g => g.addMember x.rank s.nextUid
    ({ s with fibres := s.fibres ++ [f], nextUid := s.nextUid + 1 }).selfInval ((s.partn p.part).phys core)) s

/-- Create fibres. -/
def State.createFibres (s : State) (p : Pipe) (c : Creation) (xs : List NewFibre) : State := xs.foldl (fun s x => s.createFibre p c x) s

/-! ### Template instances (R54) -/

/-- Create the groups of an instance (R54, R55): their handles in order. -/
def State.instanceGroups (s : State) (p : Pipe) (r : StageRec) (cluster creator : Nat) : Nat → Nat → Option (List Nat × State)
  | 0, _ => some ([], s)
  | n + 1, k =>
    match s.newGroup p cluster r.elastic (r.crEn && r.crGrp == k) creator with
    | none => none
    | some (h, s) => (s.instanceGroups p r cluster creator n (k + 1)).map fun (hs, s) => (h :: hs, s)

/-- The words of an entry in s0 to s7 (R52). -/
def entrySregs (g : Group) (ws : List Word) : Group :=
  (List.range 8).foldl (fun g i => g.setS i ⟨ws.getD (2 * i + 1) 0 ++ ws.getD (2 * i) 0, false⟩) g

/-- Start a pending instance, where contexts, slots, windows and private slots are free for all of it (R54, R65). -/
def State.startInstance (s : State) (p : Pipe) (x : PendInst) : Option State :=
  match p.stages[x.stage]? with
  | none => none
  | some r =>
    let n := (r.gcount + 1) * r.gsize
    match (startCores r x.core (Config.placement s.free)).findSome? fun cs => (s.instanceSeats p x.stage r cs).map fun st => (st, cs), s.freePrivate p.part n with
    | some (seats, cs), some privs =>
      match s.instanceGroups p r (cs.headD 0 / 4) s.nextUid (r.gcount + 1) 0 with
      | none => none
      | some (hs, s) =>
        let s := { s with free := s.free + 1 }
        let fill (k h : Nat) (g : Group) : Group :=
          let g := match x.entry with | some e => if k = 0 then entrySregs g e.words else g | none => g
          if g.part == p.part && g.handle == h then g.setS 8 ⟨r.arg, false⟩ else g
        let s := (hs.zip (List.range hs.length)).foldl (fun s (h, k) =>
          { s with groups := mapIf (fun g => g.part == p.part && g.handle == h) (fill k h) s.groups }) s
        let fs := ((seats.zip privs).zip (List.range n)).map fun ((st, pv), i) =>
          ({ seat := st, grp := hs.getD (i / r.gsize) 0, rank := i % r.gsize, idx := i, priv := pv } : NewFibre)
        some (s.createFibres p { stage := x.stage, win := r.win, pc := r.entry, tag := x.tag, ftz := 0, parent := none } fs)
    | _, _ => none

/-- Start the first pending instance of a stage (R54): its entry leaves the queue (R52). -/
def State.startPending (s : State) (part pipe stage : Nat) : State :=
  let p := s.pipe part pipe
  if p.ended.isSome then s
  else
    match p.pending.find? fun x => x.stage == stage with
    | none => s
    | some x =>
      match s.startInstance p x with
      | none => if p.contract.isSome && s.activeContract part == p.contract && !s.agenda.contains (.fscPreempt part) then s.post (.fscPreempt part) else s
      | some s =>
        let s := s.updPipe part pipe fun p => { p with
          pending := p.pending.eraseP fun x => x.stage == stage
          queues := match x.entry, (p.stages[stage]?).bind fun r => r.inq with
            | some _, some q => p.queues.modify q fun q => { q with entries := q.entries.drop 1 }
            | _, _ => p.queues }
        if (s.pipe part pipe).pending.any fun x => x.stage == stage then s.post (.templateInstanceStart part pipe stage) else s

/-! ### Launch (R199, R392) -/

/-- The partner cores that a launch needs are there (R361). -/
def State.partnersOk (s : State) (part repl : Nat) (cores : List Nat) : Bool :=
  let q := s.partn part
  cores.all fun c =>
    let e := nth 0 q.replMap c
    (repl == 0 || e.getLsbD 7) && (repl != 2 || e.getLsbD 15) &&
    (List.range repl).all fun i =>
      let d := s.partner part (i + 1) c
      !(s.pipes.any fun p => p.part == part && p.ended.isNone && p.cores.contains d)

/-- Launch a pipeline from its descriptor's bytes: HANDLE and STATUS (R199). -/
def State.launch (s : State) (part first count tag : Nat) (d : List Byte) (tagOk sup : Bool) : Nat × Nat × State :=
  let cores := (List.range count).map fun i => first + i
  match parseDescriptor part d cores with
  | none => (0, 1, s)
  | some p =>
    if !(cores.all fun c => ((s.partn part).phys? c).isSome) || !s.partnersOk part p.repl cores then (0, 2, s)
    else if 16 ≤ (s.pipes.filter fun x => x.part == part && x.ended.isNone).length then (0, 3, s)
    else if !tagOk then (0, 4, s)
    else
      let h := (s.partn part).pipeCount + 1
      let starts := (p.stages.zip (List.range 8)).flatMap fun (r, k) =>
        match r.inq with
        | some q => if (p.queue q).launching then [] else r.cores.map fun c => ({ stage := k, core := some c, tag := tag, entry := none } : PendInst)
        | none => r.cores.map fun c => ({ stage := k, core := some c, tag := tag, entry := none } : PendInst)
      let p := { p with handle := h, supervisor := sup, pending := starts, partners := (List.range p.repl).map fun i => cores.map (s.partner part (i + 1)) }
      let s := s.updPart part fun q => { q with pipeCount := h }
      let s := { s with pipes := s.pipes ++ [p] }
      let s := (List.range p.stages.length).foldl (fun s k =>
        if starts.any fun x => x.stage == k then s.post (.templateInstanceStart part h k) else s) s
      (h, 0, (s.timer (s.clock + rebalanceClocks) (.stageCoreRebalance part h)).checkPipe part h)

/-! ### SPAWN (R191) -/

/-- A tag that SPAWN or LAUNCH may give (R191). -/
def State.tagOk (s : State) (f : Fibre) (t : Nat) : Bool :=
  if f.tag ≠ 0 then t == f.tag else t == 0 || ((s.tagRec t).state == 1 && (s.tagRec t).part == f.part)

/-- The state with the children of a SPAWN; none where it creates nothing. -/
def State.spawn (s : State) (f : Fibre) (pc : DWord) (n tag : Nat) : Option State :=
  let p := s.pipeOf f
  let r := (s.stageOf f).getD { loadStageDefault with win := f.win }
  let ranks := (s.group f.groupId).freeRanks n
  let others := (r.cores.filter fun c => c / 4 == f.lcore / 4 && c != f.lcore)
  if n = 0 ∨ 1024 < n ∨ ranks.length < n ∨ !s.tagOk f tag then none
  else
    match s.chooseSeats p f.win n (s.spawnSeats p f.stage f.lcore f.quad (sortBy (fun c => c) others)), s.freePrivate f.part n with
    | some seats, some privs =>
      let fs := (((seats.zip privs).zip ranks).zip (List.range n)).map fun (((st, pv), rk), i) =>
        ({ seat := st, grp := f.cur, rank := rk, idx := i, priv := pv } : NewFibre)
      some (s.createFibres p { stage := f.stage, win := f.win, pc := pc, tag := tag, ftz := f.ftz, parent := some (f.setId, f.spawns + 1) } fs)
    | _, _ => none
where
  /-- A stage record of zeros. -/
  loadStageDefault : StageRec :=
    { arg := 0, coreMax := 0, coreMin := 0, inq := none, crEn := false, crGrp := 0, elastic := false, shape := 0, gcount := 0
      gsize := 1, prio := 0, win := 16, entry := 0, cores := [], nacked := false }

/-- TEMPLATE_INSTANCE_START. -/
def execTemplateInstanceStart (part pipe stage : Nat) (s : State) : Host.Outcome State Fault Refusal := .next (s.startPending part pipe stage)

end Sys2Proof.Machine
end

