-- ==== Sys2Proof/Machine/Flow.lean ====
section
/-! DEFINITION. Majors 0x00 to 0x06 (R182 to R206): branches, repeats, fibres, groups, queues, launches and traps; those that act on the
whole partition are in Preempt.lean. -/

namespace Sys2Proof.Machine

/-! ### Helpers -/

/-- Go on once every store of the active fibres has been acknowledged, and release (R80, R99). -/
def afterAcks (scope : Nat) (b : Body) : Body := fun s us =>
  if us.any fun u => !(s.fibre u).releaseReady scope then .error (.wait .waitMemory .acks)
  else b (us.foldl (fun s u => s.release (s.fibre u)) s) us

/-- Trap ILLEGAL_OP where an active fibre satisfies `p`. -/
def illegalIf (p : State → Fibre → Bool) (b : Body) : Body := fun s us =>
  if us.any fun u => p s (s.fibre u) then .error (.trap s.illegal) else b s us

/-- Trap POISON_USE where an active fibre reads a poisoned register of the list (R105). -/
def notPoisoned (us : List RegUse) (b : Body) : Body := fun s act =>
  match act.findSome? fun u => s.poisonUse (s.fibre u) us with
  | some t => .error (.trap t)
  | none => b s act

/-- Hold a fibre whose tag is COMMITTING (R126, R243). -/
def notCommitting (b : Body) : Body := fun s us =>
  match us.find? fun u => (s.fibre u).tag != 0 && (s.tagRec (s.fibre u).tag).state == 2 with
  | some u => .error (.wait .waitMemory (.commitHold (s.fibre u).tag))
  | none => b s us

/-- A fibre waits at its instruction, which it has performed: the end of the wait advances it. -/
def Fibre.waitsPast (f : Fibre) (st : FState) (w : Wait) (len : Nat) : Fibre := { f.waits st w with ilen := len }

/-- The predicate result of one fibre. -/
def State.setPd (s : State) (u : Nat) (e : Ext) (b : Bool) : State := s.updFibre u fun f => f.setPred e.pd.toNat b

/-- The number of a mode, barrier, register or queue in MOD. -/
def modLow (e : Ext) (n : Nat) : Nat := e.mod.toNat % 2 ^ n

/-! ### NOP and REP (R158, R171, R172, R187) -/

/-- NOP. -/
def execNop (stall : BitVec 3) (s : State) : Host.Outcome State Fault Refusal := s.issue (issueOf 0 0 (plainExt stall) 4) fun s _ => .ok (s, [])

/-- The prefixed instruction is one that REP may prefix (R172): its words as they stand are not a legal instruction, or they meet
every rule. -/
def repAllows (r : RepWord) (ws : List Word) : Bool :=
  let w0 := ws.headD 0
  repMajor (majorField w0) &&
  match rawForm ws with
  | none => true
  | some (major, minor, e) =>
    match formOf major minor e with
    | none => true
    | some fm =>
      let base := lenField w0 = 0 ∨ lenField w0 = 2
      !e.pdv && repMaskOk r fm e && !(base && baseSources major minor == 2 && r.md != r.ma)

/-- The REP word: the repeats that follow issue one by one. -/
def startRep (r : RepWord) : Body := fun s us =>
  let f := s.fibre (us.headD 0)
  let n := r.cnt.toNat + 1
  if n < f.repcnt then .error (.trap s.illegal)
  else
    match s.fetchInstr f (f.pc.toNat + 4) with
    | .error (st, _) => .error st
    | .ok (ws, walks) =>
      if !repAllows r ws then .error (.trap s.illegal)
      else
        .ok ((s.keepWalks f walks).updAll us fun f =>
          { f with repLive := true, repLen := 4 * ws.length, repcnt := if f.repcnt = 0 then n else f.repcnt }, us)

/-- REP. -/
def execRep (r : RepWord) (s : State) : Host.Outcome State Fault Refusal := s.issue (issueOf 0 1 (plainExt r.stall) 4) (startRep r)

/-! ### Branches (R185, R186) -/

/-- Send a fibre to a target. -/
def Fibre.jump (f : Fibre) (t : DWord) : Fibre := { f with pc := t, agreed := false, pageFail := none }

/-- Branch to a target that the instruction names, with an optional link pair. DESIGN CHOICE (notes/assumptions/81.md): a literal target whose bits
1:0 are not zero stands in the PC as it is, and the fetch there traps (R25, R185). -/
def branchTo (len : Nat) (link : Option Nat) (target : Fibre → DWord) : Body := fun s us =>
  .ok (s.updAll us fun f =>
    let t := target f
    let f := match link with | some d => f.setPair d ⟨f.pc + BitVec.ofNat 64 len, false⟩ | none => f
    f.jump t, us)

/-- Branch to a target in a register, checked before any link is written. -/
def branchReg (e : Ext) (uses : List RegUse) (link : Option Nat) : Body := fun s us =>
  match us.findSome? fun u =>
      let f := s.fibre u
      match s.poisonUse f uses with
      | some t => some t
      | none => if (s.srcA f e true).val.toNat % 4 ≠ 0 then some (misalign (s.srcA f e true).val.toNat 4) else none with
  | some t => .error (.trap t)
  | none =>
    .ok (s.updAll us fun f =>
      let t := (s.srcA f e true).val
      let f := match link with | some d => f.setPair d ⟨f.pc + BitVec.ofNat 64 e.len, false⟩ | none => f
      f.jump t, us)

/-- The target of an extended BRA or CALL (R166). -/
def branchTarget (e : Ext) (f : Fibre) : DWord :=
  match e.lit with
  | some l => l
  | none => f.pc + 4 * e.imm.signExtend 64

/-- The issue of a branch word. -/
def branchIssue (minor : Nat) (b : BaseBranch) (len : Nat) : Issue := issueOf 1 minor (branchExt b) len

/-- BRA, base word. -/
def execBraBase (b : BaseBranch) (s : State) : Host.Outcome State Fault Refusal :=
  s.issue (branchIssue 0 b 4) (branchTo 4 none fun f => f.pc + 4 * b.off.signExtend 64)
/-- BRA in its longer forms. -/
def execBraExt (x : BranchForm) (s : State) : Host.Outcome State Fault Refusal :=
  match x with
  | .ext e => s.issue (issueOf 1 0 e e.len) (branchTo e.len none (branchTarget e))
  | .baseLit b lit => s.issue (branchIssue 0 b 12) (branchTo 12 none fun _ => lit)
/-- The issue of a base CALL, whose link pair is v14:v15. -/
def callIssue (b : BaseBranch) (len : Nat) : Issue := issueOf 1 1 { branchExt b with d := 14 } len
/-- CALL, base word. -/
def execCallBase (b : BaseBranch) (s : State) : Host.Outcome State Fault Refusal :=
  s.issue (callIssue b 4) (branchTo 4 (some 14) fun f => f.pc + 4 * b.off.signExtend 64)
/-- CALL in its longer forms. -/
def execCallExt (x : BranchForm) (s : State) : Host.Outcome State Fault Refusal :=
  match x with
  | .ext e => s.issue (issueOf 1 1 e e.len) (branchTo e.len (some e.d.toNat) (branchTarget e))
  | .baseLit b lit => s.issue (callIssue b 12) (branchTo 12 (some 14) fun _ => lit)
/-- BRX. -/
def execBrx (e : Ext) (s : State) : Host.Outcome State Fault Refusal := s.issue (issueOf 1 2 e e.len) (branchReg e (usesOf 1 2 e) none)
/-- CALLX. -/
def execCallx (e : Ext) (s : State) : Host.Outcome State Fault Refusal :=
  s.issue (issueOf 1 3 e e.len) (branchReg e (slotUse (.vs .pair 1) e.ak e.a true false e) (some e.d.toNat))
/-- RET. -/
def execRet (e : Ext) (s : State) : Host.Outcome State Fault Refusal := s.issue (issueOf 1 4 e e.len) (branchReg e (usesOf 1 4 e) none)

/-! ### Fibres (R188 to R192) -/

/-- FEND: each active fibre ends. -/
def fend (e : Ext) (len : Nat) (s : State) : Host.Outcome State Fault Refusal :=
  s.issue { issueOf 2 0 e len with compare := true } fun s us => .ok (us.foldl (fun s u => s.endFibre u false) s, us)
/-- FEND, base word. -/
def execFendBase (b : Base) (s : State) := fend (expandBase 2 0 b none) 4 s
/-- FEND, extended. -/
def execFendExt (e : Ext) (s : State) := fend e e.len s

/-- A pre-emption request stands for the fibre's pipeline, or a migration request for its group (R189, R404, R411). -/
def State.saveRequested (s : State) (f : Fibre) : Bool :=
  let p := s.partn f.part
  (p.preqs.any fun q => q.pipes.contains f.pipe) ||
  p.migrs.any fun m => m.state == 1 && (s.group f.groupId).members.any fun x => (s.fibre x.2).onCore == m.src

/-- YIELD: a safe point (R189). -/
def yieldAt (e : Ext) (len : Nat) (s : State) : Host.Outcome State Fault Refusal :=
  s.issue (issueOf 2 1 e len) fun s us =>
    .ok ((us.filter fun u => s.saveRequested (s.fibre u)).foldl (fun s u => s.updFibre u Fibre.save) s, [])
/-- YIELD, base word. -/
def execYieldBase (b : Base) (s : State) := yieldAt (expandBase 2 1 b none) 4 s
/-- YIELD, extended. -/
def execYieldExt (e : Ext) (s : State) := yieldAt e e.len s

/-- PREQ bit 0: a pre-emption request that applies to the fibre's pipeline stands (R201, R404). -/
def State.preqBit (s : State) (f : Fibre) : Bool := (s.partn f.part).preqs.any fun q => q.pipes.contains f.pipe

/-- YIELDP: read once, since a request may come between two replicas (R371). -/
def execYieldp (e : Ext) (s : State) : Host.Outcome State Fault Refusal :=
  s.issue { issueOf 2 2 e e.len with once := true } (eachFibre fun s f => .ok (f.setPred e.pd.toNat (s.preqBit f)))

/-- One fibre sleeps, unless an error wake is held for the supervisor, or a WAKE has reached its replica set (R190, R370, R441). -/
def State.sleepOne (s : State) (e : Ext) (u : Nat) : State × Bool :=
  let f := s.fibre u
  let n := s.countB f e
  if (s.partn f.part).errorWake && s.isSupervisor f then (s.updPart f.part fun p => { p with errorWake := false }, false)
  else if f.wakes ≠ 0 then (s.updFibre u fun f => { f with wakes := f.wakes - 1 }, false)
  else
    let due := if n = 0 then none else some (s.clock + n)
    let s := s.updFibre u fun f => f.waitsPast .sleeping (.sleep due) e.len
    ((match due with | some c => s.timer c (.sleepExpire u) | none => s), true)

/-- SLEEP. -/
def execSleep (e : Ext) (s : State) : Host.Outcome State Fault Refusal :=
  s.issue (issueOf 2 3 e e.len) (inLaneOrder fun s u => .ok (s.sleepOne e u))

/-- SLEEP_EXPIRE. -/
def execSleepExpire (fibre : Nat) (s : State) : Host.Outcome State Fault Refusal :=
  .next (s.updFibre fibre fun f =>
    match f.wait with
    | .sleep (some c) => if f.st = .sleeping ∧ c ≤ s.clock then f.continues else f
    | _ => f)

/-- One fibre's WAKE (R190): every replica of the named set wakes (R370). -/
def State.wakeOne (s : State) (e : Ext) (u : Nat) : State :=
  let f := s.fibre u
  let id := (s.srcA f e false).val.toNat % 2 ^ 32
  let named := s.fibres.filter fun g => g.part == f.part && g.fid == id && g.live
  let lead := named.find? fun g => g.repl == (s.pipeOf g).leader || !(s.pipeOf g).replicated
  match lead with
  | some l =>
    if l.st = .sleeping then
      let s := named.foldl (fun s g =>
        if g.st = .sleeping then (s.updFibre g.uid Fibre.continues).selfInval (s.coreOf g)
        else s.updFibre g.uid fun x => { x with wakes := x.wakes + 1 }) s
      s.setPd u e true
    else s.setPd u e false
  | none => s.setPd u e false

/-- WAKE. -/
def execWake (e : Ext) (s : State) : Host.Outcome State Fault Refusal :=
  s.issue { issueOf 2 4 e e.len with compare := true, once := true }
    (notPoisoned (usesOf 2 4 e) (afterAcks 4 (inLaneOrder fun s u => .ok (s.wakeOne e u, false))))

/-- One fibre's SPAWN. -/
def State.spawnOne (s : State) (e : Ext) (u : Nat) : State :=
  let f := s.fibre u
  let tag := if e.mod.getLsbD 0 then (s.srcC f e true).val.toNat % 64 else f.tag
  match s.spawn f (s.srcA f e true).val (s.countB f e) tag with
  | some s => (s.setPd u e true).updFibre u fun f => { f with spawns := f.spawns + 1 }
  | none => (s.setPd u e false).updFibre u fun f => { f with spawns := f.spawns + 1 }

/-- A follower passes a SPAWN: the children its leader's SPAWN created here are born (R370). -/
def takeSpawn (s : State) (f : Fibre) (_ : Fwd) : State :=
  let n := f.spawns + 1
  let s := s.updFibre f.uid fun f => { f with spawns := n }
  { s with fibres := mapIf (fun g => g.parent == f.uid && g.repl == f.repl && g.wait == .born n) Fibre.retry s.fibres }

/-- SPAWN. -/
def execSpawn (e : Ext) (s : State) : Host.Outcome State Fault Refusal :=
  let srcs := slotUse (.vs .pair 1) e.ak e.a true false e ++ bSlotUse (.src [0, 1, 2] .one 1 false true) e
  s.issue { issueOf 2 5 e e.len with once := true, take := takeSpawn }
    (notPoisoned srcs fun s us =>
      match us.find? fun u => (s.srcA (s.fibre u) e true).val.toNat % 4 != 0 with
      | some u => .error (.trap (misalign (s.srcA (s.fibre u) e true).val.toNat 4))
      | none => afterAcks 4 (inLaneOrder fun s u => .ok (s.spawnOne e u, false)) s us)

/-! ### REPACK (R192) -/

/-- Two fibres belong to one gang set. -/
def Fibre.sameSet (f : Fibre) (c : Collect) : Bool :=
  f.part == c.part && f.onCore == c.lcore && f.quad == c.quad && f.stage == c.stage && f.pipe == c.pipe && f.repl == c.repl

/-- The gang slots of a collection's gang set. -/
def State.setSlots (s : State) (c : Collect) : List Nat :=
  sortBy (fun k => k) ((s.fibres.filter fun f => f.live && decide (f.slot < 8) && f.sameSet c).foldl (fun l f => addOnce l f.slot) [])

/-- RepackLanes: (fibre, slot, lane). -/
def State.repackPlan (s : State) (c : Collect) : List (Nat × Nat × Nat) :=
  let order := sortBy (fun (x : Nat × Nat) => (x.2 * 8 + (s.fibre x.1).slot) * 64 + (s.fibre x.1).lane) c.arrivals
  let here := s.fibres.filter fun f => f.part == c.part && f.onCore == c.lcore && f.quad == c.quad && f.live && decide (f.slot < 8)
  let mine := c.arrivals.map fun x => x.1
  let lanes := (s.setSlots c).flatMap fun k => (List.range 64).filterMap fun l =>
    if here.any fun f => f.slot == k && f.lane == l && !mine.contains f.uid then none else some (k, l)
  (order.zip lanes).map fun (x, k, l) => (x.1, k, l)

/-- Move fibres to their lanes; they continue after the REPACK. -/
def State.repackApply (s : State) (plan : List (Nat × Nat × Nat)) : State :=
  plan.foldl (fun s (u, k, l) => s.updFibre u fun f => { f.continues with slot := k, lane := l }) s

/-- End a collection: the arrivals are reassigned, and each follower replica repeats the reassignment (R192, R370). -/
def State.endCollect (s : State) (c : Collect) : State :=
  let plan := s.repackPlan c
  let p := s.pipe c.part c.pipe
  let s := { s with collects := s.collects.filter fun x => x.id != c.id }
  let sets := plan.map fun (u, k, l) => ((s.fibre u).setId, k, l)
  let core0 := (s.fibre ((plan.headD (0, 0, 0)).1)).lcore
  let s := if !p.replicated || c.repl != p.leader then s
    else (p.live.filter fun r => r != c.repl).foldl (fun s r =>
      let (id, s) := s.fresh
      let early := s.fibres.filter fun f => f.part == c.part && f.pipe == c.pipe && f.repl == r && f.live &&
        sets.any (fun x => x.1 == f.setId) && (match f.wait with | .repack _ => true | _ => false) && f.pc == c.pc
      let us := early.map fun f => f.uid
      let s := s.updAll us fun f => { f with wait := .repack id }
      { s with collects := (s.collects.map fun (x : Collect) => { x with arrivals := x.arrivals.filter fun a => !us.contains a.1 }) ++
          [{ c with id := id, repl := r, lcore := s.partner c.part r core0, arrivals := us.map fun u => (u, 0), plan := sets }] }) s
  let out := (c.arrivals.map fun x => x.1).filter fun u => !plan.any fun y => y.1 == u
  (s.repackApply plan).updAll out Fibre.continues

/-- A follower's collection ends when every fibre of its leader's reassignment has arrived. -/
def State.endPlanned (s : State) (c : Collect) : State :=
  let mine := s.fibres.filter fun f => f.part == c.part && f.pipe == c.pipe && f.repl == c.repl && f.live
  let moves := c.plan.filterMap fun (x : Nat × Nat × Nat) => (mine.find? fun f => f.setId == x.1).map fun f => (f.uid, x.2.1, x.2.2)
  if moves.all fun m => c.arrivals.any fun a => a.1 == m.1 then
    ({ s with collects := s.collects.filter fun x => x.id != c.id }).repackApply moves
  else s

/-- A collection is complete (R192): every fibre of the gang set that is RUNNABLE or in a waiting state of R61 has arrived, or a save or migration request
has reached the set. -/
def State.collectDone (s : State) (c : Collect) : Bool :=
  let set := s.fibres.filter fun f => f.live && !f.saved && f.sameSet c
  set.all (fun f => c.arrivals.any fun a => a.1 == f.uid) || set.any s.saveRequested

/-- End the collections that are complete. -/
def State.settleCollects (s : State) : State :=
  s.collects.foldl (fun s c =>
    let p := s.pipe c.part c.pipe
    if !c.plan.isEmpty then s.endPlanned c
    else if c.arrivals.isEmpty then { s with collects := s.collects.filter fun x => x.id != c.id }
    else if p.replicated && c.repl != p.leader then s
    else if s.collectDone c then s.endCollect c else s) s

/-- The fibres of a wave arrive (R192). -/
def State.repackArrive (s : State) (e : Ext) (us : List Nat) : State :=
  let f := s.fibre (us.headD 0)
  let p := s.pipeOf f
  let follows := p.replicated && f.repl != p.leader
  let open_ (c : Collect) : Bool := f.sameSet c && c.pc == f.pc && c.grp == f.cur && c.tag == f.tag
  let arr := us.map fun u => (u, ((s.fibre u).v e.a.toNat).val.toNat)
  let join (s : State) (c : Collect) (arr : List (Nat × Nat)) : State :=
    let s := { s with collects := mapIf (fun (x : Collect) => x.id == c.id) (fun (x : Collect) => { x with arrivals := x.arrivals ++ arr }) s.collects }
    s.updAll (arr.map fun a => a.1) fun f => f.waitsPast .waitConverge (.repack c.id) e.len
  let planned (u : Nat) : Option Collect := s.collects.find? fun c => open_ c && c.plan.any fun x => x.1 == (s.fibre u).setId
  let s0 := arr.foldl (fun (t : State) a => match planned a.1 with | some c => join t c [a] | none => t) s
  let rest := arr.filter fun a => (planned a.1).isNone
  if rest.isEmpty then s0
  else
    match s0.collects.find? fun c => open_ c && c.plan.isEmpty with
    | some c => join s0 c rest
    | none =>
      let (id, s1) := s0.fresh
      let n := s.countB f e
      let c : Collect := { id := id, part := f.part, lcore := f.onCore, quad := f.quad, stage := f.stage, pipe := f.pipe, repl := f.repl, pc := f.pc
                           grp := f.cur, tag := f.tag, arrivals := [], due := s.clock + n, plan := [] }
      let s2 := join { s1 with collects := s1.collects ++ [c] } c rest
      if follows then s2
      else if n = 0 then s2.endCollect { c with arrivals := rest }
      else s2.timer c.due (.repackBudgetExpire id)

/-- REPACK. -/
def execRepack (e : Ext) (s : State) : Host.Outcome State Fault Refusal :=
  s.issue (issueOf 2 6 e e.len) (notPoisoned [⟨false, e.a.toNat, 1, true, false⟩] fun s us => .ok ((s.repackArrive e us).settleCollects, us))

/-- REPACK_BUDGET_EXPIRE. -/
def execRepackBudgetExpire (collection : Nat) (s : State) : Host.Outcome State Fault Refusal :=
  match s.collects.find? fun c => c.id == collection && c.plan.isEmpty && c.due ≤ s.clock with
  | some c => .next (s.endCollect c)
  | none => .next s

/-! ### Groups (R193 to R196) -/

/-- GNEW. -/
def execGnew (e : Ext) (s : State) : Host.Outcome State Fault Refusal :=
  s.issue { issueOf 3 0 e e.len with once := true } (oncePerWave fun s f us =>
    match s.newGroup (s.pipeOf f) (f.lcore / 4) (e.mod.getLsbD 0) (s.group f.groupId).copyRight f.uid with
    | some (h, s) => .ok ((s.setS f.groupId e.d.toNat ⟨BitVec.ofNat 64 h, false⟩).setPredAll us e.pd.toNat true, [])
    | none => .ok ((s.setS f.groupId e.d.toNat ⟨0, false⟩).setPredAll us e.pd.toNat false, []))

/-- The live group that a handle value names (R40). -/
def State.namedGroup (s : State) (f : Fibre) (h : DWord) : Option Group :=
  if h.toNat / 2 ^ 12 % 2 ^ 20 = 0 then none else s.group? ⟨f.part, h.toNat, f.repl⟩

/-- Move one fibre to a group, where the group takes it (R41), and set its predicate. -/
def State.joinOne (s : State) (e : Ext) (u : Nat) (h : DWord) : State :=
  let f := s.fibre u
  match s.namedGroup f h with
  | none => s.setPd u e false
  | some g =>
    if 1024 ≤ g.size ∨ handleCluster g.handle ≠ f.lcore / 4 ∨ g.handle = f.cur then s.setPd u e false
    else
      let s := s.joinGroup u ⟨f.part, g.handle, f.repl⟩ g.freeRank
      (s.setPd u e true).updFibre u fun x => { x with info := [1, g.handle, g.freeRank] }

/-- A follower makes its leader's move (R370). -/
def takeJoin (s : State) (f : Fibre) (r : Fwd) : State :=
  match r.info with
  | [_, h, k] => if (s.group? ⟨f.part, h, f.repl⟩).isSome then s.joinGroup f.uid ⟨f.part, h, f.repl⟩ k else s
  | _ => s

/-- GJOIN. -/
def execGjoin (e : Ext) (s : State) : Host.Outcome State Fault Refusal :=
  s.issue { issueOf 3 1 e e.len with once := true, take := takeJoin }
    (notPoisoned (usesOf 3 1 e) (inLaneOrder fun s u => .ok (s.joinOne e u (s.srcA (s.fibre u) e true).val, false)))
/-- GLEAVE. -/
def execGleave (e : Ext) (s : State) : Host.Outcome State Fault Refusal :=
  s.issue { issueOf 3 2 e e.len with once := true, take := takeJoin }
    (illegalIf (fun _ f => f.cur == f.home) (inLaneOrder fun s u => .ok (s.joinOne e u (BitVec.ofNat 64 (s.fibre u).home), false)))
/-- Dissolve a group in every live replica. -/
def State.dissolveAll (s : State) (p : Pipe) (h : Nat) : State := p.live.foldl (fun s r => s.dissolve ⟨p.part, h, r⟩) s
/-- GFREE. -/
def execGfree (e : Ext) (s : State) : Host.Outcome State Fault Refusal :=
  s.issue { issueOf 3 3 e e.len with once := true } (notPoisoned (usesOf 3 3 e) (oncePerWave fun s f us =>
    match s.namedGroup f (s.srcA f e true).val with
    | some g => if g.members.isEmpty && g.lost.isEmpty then .ok ((s.dissolveAll (s.pipeOf f) g.handle).setPredAll us e.pd.toNat true, [])
                else .ok (s.setPredAll us e.pd.toNat false, [])
    | none => .ok (s.setPredAll us e.pd.toNat false, [])))

/-- One fibre's arrival at a barrier, and its wait for the phase under GBAR; true where it does not go on. -/
def State.arriveOne (s : State) (e : Ext) (wait : Bool) (u : Nat) : State × Bool :=
  let b := modLow e 2
  let f := s.fibre u
  if s.arrivesNext f b then (s.updFibre u fun f => f.waitsPast .waitBarrier (.barrierNext b wait) e.len, true)
  else
    let s := s.arrive f b
    if !wait then (s, false)
    else if ((s.group f.groupId).bar b).arrived.contains u then (s.updFibre u fun f => f.waitsPast .waitBarrier (.barrier b) e.len, true)
    else (s.acquire f 1, false)

/-- GBAR. -/
def execGbar (e : Ext) (s : State) : Host.Outcome State Fault Refusal :=
  s.issue { issueOf 3 4 e e.len with compare := true } (afterAcks 1 (inLaneOrder fun s u => .ok (s.arriveOne e true u)))
/-- GARRIVE. -/
def execGarrive (e : Ext) (s : State) : Host.Outcome State Fault Refusal :=
  s.issue { issueOf 3 5 e e.len with compare := true } (afterAcks 1 (inLaneOrder fun s u => .ok (s.arriveOne e false u)))
/-- GWAIT. -/
def execGwait (e : Ext) (s : State) : Host.Outcome State Fault Refusal :=
  s.issue (issueOf 3 6 e e.len) (inLaneOrder fun s u =>
    let f := s.fibre u
    if ((s.group f.groupId).bar (modLow e 2)).arrived.contains u then
      .ok (s.updFibre u fun f => f.waitsPast .waitBarrier (.barrier (modLow e 2)) e.len, true)
    else .ok (s.acquire f 1, false))

/-- Set a convergence register and discard its open round (R46): fibres that had signed it sign the new one. -/
def State.cvSet (s : State) (i : GroupId) (k n : Nat) : State :=
  let rnd := ((s.group i).cv k).round
  let s := s.updGroup i fun g => g.updCv k fun c => { c with size := n, signers := [], count := 0, since := none }
  let s := s.mapFibres fun f => if f.groupId == i then { f with signed := f.signed.filter fun x => !(x.1 == i.handle && x.2.1 == k && x.2.2.1 == rnd) } else f
  s.lateSigners i k

/-- CVSET. -/
def execCvset (e : Ext) (s : State) : Host.Outcome State Fault Refusal :=
  s.issue (issueOf 3 7 e e.len) (oncePerWave fun s f _ =>
    let n := s.countB f e
    if n = 0 ∨ 1024 < n then .error (.trap s.illegal) else .ok (s.cvSet f.groupId (modLow e 3) n, []))
/-- A register that has never been set (R196). -/
def neverSet (e : Ext) (s : State) (f : Fibre) : Bool := ((s.group f.groupId).cv (modLow e 3)).size == 0
/-- CVSIGN. -/
def execCvsign (e : Ext) (s : State) : Host.Outcome State Fault Refusal :=
  s.issue { issueOf 3 8 e e.len with compare := true } (illegalIf (neverSet e) (afterAcks 1 (inLaneOrder fun s u =>
    let f := s.fibre u
    if ((s.group f.groupId).cv (modLow e 3)).signers.contains u then .ok (s.updFibre u fun f => f.waitsPast .waitConverge (.signNext (modLow e 3)) e.len, true)
    else .ok (s.sign f (modLow e 3), false))))
/-- CVWAIT. -/
def execCvwait (e : Ext) (s : State) : Host.Outcome State Fault Refusal :=
  s.issue (issueOf 3 9 e e.len) (illegalIf (neverSet e) fun s us =>
    .ok (s.updAll us fun f => f.waitsPast .waitConverge (.round (modLow e 3)) e.len, us))

/-! ### Queues (R197, R198) -/

/-- The entry of a fibre's sixteen registers. -/
def Fibre.entry (f : Fibre) (a : Nat) : QEntry := { tag := f.tag, words := (List.range 16).map fun k => (f.v (a + k)).val, fid := f.fid }

/-- Trap QUEUE_CLOSED where the queue is closed (R198). -/
def notClosed (q : Nat) (b : Body) : Body := fun s us =>
  if ((s.pipeOf (s.fibre (us.headD 0))).queue q).closed then .error (.trap { cause := cQueueClosed, detail := q }) else b s us

/-- QPUSH. DESIGN CHOICE (notes/assumptions/80.md): q at or above NQUE traps among the instruction's own checks, for active fibres; a QPUSH that
waited for room issues again, so that it competes with later ones for the window (R56) and traps QUEUE_CLOSED where its queue has closed meanwhile
(R198). A QPUSH of a tag that is COMMITTING is held (R126). -/
def execQpush (e : Ext) (s : State) : Host.Outcome State Fault Refusal :=
  let q := modLow e 3
  s.issue { issueOf 4 0 e e.len with compare := true, once := true }
    (illegalIf (fun s f => s.badQueue f q) (notPoisoned (usesOf 4 0 e) (notClosed q (notCommitting (inLaneOrder fun s u =>
      let f := s.fibre u
      if s.portFull f.port then .ok (s.updFibre u fun f => f.waits .waitMemory (.port false), true)
      else .ok (s.portPush f.port f q false (f.entry e.a.toNat), false))))))

/-- One fibre's QPOP. -/
def State.popOne (s : State) (e : Ext) (u : Nat) : State :=
  let f := s.fibre u
  let q := (s.pipeOf f).queue (modLow e 3)
  match q.oldest f.tag with
  | none => s.setPd u e false
  | some x =>
    let s := s.updQueue f.part f.pipe (modLow e 3) fun q => q.dropOldest f.tag
    let s := s.updFibre u fun f => f.setRange e.d.toNat (x.words.map fun w => ⟨w, false⟩)
    (s.setPd u e true).selfInval (s.coreOf f)

/-- QPOP. -/
def execQpop (e : Ext) (s : State) : Host.Outcome State Fault Refusal :=
  s.issue { issueOf 4 1 e e.len with compare := true, once := true }
    (illegalIf (fun s f => s.badQueue f (modLow e 3)) (inLaneOrder fun s u => .ok (s.popOne e u, false)))

/-- What QPEEK reports (R197). -/
def Queue.peek (q : Queue) (t : Nat) : Word :=
  BitVec.ofNat 32 ((if q.launching then 0 else (q.entries.filter fun e => e.tag == t).length) % 2 ^ 16 + if q.closed then 2 ^ 31 else 0)

/-- QPEEK. -/
def execQpeek (e : Ext) (s : State) : Host.Outcome State Fault Refusal :=
  s.issue { issueOf 4 2 e e.len with compare := true, once := true }
    (illegalIf (fun s f => s.badQueue f (modLow e 3)) (eachFibre fun s f =>
      .ok (f.setV e.d.toNat ⟨((s.pipeOf f).queue (modLow e 3)).peek f.tag, false⟩)))

/-- QCLOSE: an entry of the port that closes the queue when it arrives (R198). -/
def execQclose (e : Ext) (s : State) : Host.Outcome State Fault Refusal :=
  let q := modLow e 3
  s.issue { issueOf 4 3 e e.len with compare := true, once := true }
    (illegalIf (fun s f => s.badQueue f q) (oncePerWave fun s f us =>
      if ((s.pipeOf f).queue q).closed then .ok (s, [])
      else if s.portFull f.port then .ok (s.updAll us fun f => f.waits .waitMemory (.port false), us)
      else .ok (s.portPush f.port f q true { tag := f.tag, words := [], fid := f.fid }, [])))

/-! ### Launching (R199, R200) -/

/-- The result word of LAUNCH and of LWAIT. -/
def handleWord (h cause status : Nat) : PDWord := ⟨BitVec.ofNat 64 (h % 2 ^ 32 * 2 ^ 32 + cause * 2 ^ 16 + status), false⟩

/-- The launch that one fibre makes for its wave. -/
def launchBody (e : Ext) (s : State) (f : Fibre) (_ : List Nat) : Except Stop (State × List Nat) :=
  let a := s.srcA f e true
  let b := (s.srcB f e false .b32).val.toNat
  let tag := if e.mod.getLsbD 0 then (s.srcC f e true).val.toNat % 64 else f.tag
  let fail (n : Nat) : Except Stop (State × List Nat) := .ok (s.setS f.groupId e.d.toNat (handleWord 0 0 n), [])
  match s.readDescriptor f a.val.toNat with
  | .error (.trap _) => fail 5
  | .error st => .error st
  | .ok (d, poison, walks) =>
    if poison then fail 5
    else
      let (h, st, s) := (s.keepWalks f walks).launch f.part (b % 128) (b / 128 % 128 + 1) tag d (s.tagOk f tag) false
      .ok (s.setS f.groupId e.d.toNat (handleWord h 0 st), [])

/-- LAUNCH. -/
def execLaunch (e : Ext) (s : State) : Host.Outcome State Fault Refusal :=
  s.issue { issueOf 5 0 e e.len with compare := true, once := true }
    (notPoisoned [⟨true, e.a.toNat, 1, true, false⟩] fun s us =>
      let a := (s.srcA (s.fibre (us.headD 0)) e true).val.toNat
      if a % 64 ≠ 0 then .error (.trap (misalign a 64)) else afterAcks 4 (oncePerWave (launchBody e)) s us)

/-- LWAIT for the fibres of a wave that wait for one pipeline, which a fibre that waits already has recorded (R206); the others of the wave issue again.
A poisoned handle gives a poisoned result (R105). -/
def lwaitBody (e : Ext) : Body := fun s us =>
  let f := s.fibre (us.headD 0)
  let mine := us.filter fun u => (s.fibre u).lwait == f.lwait
  let rest := us.filter fun u => !mine.contains u
  let a := s.srcA f e true
  let h := f.lwait.getD (a.val.toNat / 2 ^ 32)
  let give (s : State) (x : PDWord) : State := (s.setS f.groupId e.d.toNat x).updAll mine fun f => { f with lwait := none }
  if f.lwait.isNone && a.poison then .ok (give s ⟨0, true⟩, rest)
  else
    match s.pipe? f.part h with
    | none => .ok (give s (handleWord h 0 0xFF), rest)
    | some p =>
      match p.ended with
      | none => .ok (s.updAll mine fun f => { f.waits .waitMemory (.pipe h) with lwait := some h }, us)
      | some (st, cause) => .ok ((give s (handleWord h cause st)).selfInval (s.coreOf f), rest)

/-- LWAIT. -/
def execLwait (e : Ext) (s : State) : Host.Outcome State Fault Refusal :=
  s.issue { issueOf 5 1 e e.len with compare := true, once := true } (lwaitBody e)

/-! ### Special registers and traps (R201 to R203, R205) -/

/-- The value of a special register (R201). -/
def State.special (s : State) (f : Fibre) (n : Nat) : Nat :=
  match n with
  | 0 => f.fid
  | 1 => f.launchIdx
  | 2 => f.cur
  | 3 => f.rank
  | 4 => f.lane
  | 5 => f.lcore
  | 6 => f.lcore / 4
  | 7 => f.part
  | 8 => f.tag
  | 9 => f.repl
  | 10 => s.clock
  | 11 => (if (s.interval f.part).isSome then 2 ^ 63 else 0) + (s.partn f.part).intervals % 2 ^ 32
  | 12 => f.flags.toNat
  | 13 => f.ftz.toNat
  | 14 => if s.preqBit f then 1 else 0
  | _ => f.repcnt

/-- The special registers of 64 bits (R201). -/
def specialWide (n : Nat) : Bool := [2, 10, 11, 12, 13].contains n

/-- GETSR. The registers that differ between replicas come from the leader (R371). -/
def execGetsr (e : Ext) (s : State) : Host.Outcome State Fault Refusal :=
  let n := modLow e 4
  s.issue { issueOf 6 0 e e.len with once := [0, 2, 5, 6, 10, 11, 14].contains n }
    (if e.dk then oncePerWave fun s f _ => .ok (s.setS f.groupId e.d.toNat ⟨BitVec.ofNat 64 (s.special f n), false⟩, [])
     else eachFibre fun s f => .ok (f.setD e (specialWide n) ⟨BitVec.ofNat 64 (s.special f n), false⟩))

/-- Hold the active fibres at a TRAP, SYSCALL or BKPT, with the register that takes an answer (R202). -/
def holdBody (cause : Nat) (answer : Option Nat) (e : Ext) (dbg : Bool) : Body := fun s us =>
  let s := s.trap (us.headD 0) us { cause := cause, detail := e.imm.toNat } answer (some e.len)
  .ok (s.updAll us fun f => { f with hold := f.hold.map fun h => { h with debugger := dbg } }, us)

/-- TRAP. -/
def execTrap (e : Ext) (s : State) : Host.Outcome State Fault Refusal := s.issue (issueOf 6 2 e e.len) (holdBody cTrap none e false)
/-- SYSCALL. -/
def execSyscall (e : Ext) (s : State) : Host.Outcome State Fault Refusal := s.issue (issueOf 6 3 e e.len) (holdBody cSyscall (some e.d.toNat) e false)

/-- The held fibres that ERET names (R203): every replica of the FIBRE_ID that is held for an answer, not for the debugger. -/
def State.heldBy (s : State) (part fid : Nat) : List Fibre :=
  s.fibres.filter fun g => g.part == part && g.fid == fid && g.live && (match g.hold with | some h => !h.debugger | none => false)

/-- ERET in one of its modes: 0 RETRY, 1 SKIP, 2 END (R203). -/
def eret (mode : Nat) (e : Ext) (s : State) : Host.Outcome State Fault Refusal :=
  s.issue { issueOf 6 4 e e.len with priv := true } (notPoisoned (usesOf 6 4 e) (oncePerWave fun s f us =>
    let v := (s.srcB f e false .b32).val.extractLsb' 0 32
    let held := (s.heldBy f.part ((s.srcA f e true).val.toNat % 2 ^ 32)).map fun g => g.uid
    if held.isEmpty then .ok (s.setPredAll us e.pd.toNat false, [])
    else
      let s := if mode = 2 then held.foldl (fun s u => s.endFibre u false) s else s.updAll held fun g => g.resume mode v
      .ok (s.setPredAll us e.pd.toNat true, [])))
/-- ERET.RETRY. -/
def execEretRetry (e : Ext) (s : State) := eret 0 e s
/-- ERET.SKIP. -/
def execEretSkip (e : Ext) (s : State) := eret 1 e s
/-- ERET.END. -/
def execEretEnd (e : Ext) (s : State) := eret 2 e s

/-- TFENCE: ARITH where an enabled flag is set (R148). -/
def execTfence (e : Ext) (s : State) : Host.Outcome State Fault Refusal :=
  s.issue (issueOf 6 7 e e.len) fun s us =>
    match us.find? fun u => (s.fibre u).flags &&& (s.fibre u).ftz.extractLsb' 32 5 != 0 with
    | some u => .error (.trap { cause := cArith, detail := ((s.fibre u).flags &&& (s.fibre u).ftz.extractLsb' 32 5).toNat })
    | none => .ok (s, [])

end Sys2Proof.Machine
end

