-- ==== Sys2Proof/Machine/Scalar.lean ====
section
/-! DEFINITION. The scalar instructions of majors 0x10 and 0x11, once per wave on the group's s-registers (R36, R213, R214). -/

namespace Sys2Proof.Machine

/-- An instruction that acts once for the wave (R36). -/
def State.once (s : State) (major minor : Nat) (e : Ext) (len : Nat)
    (g : State → Fibre → List Nat → Except Stop (State × List Nat)) : Host.Outcome State Fault Refusal :=
  s.issue (issueOf major minor e len) (oncePerWave g)

/-- Write s(D) with a value computed from s(A) and b (R213). -/
def sBinary (e : Ext) (g : DWord → DWord → DWord) (s : State) (f : Fibre) (_ : List Nat) : Except Stop (State × List Nat) :=
  let a := s.srcA f e true
  let b := s.srcB f e true .b64
  .ok (s.setS f.groupId e.d.toNat ⟨g a.val b.val, a.poison || b.poison⟩, [])

/-- SADD. -/
def sadd (e : Ext) (len : Nat) (s : State) := s.once 0x10 0 e len (sBinary e (arith e (· + ·)))
/-- SSUB. -/
def ssub (e : Ext) (len : Nat) (s : State) := s.once 0x10 1 e len (sBinary e (arith e (· - ·)))
/-- SMUL. -/
def smul (e : Ext) (len : Nat) (s : State) := s.once 0x10 2 e len (sBinary e (arith e (· * ·)))
/-- SMIN. -/
def smin (e : Ext) (len : Nat) (s : State) := s.once 0x10 3 e len (sBinary e (arith e intMin))
/-- SMAX. -/
def smax (e : Ext) (len : Nat) (s : State) := s.once 0x10 4 e len (sBinary e (arith e intMax))
/-- SMOV. -/
def smov (e : Ext) (len : Nat) (s : State) : Host.Outcome State Fault Refusal :=
  s.once 0x10 5 e len fun s f _ => .ok (s.setS f.groupId e.d.toNat (s.srcB f e true .b64), [])

/-- SADD as a base word. -/
def execSaddBase (b : Base) (s : State) := sadd (expandBase 0x10 0 b none) 4 s
/-- SADD in its longer forms. -/
def execSaddExt (x : XForm) (s : State) := sadd (x.toExt 0x10 0) x.len s
/-- SSUB as a base word. -/
def execSsubBase (b : Base) (s : State) := ssub (expandBase 0x10 1 b none) 4 s
/-- SSUB in its longer forms. -/
def execSsubExt (x : XForm) (s : State) := ssub (x.toExt 0x10 1) x.len s
/-- SMUL as a base word. -/
def execSmulBase (b : Base) (s : State) := smul (expandBase 0x10 2 b none) 4 s
/-- SMUL in its longer forms. -/
def execSmulExt (x : XForm) (s : State) := smul (x.toExt 0x10 2) x.len s
/-- SMIN as a base word. -/
def execSminBase (b : Base) (s : State) := smin (expandBase 0x10 3 b none) 4 s
/-- SMIN in its longer forms. -/
def execSminExt (x : XForm) (s : State) := smin (x.toExt 0x10 3) x.len s
/-- SMAX as a base word. -/
def execSmaxBase (b : Base) (s : State) := smax (expandBase 0x10 4 b none) 4 s
/-- SMAX in its longer forms. -/
def execSmaxExt (x : XForm) (s : State) := smax (x.toExt 0x10 4) x.len s
/-- SMOV as a base word. -/
def execSmovBase (b : Base) (s : State) := smov (expandBase 0x10 5 b none) 4 s
/-- SMOV in its longer forms. -/
def execSmovExt (x : XForm) (s : State) := smov (x.toExt 0x10 5) x.len s

/-- SMAD. -/
def execSmad (e : Ext) (s : State) : Host.Outcome State Fault Refusal :=
  s.once 0x10 6 e e.len fun s f _ =>
    let a := s.srcA f e true
    let b := s.srcB f e true .b64
    let c := s.srcC f e true
    .ok (s.setS f.groupId e.d.toNat
      ⟨intResult (intOf e.ty a.val * intOf e.ty b.val + intOf e.ty c.val) e.ty e.sat, a.poison || b.poison || c.poison⟩, [])
/-- SMOVI: s(D)[63:32] ← b[31:0]. -/
def execSmovi (e : Ext) (s : State) : Host.Outcome State Fault Refusal :=
  s.once 0x10 7 e e.len fun s f _ =>
    let d := s.srcD f e true
    let b := s.srcB f e true .b64
    .ok (s.setS f.groupId e.d.toNat ⟨b.val.extractLsb' 0 32 ++ d.val.extractLsb' 0 32, d.poison || b.poison⟩, [])
/-- SSETP: one predicate for every active fibre (R213). -/
def execSsetp (e : Ext) (s : State) : Host.Outcome State Fault Refusal :=
  s.once 0x10 8 e e.len fun s f us =>
    match s.poisonUse f (usesOf 0x10 8 e) with
    | some t => .error (.trap t)
    | none =>
      let a := s.srcA f e true
      let b := s.srcB f e true .b64
      .ok (s.setPredAll us e.pd.toNat (intCond (e.xop.toNat % 8) (intOf e.ty a.val) (intOf e.ty b.val)), [])
/-- SSEL: pC is that of the lowest active lane (R213). -/
def execSsel (e : Ext) (s : State) : Host.Outcome State Fault Refusal :=
  s.once 0x10 9 e e.len fun s f _ =>
    .ok (s.setS f.groupId e.d.toNat (if f.pred e.c.toNat then s.srcA f e true else s.srcB f e true .b64), [])
/-- SLEA: sA + b × 2^k modulo 2^64. -/
def execSlea (e : Ext) (s : State) :=
  s.once 0x10 10 e e.len (sBinary e fun a b => a + b * BitVec.ofNat 64 (2 ^ (e.xop.toNat % 8)))

/-- SAND. -/
def sand (e : Ext) (len : Nat) (s : State) := s.once 0x11 0 e len (sBinary e (· &&& ·))
/-- SOR. -/
def sor (e : Ext) (len : Nat) (s : State) := s.once 0x11 1 e len (sBinary e (· ||| ·))
/-- SXOR. -/
def sxor (e : Ext) (len : Nat) (s : State) := s.once 0x11 2 e len (sBinary e (· ^^^ ·))
/-- SSHL, SSHR, SSAR. -/
def sshift (minor : Nat) (op : Nat → Nat → Nat → Nat) (e : Ext) (len : Nat) (s : State) :=
  s.once 0x11 minor e len (sBinary e (shift e op))

/-- SAND as a base word. -/
def execSandBase (b : Base) (s : State) := sand (expandBase 0x11 0 b none) 4 s
/-- SAND in its longer forms. -/
def execSandExt (x : XForm) (s : State) := sand (x.toExt 0x11 0) x.len s
/-- SOR as a base word. -/
def execSorBase (b : Base) (s : State) := sor (expandBase 0x11 1 b none) 4 s
/-- SOR in its longer forms. -/
def execSorExt (x : XForm) (s : State) := sor (x.toExt 0x11 1) x.len s
/-- SXOR as a base word. -/
def execSxorBase (b : Base) (s : State) := sxor (expandBase 0x11 2 b none) 4 s
/-- SXOR in its longer forms. -/
def execSxorExt (x : XForm) (s : State) := sxor (x.toExt 0x11 2) x.len s
/-- SSHL as a base word. -/
def execSshlBase (b : Base) (s : State) := sshift 3 shlBits (expandBase 0x11 3 b none) 4 s
/-- SSHL in its longer forms. -/
def execSshlExt (x : XForm) (s : State) := sshift 3 shlBits (x.toExt 0x11 3) x.len s
/-- SSHR as a base word. -/
def execSshrBase (b : Base) (s : State) := sshift 4 shrBits (expandBase 0x11 4 b none) 4 s
/-- SSHR in its longer forms. -/
def execSshrExt (x : XForm) (s : State) := sshift 4 shrBits (x.toExt 0x11 4) x.len s
/-- SSAR as a base word. -/
def execSsarBase (b : Base) (s : State) := sshift 5 sarBits (expandBase 0x11 5 b none) 4 s
/-- SSAR in its longer forms. -/
def execSsarExt (x : XForm) (s : State) := sshift 5 sarBits (x.toExt 0x11 5) x.len s

end Sys2Proof.Machine
end

