-- ==== Sys2Proof/Machine/Float.lean ====
section
/-! DEFINITION. The floating-point instructions, majors 0x18, 0x19, 0x1E and 0x1F (R224 to R237). -/

namespace Sys2Proof.Machine

/-! ### Shapes -/

/-- Write v(D) with a computed word and set its flags; a poisoned operand poisons it and sets none (R105, R225). -/
def Fibre.setF (f : Fibre) (e : Ext) (poison : Bool) (r : FRes) : Fibre :=
  if poison then f.setV e.d.toNat ⟨0, true⟩
  else { f.setV e.d.toNat ⟨BitVec.ofNat 32 r.1, false⟩ with flags := f.flags ||| r.2 }

/-- The low 32 bits of an operand as a code. -/
def code32 (x : PDWord) : Nat := x.val.toNat % 2 ^ 32

/-- A result computed from A and B under the fibre's FTZ_CTL. -/
def fBinary (e : Ext) (g : DWord → Nat → Nat → FRes) (s : State) (f : Fibre) : Except Trap Fibre :=
  let a := s.srcA f e false
  let b := s.srcB f e false e.ty
  .ok (f.setF e (a.poison || b.poison) (g f.ftz (code32 a) (code32 b)))

/-- A result computed from B. -/
def fUnary (e : Ext) (g : DWord → Nat → FRes) (s : State) (f : Fibre) : Except Trap Fibre :=
  let b := s.srcB f e false e.ty
  .ok (f.setF e b.poison (g f.ftz (code32 b)))

/-- A result computed from A, B and C. -/
def fTernary (e : Ext) (g : DWord → Nat → Nat → Nat → FRes) (s : State) (f : Fibre) : Except Trap Fibre :=
  let a := s.srcA f e false
  let b := s.srcB f e false e.ty
  let c := s.srcC f e false
  .ok (f.setF e (a.poison || b.poison || c.poison) (g f.ftz (code32 a) (code32 b) (code32 c)))

/-- Two packed 16-bit elements computed each on its own, their flags joined (R139, R230). -/
def packed2 (g : Nat → FRes) : FRes :=
  let lo := g 0
  let hi := g 1
  (lo.1 % 2 ^ 16 + hi.1 % 2 ^ 16 * 2 ^ 16, lo.2 ||| hi.2)

/-- Element i of a packed word. -/
def half (x i : Nat) : Nat := x / 2 ^ (16 * i) % 2 ^ 16

/-! ### Major 0x18 (R227 to R229) -/

/-- FADD. -/
def faddOp (e : Ext) (len : Nat) (s : State) := s.vec 0x18 0 e len (fBinary e fun ctl a b => fpAdd ctl .f32 e.rnd e.sat a b)
/-- FADD as a base word. -/
def execFaddBase (b : Base) (s : State) := faddOp (expandBase 0x18 0 b none) 4 s
/-- FADD in its longer forms. -/
def execFaddExt (x : XForm) (s : State) := faddOp (x.toExt 0x18 0) x.len s
/-- FSUB. -/
def fsubOp (e : Ext) (len : Nat) (s : State) := s.vec 0x18 1 e len (fBinary e fun ctl a b => fpSub ctl .f32 e.rnd e.sat a b)
/-- FSUB as a base word. -/
def execFsubBase (b : Base) (s : State) := fsubOp (expandBase 0x18 1 b none) 4 s
/-- FSUB in its longer forms. -/
def execFsubExt (x : XForm) (s : State) := fsubOp (x.toExt 0x18 1) x.len s
/-- FMUL. -/
def fmulOp (e : Ext) (len : Nat) (s : State) := s.vec 0x18 2 e len (fBinary e fun ctl a b => fpMul ctl .f32 e.rnd e.sat a b)
/-- FMUL as a base word. -/
def execFmulBase (b : Base) (s : State) := fmulOp (expandBase 0x18 2 b none) 4 s
/-- FMUL in its longer forms. -/
def execFmulExt (x : XForm) (s : State) := fmulOp (x.toExt 0x18 2) x.len s
/-- FMIN. -/
def fminOp (e : Ext) (len : Nat) (s : State) := s.vec 0x18 3 e len (fBinary e fun ctl a b => fpSelect ctl .f32 false a b)
/-- FMIN as a base word. -/
def execFminBase (b : Base) (s : State) := fminOp (expandBase 0x18 3 b none) 4 s
/-- FMIN in its longer forms. -/
def execFminExt (x : XForm) (s : State) := fminOp (x.toExt 0x18 3) x.len s
/-- FMAX. -/
def fmaxOp (e : Ext) (len : Nat) (s : State) := s.vec 0x18 4 e len (fBinary e fun ctl a b => fpSelect ctl .f32 true a b)
/-- FMAX as a base word. -/
def execFmaxBase (b : Base) (s : State) := fmaxOp (expandBase 0x18 4 b none) 4 s
/-- FMAX in its longer forms. -/
def execFmaxExt (x : XForm) (s : State) := fmaxOp (x.toExt 0x18 4) x.len s

/-- FFMA. -/
def execFfma (e : Ext) (s : State) := s.vec 0x18 5 e e.len (fTernary e fun ctl a b c => fpFma ctl .f32 e.rnd e.sat a b c)
/-- FSETP (R228). -/
def execFsetp (e : Ext) (s : State) : Host.Outcome State Fault Refusal :=
  s.vec 0x18 6 e e.len fun s f =>
    let r := fpCompare f.ftz (e.xop.toNat % 16) (code32 (s.srcA f e false)) (code32 (s.srcB f e false .f32))
    s.unpoisoned f (usesOf 0x18 6 e) (.ok { f.setPred e.pd.toNat r.1 with flags := f.flags ||| r.2 })
/-- FCLASS (R229). -/
def execFclass (e : Ext) (s : State) := s.vec 0x18 7 e e.len (fUnary e fun _ b => (fpClass b, 0))
/-- FRND. -/
def execFrnd (e : Ext) (s : State) := s.vec 0x18 8 e e.len (fUnary e fun ctl b => fpRnd ctl e.rnd b)
/-- FSCALE: b is read as S32, an immediate too (R161). -/
def execFscale (e : Ext) (s : State) : Host.Outcome State Fault Refusal :=
  s.vec 0x18 9 e e.len fun s f =>
    let a := s.srcA f e false
    let b := s.srcB f e false .s32
    .ok (f.setF e (a.poison || b.poison) (fpScale f.ftz e.rnd (code32 a) (intOf .s32 b.val)))

/-! ### Major 0x19 (R230) -/

/-- HADD2. -/
def hadd2Op (e : Ext) (len : Nat) (s : State) :=
  s.vec 0x19 0 e len (fBinary e fun ctl a b => packed2 fun i => fpAdd ctl e.ty e.rnd e.sat (half a i) (half b i))
/-- HADD2 as a base word. -/
def execHadd2Base (b : Base) (s : State) := hadd2Op (expandBase 0x19 0 b none) 4 s
/-- HADD2 in its longer forms. -/
def execHadd2Ext (x : XForm) (s : State) := hadd2Op (x.toExt 0x19 0) x.len s
/-- HMUL2. -/
def hmul2Op (e : Ext) (len : Nat) (s : State) :=
  s.vec 0x19 1 e len (fBinary e fun ctl a b => packed2 fun i => fpMul ctl e.ty e.rnd e.sat (half a i) (half b i))
/-- HMUL2 as a base word. -/
def execHmul2Base (b : Base) (s : State) := hmul2Op (expandBase 0x19 1 b none) 4 s
/-- HMUL2 in its longer forms. -/
def execHmul2Ext (x : XForm) (s : State) := hmul2Op (x.toExt 0x19 1) x.len s
/-- HMIN2. -/
def hmin2Op (e : Ext) (len : Nat) (s : State) :=
  s.vec 0x19 2 e len (fBinary e fun ctl a b => packed2 fun i => fpSelect ctl e.ty false (half a i) (half b i))
/-- HMIN2 as a base word. -/
def execHmin2Base (b : Base) (s : State) := hmin2Op (expandBase 0x19 2 b none) 4 s
/-- HMIN2 in its longer forms. -/
def execHmin2Ext (x : XForm) (s : State) := hmin2Op (x.toExt 0x19 2) x.len s
/-- HMAX2. -/
def hmax2Op (e : Ext) (len : Nat) (s : State) :=
  s.vec 0x19 3 e len (fBinary e fun ctl a b => packed2 fun i => fpSelect ctl e.ty true (half a i) (half b i))
/-- HMAX2 as a base word. -/
def execHmax2Base (b : Base) (s : State) := hmax2Op (expandBase 0x19 3 b none) 4 s
/-- HMAX2 in its longer forms. -/
def execHmax2Ext (x : XForm) (s : State) := hmax2Op (x.toExt 0x19 3) x.len s

/-- HFMA2. -/
def execHfma2 (e : Ext) (s : State) :=
  s.vec 0x19 4 e e.len (fTernary e fun ctl a b c => packed2 fun i => fpFma ctl e.ty e.rnd e.sat (half a i) (half b i) (half c i))
/-- FDOT2. -/
def execFdot2 (e : Ext) (s : State) := s.vec 0x19 5 e e.len (fTernary e fun ctl a b c => fpDot2 ctl e.ty e.rnd e.sat a b c)

/-! ### Major 0x1E (R231) -/

/-- A special function. -/
def special (minor : Nat) (e : Ext) (len : Nat) (s : State) :=
  s.vec 0x1E minor e len (fUnary e fun ctl b => fpSpecial ctl minor e.rnd b)
/-- RCP as a base word. -/
def execRcpBase (b : Base) (s : State) := special 0 (expandBase 0x1E 0 b none) 4 s
/-- RCP in its longer forms. -/
def execRcpExt (x : XForm) (s : State) := special 0 (x.toExt 0x1E 0) x.len s
/-- RSQ as a base word. -/
def execRsqBase (b : Base) (s : State) := special 1 (expandBase 0x1E 1 b none) 4 s
/-- RSQ in its longer forms. -/
def execRsqExt (x : XForm) (s : State) := special 1 (x.toExt 0x1E 1) x.len s
/-- SQRT as a base word. -/
def execSqrtBase (b : Base) (s : State) := special 2 (expandBase 0x1E 2 b none) 4 s
/-- SQRT in its longer forms. -/
def execSqrtExt (x : XForm) (s : State) := special 2 (x.toExt 0x1E 2) x.len s
/-- EX2 as a base word. -/
def execEx2Base (b : Base) (s : State) := special 3 (expandBase 0x1E 3 b none) 4 s
/-- EX2 in its longer forms. -/
def execEx2Ext (x : XForm) (s : State) := special 3 (x.toExt 0x1E 3) x.len s
/-- LG2 as a base word. -/
def execLg2Base (b : Base) (s : State) := special 4 (expandBase 0x1E 4 b none) 4 s
/-- LG2 in its longer forms. -/
def execLg2Ext (x : XForm) (s : State) := special 4 (x.toExt 0x1E 4) x.len s
/-- SIN as a base word. -/
def execSinBase (b : Base) (s : State) := special 5 (expandBase 0x1E 5 b none) 4 s
/-- SIN in its longer forms. -/
def execSinExt (x : XForm) (s : State) := special 5 (x.toExt 0x1E 5) x.len s
/-- COS as a base word. -/
def execCosBase (b : Base) (s : State) := special 6 (expandBase 0x1E 6 b none) 4 s
/-- COS in its longer forms. -/
def execCosExt (x : XForm) (s : State) := special 6 (x.toExt 0x1E 6) x.len s
/-- TANH as a base word. -/
def execTanhBase (b : Base) (s : State) := special 7 (expandBase 0x1E 7 b none) 4 s
/-- TANH in its longer forms. -/
def execTanhExt (x : XForm) (s : State) := special 7 (x.toExt 0x1E 7) x.len s

/-! ### Major 0x1F (R232 to R236) -/

/-- The float types by their code. -/
def floatType (n : Nat) : OpType := OpType.ofCode (BitVec.ofNat 4 n)
/-- Element i of a word at a format's width. -/
def element (ty : OpType) (x i : Nat) : Nat := x / 2 ^ (ty.width * i) % 2 ^ ty.width

/-- FCVT (R233): Td in XOP[2:0], the element in XOP[5:3]. -/
def execFcvt (e : Ext) (s : State) :=
  s.vec 0x1F 0 e e.len (fUnary e fun ctl b =>
    fpConvert ctl e.ty (floatType (e.xop.toNat % 8)) e.rnd e.sat (element e.ty b (e.xop.toNat / 8 % 8)))
/-- F2I (R234): Ts in XOP[1:0], the element in XOP[2]. -/
def execF2i (e : Ext) (s : State) : Host.Outcome State Fault Refusal :=
  s.vec 0x1F 1 e e.len fun s f =>
    let ts := floatType (e.xop.toNat % 4)
    let b := s.srcB f e false ts
    let r := fpToInt f.ftz ts (minOf e.ty) (maxOf e.ty) e.rnd (element ts (code32 b) (e.xop.toNat / 4 % 2))
    .ok { f.setD e e.ty.wide ⟨ofInt e.ty r.1, b.poison⟩ with flags := if b.poison then f.flags else f.flags ||| r.2 }
/-- I2F (R235): Td in XOP[2:0]. -/
def execI2f (e : Ext) (s : State) : Host.Outcome State Fault Refusal :=
  s.vec 0x1F 2 e e.len fun s f =>
    let b := s.srcB f e e.ty.wide e.ty
    .ok (f.setF e b.poison (fpOfInt f.ftz (floatType (e.xop.toNat % 8)) e.rnd e.sat (intOf e.ty b.val)))

/-- A word with the two elements from 2k up replaced (R236). -/
def packPair (ty : OpType) (old k lo hi : Nat) : Nat :=
  let w := ty.width
  let o := 2 * k * w
  old % 2 ^ o + (lo % 2 ^ w + hi % 2 ^ w * 2 ^ w) * 2 ^ o + old / 2 ^ (o + 2 * w) * 2 ^ (o + 2 * w)

/-- FPACK (R236): Td in XOP[2:0], k in XOP[5:3]; D is read. -/
def execFpack (e : Ext) (s : State) : Host.Outcome State Fault Refusal :=
  s.vec 0x1F 3 e e.len fun s f =>
    let td := floatType (e.xop.toNat % 8)
    let a := s.srcA f e false
    let b := s.srcB f e false .f32
    let d := f.v e.d.toNat
    let x := fpConvert f.ftz .f32 td e.rnd e.sat (code32 a)
    let y := fpConvert f.ftz .f32 td e.rnd e.sat (code32 b)
    let r := packPair td d.val.toNat (e.xop.toNat / 8 % 8) x.1 y.1
    -- an element computed from a poisoned one sets no flag (R147)
    let fl := (if a.poison then 0 else x.2) ||| (if b.poison then 0 else y.2)
    .ok { f.setV e.d.toNat ⟨BitVec.ofNat 32 r, a.poison || b.poison || d.poison⟩ with flags := f.flags ||| fl }

end Sys2Proof.Machine
end

