-- ==== Sys2Proof/Machine/Lane.lean ====
section
/-! DEFINITION. The lane instructions, majors 0x14 and 0x15, over the active fibres of one wave (R217 to R223, R150). -/

namespace Sys2Proof.Machine

/-- The fibre on a gang lane among those of a list. -/
def State.onLane (s : State) (us : List Nat) (l : Nat) : Option Fibre := (us.map s.fibre).find? fun f => f.lane == l

/-- An instruction that acts in each active fibre and reads the others. -/
def State.lanes (s : State) (major minor : Nat) (e : Ext) (g : List Nat → State → Fibre → Except Trap Fibre) :
    Host.Outcome State Fault Refusal := s.issue (issueOf major minor e e.len) fun t us => eachFibre (g us) t us

/-! ### Shuffles -/

/-- The source lane of SHFL (R218); none where it is out of range. -/
def shflLane (mode l n : Nat) : Option Nat :=
  match mode with
  | 0 => some n
  | 1 => if n ≤ l then some (l - n) else none
  | 2 => some (l + n)
  | _ => some (l ^^^ n)

/-- POISON_USE for a poisoned B operand (R105, R511). -/
def State.poisonB (s : State) (f : Fibre) (e : Ext) : Option Trap :=
  match e.bk.toNat with
  | 0 => s.poisonUse f [⟨false, e.b.toNat, 1, true, false⟩]
  | 1 => s.poisonUse f [⟨true, e.b.toNat, 1, true, false⟩]
  | _ => none

/-- Write pD only where PDV is 1. -/
def Fibre.setPd (f : Fibre) (e : Ext) (b : Bool) : Fibre := if e.pdv then f.setPred e.pd.toNat b else f

/-- SHFL (R218). DEDUCED (notes/assumptions/79.md): b is a lane number of 32 bits under every TYPE. -/
def execShfl (e : Ext) (s : State) : Host.Outcome State Fault Refusal :=
  s.lanes 0x14 0 e fun us s f =>
    match s.poisonB f e with
    | some t => .error t
    | none =>
      let n := s.countB f e
      match (shflLane (e.xop.toNat % 4) f.lane n).bind fun m => if m ≤ 63 then s.onLane us m else none with
      | some g => .ok ((f.setD e e.ty.wide (g.vSrc e.a.toNat e.ty.wide)).setPd e true)
      | none => .ok ((f.setD e e.ty.wide (f.vSrc e.a.toNat e.ty.wide)).setPd e false)

/-! ### Votes -/

/-- The values of pC over the active fibres. -/
def State.votes (s : State) (us : List Nat) (e : Ext) : List Bool := us.map fun u => (s.fibre u).pred e.c.toNat

/-- VOTE (R219). -/
def execVote (e : Ext) (s : State) : Host.Outcome State Fault Refusal :=
  s.lanes 0x14 1 e fun us s f =>
    let vs := s.votes us e
    let r := match e.xop.toNat % 4 with
      | 0 => vs.all id
      | 1 => vs.any id
      | _ => vs.all id || !vs.any id
    .ok (f.setPred e.pd.toNat r)

/-- The mask of the active lanes that satisfy a condition. -/
def State.laneMask (s : State) (us : List Nat) (p : Fibre → Bool) : DWord :=
  us.foldl (fun m u => if p (s.fibre u) then m ||| (1#64 <<< (s.fibre u).lane) else m) 0

/-- BALLOT: once per wave into an s-register, or in every active fibre into a pair (R219). -/
def execBallot (e : Ext) (s : State) : Host.Outcome State Fault Refusal :=
  s.issue (issueOf 0x14 2 e e.len) (oncePerWave fun s f us =>
    .ok (s.setDest us f e true ⟨s.laneMask us fun g => g.pred e.c.toNat, false⟩, []))

/-- MATCH (R220). -/
def execMatchLanes (e : Ext) (s : State) : Host.Outcome State Fault Refusal :=
  s.lanes 0x14 3 e fun us s f =>
    let a (g : Fibre) : PDWord := g.vSrc e.a.toNat e.ty.wide
    if e.pdv && (a f).poison then
      match s.poisonUse f (usesOf 0x14 3 e) with
      | some t => .error t
      | none => .ok f
    else
      let poison := us.any fun u => (a (s.fibre u)).poison
      let m := s.laneMask us fun g => (a g).val == (a f).val
      .ok ((f.setPair e.d.toNat ⟨m, poison⟩).setPd e (m == s.laneMask us fun _ => true))

/-- RDLANE: a fibre of the wave on the lane, whatever its guard (R221). -/
def execRdlane (e : Ext) (s : State) : Host.Outcome State Fault Refusal :=
  s.once 0x14 4 e e.len fun s f us =>
    match s.poisonB f e with
    | some t => .error (.trap t)
    | none =>
      let n := (s.srcB f e true .b64).val.toNat
      let r := if n ≤ 63 then s.onLane s.cur n else none
      let x := match r with | some g => g.vSrc e.a.toNat e.ty.wide | none => ⟨0, false⟩
      let s := s.setS f.groupId e.d.toNat x
      .ok (if e.pdv then s.setPredAll us e.pd.toNat r.isSome else s, [])

/-- WRLANE (R221). -/
def execWrlane (e : Ext) (s : State) : Host.Outcome State Fault Refusal :=
  s.once 0x14 5 e e.len fun s f us =>
    match s.poisonB f e with
    | some t => .error (.trap t)
    | none =>
      let n := (s.srcB f e true .b64).val.toNat
      match if n ≤ 63 then s.onLane us n else none with
      | some g => .ok (s.updFibre g.uid fun x => x.setD e e.ty.wide (s.srcA f e true), [])
      | none => .ok (s, [])

/-! ### Reduction and scan (R150, R222, R223) -/

/-- Identity(op) (R150) at a type, as a code. -/
def redIdentity (ty : OpType) (op : Nat) : Nat :=
  let w := ty.width
  if ty.isFloat then
    let fm := OpTypeFmt ty
    match op with
    | 0 => fm.signed true 0
    | 1 => fm.infCode
    | _ => fm.signed true fm.infCode
  else
    match op with
    | 0 | 4 | 5 => 0
    | 1 => if ty.signed then 2 ^ (w - 1) - 1 else 2 ^ w - 1
    | 2 => if ty.signed then 2 ^ (w - 1) else 0
    | _ => 2 ^ w - 1

/-- Combine(op) at a type, on codes. -/
def redCombine (ty : OpType) (op a b : Nat) : Nat :=
  if ty.isFloat then fpCombine ty op a b
  else
    let n (x : Nat) : Int := intOf ty (BitVec.ofNat 64 x)
    match op with
    | 0 => (a + b) % 2 ^ ty.width
    | 1 => if n b < n a then b else a
    | 2 => if n a < n b then b else a
    | 3 => a &&& b
    | 4 => a ||| b
    | _ => a ^^^ b

/-- TreeNode (R223). -/
def treeNode (comb : Nat → Nat → Nat) (a : Nat → Nat) : Nat → Nat → Nat
  | 0, i => a i
  | l + 1, i => comb (treeNode comb a l (2 * i)) (treeNode comb a l (2 * i + 1))

/-- Prefix (R223) over levels `l − 1` down to 0 from the value `x`. -/
def prefixFrom (comb : Nat → Nat → Nat) (a : Nat → Nat) (n x : Nat) : Nat → Nat
  | 0 => x
  | l + 1 => prefixFrom comb a n (if n.testBit l then comb x (treeNode comb a l (n / 2 ^ l - 1)) else x) l

/-- The elements that a type packs into an operand of REDUCE and SCAN. -/
def redElems (ty : OpType) : Nat := if ty.width = 16 then 2 else 1

/-- Lane L's element `i`, or the identity for an inactive lane. -/
def State.laneValue (s : State) (us : List Nat) (e : Ext) (i l : Nat) : Nat :=
  match s.onLane us l with
  | some f => lowBits e.ty.width ((f.vSrc e.a.toNat e.ty.wide).val >>> (16 * i))
  | none => redIdentity e.ty (e.xop.toNat % 8)

/-- Elements computed each on its own and packed. -/
def packElems (ty : OpType) (g : Nat → Nat) : Nat := if redElems ty = 2 then g 0 + g 1 * 2 ^ 16 else g 0

/-- A contributing active lane is poisoned. -/
def State.lanesPoisoned (s : State) (us : List Nat) (e : Ext) : Bool := us.any fun u => ((s.fibre u).vSrc e.a.toNat e.ty.wide).poison

/-- REDUCE (R222). -/
def execReduce (e : Ext) (s : State) : Host.Outcome State Fault Refusal :=
  s.once 0x15 0 e e.len fun s f us =>
    let op := e.xop.toNat % 8
    let r := packElems e.ty fun i => treeNode (redCombine e.ty op) (s.laneValue us e i) 6 0
    let x := if e.ty = .s32 then ofInt .s32 r else BitVec.ofNat 64 r
    .ok (s.setS f.groupId e.d.toNat ⟨x, s.lanesPoisoned us e⟩, [])

/-- SCAN (R223): the lanes below L, and under the inclusive form L too. -/
def execScan (e : Ext) (s : State) : Host.Outcome State Fault Refusal :=
  s.lanes 0x15 1 e fun us s f =>
    let op := e.xop.toNat % 8
    let excl := e.xop.getLsbD 3
    let n := if excl then f.lane else f.lane + 1
    let comb := redCombine e.ty op
    let r := packElems e.ty fun i => prefixFrom comb (s.laneValue us e i) n (redIdentity e.ty op) 7
    -- poison follows the lanes that contribute (R105)
    let poison := us.any fun u => decide ((s.fibre u).lane < n) && ((s.fibre u).vSrc e.a.toNat e.ty.wide).poison
    .ok (f.setD e e.ty.wide ⟨BitVec.ofNat 64 r, poison⟩)

end Sys2Proof.Machine
end

