-- ==== Sys2Proof/Machine/Sign.lean ====
section
/-! DEFINITION. Signatures and journals of replicated fibres (R363, R364, R367). -/

namespace Sys2Proof.Machine

/-! ### Signatures -/

/-- One step of the CRC-64 of R363: the most significant bit leaves. -/
def crcBit (c : Nat) : Nat := if c / 2 ^ 63 % 2 = 1 then (c * 2 % 2 ^ 64) ^^^ 0x42F0E1EBA9EA3693 else c * 2 % 2 ^ 64

/-- Fold one byte, most significant bit first. -/
def crcByte (c : Nat) (b : Nat) : Nat := crcBit (crcBit (crcBit (crcBit (crcBit (crcBit (crcBit (crcBit (c ^^^ b * 2 ^ 56))))))))

/-- Fold the 32 bytes of a record in ascending order (R363). -/
def crcFold (c rec : Nat) : Nat → Nat
  | 0 => c
  | n + 1 => crcFold (crcByte c (rec % 256)) (rec / 256) n

/-- Fold a record, given as a number of 256 bits, into a fibre's signature. -/
def Fibre.fold (f : Fibre) (rec : Nat) : Fibre := { f with sig := BitVec.ofNat 64 (crcFold f.sig.toNat rec 32) }

/-- An aligned 16-byte piece of a write: its address, its byte mask, and its data, zero where unmasked (R364, R367). -/
structure Chunk where
  base : Nat
  mask : Nat
  data : Nat
  deriving DecidableEq, Repr

/-- The 16-byte pieces that a write of bytes at an address covers, in ascending address. -/
def chunksOf (ea : Nat) (d : List Byte) : List Chunk :=
  let first := ea / 16
  let last := (ea + d.length - 1) / 16
  (List.range (last + 1 - first)).map fun i =>
    let base := (first + i) * 16
    let at_ (k : Nat) : Option Nat := if ea ≤ base + k ∧ base + k < ea + d.length then some (d.getD (base + k - ea) 0).toNat else none
    { base := base, mask := (List.range 16).foldl (fun m k => if (at_ k).isSome then m + 2 ^ k else m) 0
      data := (List.range 16).foldl (fun m k => m + (at_ k).getD 0 * 2 ^ (8 * k)) 0 }

/-- The number of bytes in a mask. -/
def maskCount (m : Nat) : Nat := (List.range 16).foldl (fun n k => if m.testBit k then n + 1 else n) 0

/-- The kind-1 record of a piece (R364). -/
def Chunk.record (c : Chunk) : Nat := c.base % 2 ^ 64 + 2 ^ 64 + maskCount c.mask * 2 ^ 72 + c.mask * 2 ^ 80 + c.data * 2 ^ 128

/-- Sign a write (R364): one record per piece. -/
def Fibre.signStore (f : Fibre) (ea : Nat) (d : List Byte) : Fibre := (chunksOf ea d).foldl (fun f c => f.fold c.record) f

/-- The kind-2 record of an atomic: address, size, code, operand, returned value (R364). -/
def atomicRecord (ea size code x old : Nat) : Nat :=
  ea % 2 ^ 64 + 2 * 2 ^ 64 + size * 2 ^ 72 + code * 2 ^ 80 + x % 2 ^ 64 * 2 ^ 128 + old % 2 ^ 64 * 2 ^ 192

/-- The kind-4 record (R364). -/
def extensionRecord (x : Nat) : Nat := 4 * 2 ^ 64 + x % 2 ^ 64 * 2 ^ 128

/-! ### Journals (R367) -/

/-- A journal's entries per fibre, and the pool of a core. -/
def journalMax : Nat := 64
def journalPool : Nat := 8192

/-- A fibre's journal, or the pool of its core with `taken` entries about to be used, has no room for `n` more. -/
def State.journalFull (s : State) (f : Fibre) (n taken : Nat) : Bool :=
  journalMax < f.journal.length + n ||
  journalPool < (s.fibres.foldl (fun k g => if g.part == f.part && g.onCore == f.onCore && g.live then k + g.journal.length else k) 0) + taken + n

/-- Put a write into the journal; `loc` is the place of the first byte. -/
def Fibre.journalPut (f : Fibre) (ea : Nat) (loc : Loc) (d : List Byte) (irrev : Bool) : Fibre :=
  { f with journal := f.journal ++ (chunksOf ea d).map fun c =>
      { va := c.base, loc := { loc with key := loc.key + c.base - ea }, mask := BitVec.ofNat 16 c.mask, data := leBytes 16 c.data, irrev := irrev, tag := f.tag } }

/-- The byte that the youngest journal entry holds at an address. -/
def journalByte (j : List JEntry) (va : Nat) : Option Byte :=
  (j.reverse.find? fun x => x.va == va / 16 * 16 && x.mask.getLsbD (va % 16)).map fun x => x.data.getD (va % 16) 0

/-- The journal holds every byte of a range: no mark of memory reaches the load (R367). -/
def Fibre.journalled (f : Fibre) (va n : Nat) : Bool := !f.journal.isEmpty && (List.range n).all fun i => (journalByte f.journal (va + i)).isSome

/-- Bytes as a load of the replica sees them. -/
def Fibre.overlay (f : Fibre) (va : Nat) (d : List Byte) : List Byte :=
  if f.journal = [] then d else (d.zip (List.range d.length)).map fun (b, i) => (journalByte f.journal (va + i)).getD b

/-- A write at a place that belongs to a peer device (R110): performed at the peer, which acknowledges it. -/
def State.peerWrite (s : State) (uid part f : Nat) (l : Loc) (d : List Byte) : State :=
  let w : PeerWrite := { uid := uid, also := [], key := l.key, old := s.bytes l.key d.length, since := s.clock }
  let s := (s.homeWrite part f l d).updFibre uid fun x => { x with peerUnacked := x.peerUnacked + 1 }
  ({ s with peerWrites := s.peerWrites ++ [w] }.timer (s.clock + 10 * clocksPerMs) (.cxlCompletionTimeout 4 (l.key / 128))).post (.peerWriteAck uid)

/-- The place is peer memory (R110). -/
def isPeer (l : Loc) : Bool := isHostKey l.key && Config.peerLine (l.key / 128)

/-- A plain store of a fibre at a place, by its window and page attributes (R77, R110, R116). -/
def State.storeAt (s : State) (f : Fibre) (l : Loc) (d : List Byte) : State :=
  if isPeer l then s.peerWrite f.uid f.part f.tag l d
  else if l.cached then s.cachedStore f.uid f.part (s.coreOf f) f.tag l d
  else s.homeWrite f.part f.tag l d

/-- Perform a fibre's journal as plain stores, in program order, each under the tag that it was made with (R118, R367). -/
def State.performJournal (s : State) (uid : Nat) : State :=
  let f := s.fibre uid
  let s := f.journal.foldl (fun s x => (List.range 16).foldl (fun s k =>
    if x.mask.getLsbD k then s.storeAt { f with tag := x.tag } { x.loc with key := x.loc.key + k } [x.data.getD k 0] else s) s) s
  s.updFibre uid fun f => { f with journal := [] }

end Sys2Proof.Machine
end

