-- ==== Sys2Proof/Machine/MemOps.lean ====
section
/-! DEFINITION. Memory instructions of majors 0x20 to 0x26, 0x37 and 0x12 (R215, R238 to R255, R264, R265), and the events of the caches: loads
that return, registrations and their acknowledgements, fills (R77 to R81, R107, R124). -/

namespace Sys2Proof.Machine

/-! ### Checking the accesses of a wave (R241) -/

/-- An access of one fibre that has passed the checks: its index among the fibre's accesses, and its pieces. -/
structure Placed where
  uid : Nat
  idx : Nat
  ea : Nat
  n : Nat
  pieces : List Piece
  deriving Repr

/-- The accesses of one fibre, in order; the index of the first failing one goes with the stop. -/
def State.placeList (s : State) (f : Fibre) (i : Nat) : List Acc → Except (Stop × Nat) (List Placed × List Nat)
  | [] => .ok ([], [])
  | a :: r =>
    match s.place f a with
    | .error st => .error (st, i)
    | .ok (ps, ws) =>
      match s.placeList f (i + 1) r with
      | .error x => .error x
      | .ok (xs, ws') => .ok ({ uid := f.uid, idx := i, ea := a.ea, n := a.n, pieces := ps } :: xs, ws ++ ws')

/-- How a multi-destination instruction reports a failure at destination `j` (R253, R477). -/
def multiDest (st : Stop) (j : Nat) : Stop :=
  match st with
  | .trap t =>
    if t.cause = cPagePerm ∧ (t.detail / 256 = 0 ∧ (t.detail % 8 / 2 % 2 = 1 ∨ 8 ≤ t.detail) ∨ t.detail / 256 = 2) then
      .trap { t with cause := cMultiDest, detail := j }
    else if t.cause = cFutureIrrev then .trap { t with detail2 := j } else st
  | .wait .. | .service .. | .wake .. | .hostLine .. | .fault _ => st

/-- Check every access of the active fibres, in ascending lane: poison, then each access in turn (R241). -/
def State.placeAll (s : State) (uses : List RegUse) (accs : Fibre → List Acc) (multi : Bool) : List Nat → Except Stop (List Placed × List Nat)
  | [] => .ok ([], [])
  | u :: r =>
    let f := s.fibre u
    match s.poisonUse f uses with
    | some t => .error (.trap t)
    | none =>
      match s.placeList f 0 (accs f) with
      | .error (st, j) => .error (if multi then multiDest st j else st)
      | .ok (ps, ws) =>
        match s.placeAll uses accs multi r with
        | .error st => .error st
        | .ok (qs, ws') => .ok (ps ++ qs, ws ++ ws')

/-- Check the accesses, keep the translations, and go on. -/
def withAccesses (uses : List RegUse) (accs : State → Fibre → List Acc) (multi : Bool)
    (k : State → List Nat → List Placed → Except Stop (State × List Nat)) : Body := fun s us =>
  match s.placeAll uses (accs s) multi us with
  | .error st => .error st
  | .ok (ps, ws) => k (s.keepWalks (s.fibre (us.headD 0)) ws) us ps

/-- The size of a single access (R239). -/
def accessSize (ty : OpType) : Nat := ty.width / 8

/-- Bytes of an LD, LDP or ST: one element, or 4C (R239). -/
def accessBytes (e : Ext) : Nat := if e.c = 0 then accessSize e.ty else 4 * e.c.toNat

/-- The address of a fibre's memory operand. -/
def State.ea (s : State) (f : Fibre) (e : Ext) : Nat := (s.address f e).val.toNat

/-- The access of ST and the like at the effective address. -/
def accOf (e : Ext) (n kind : Nat) (s : State) (f : Fibre) : List Acc :=
  [{ ea := s.ea f e, n := n, form := e.win, acc := kind, irrev := e.irrev, align := alignOf n }]

/-- A fibre runs in a replicated pipeline. -/
def State.replicatedFibre (s : State) (f : Fibre) : Bool := (s.pipeOf f).replicated

/-- The access of a load at the effective address; an acquire of a replicated fibre is answered at once (R370), and so waits for its line first. -/
def loadAccs (e : Ext) (n : Nat) (s : State) (f : Fibre) : List Acc :=
  (accOf e n 1 s f).map fun a => { a with later := !(e.sync = 1 && s.replicatedFibre f) }

/-- An active fibre's address lies in global or private memory, which replicas share. -/
def State.anyShared (s : State) (e : Ext) : Bool :=
  (s.wave.filter fun f => f.guard e).any fun f =>
    let w := if e.win = 0 then windowOf (s.ea f e) else e.win
    w == 1 || w == 4

/-! ### Loads (R242) -/

/-- A loaded element as a register holds it (R239). -/
def loaded (ty : OpType) (d : List Byte) : Word :=
  let x := ofLeBytes d
  match ty with
  | .s8 => (BitVec.ofNat 8 x).signExtend 32
  | .s16 => (BitVec.ofNat 16 x).signExtend 32
  | .f32 | .f16 | .bf16 | .e4m3 | .e5m2 | .e2m1 | .b32 | .b64 | .s32 | .s64 | .n8 | .n16 | .n32 | .n64 => BitVec.ofNat 32 x

/-- The answer to a piece that needs no request: a window, peer memory, or a hit in the L1. -/
def State.readNow (s : State) (f : Fibre) (l : Loc) (win n : Nat) (wide : Bool) : Option (List Byte × Bool) :=
  if win = 2 ∨ win = 3 ∨ isPeer l then some (s.bytes l.key n, s.memPoison l.key)
  else s.l1Hit f.part (s.coreOf f) f.tag l n wide

/-- The answer to a piece from its home slice, and the fill (R79). A load of an uncached page never gets poison on account of a race (R104); where
it has been told of a write that the core's L1 lacks, an older clean copy there goes (R103). -/
def State.readHome (s : State) (f : Fibre) (l : Loc) (n : Nat) (acq : Bool) : List Byte × Bool × State :=
  let t := (s.readCopy f.part f.tag l).1
  let core := s.coreOf f
  let (w, p, s) := s.serveWord core t l.key l.grain acq (s.replicatedFibre f || !l.cached)
  let s := if l.cached && !p then s.fillSector core t l.key l.grain else s.dropWord core t l.key
  (((leBytes 4 w.toNat).drop (l.key % 4)).take n, p, s)

/-- Write one loaded element: the replica's own journalled bytes lie over it, and where they are all of it no mark of memory reaches it (R367). -/
def State.giveElem (s : State) (uid : Nat) (ty : OpType) (x : LoadElem) (d : List Byte) (poison : Bool) : State :=
  s.updFibre uid fun f => if f.live then f.setV x.reg ⟨loaded ty (f.overlay x.va d), poison && !f.journalled x.va x.n⟩ else f

/-- The value of an s-register load from its elements' bytes (R215). -/
def scalarLoaded (ty : OpType) (d : List Byte) : DWord := ofInt ty (intOf ty (BitVec.ofNat 64 (ofLeBytes d)))

/-- Fibres that wait for a result issue their instruction again. -/
def State.retryPending (s : State) (part : Nat) : State := s.mapFibres fun f => if f.part == part && f.wait == .pending then f.retry else f

/-- The aligned piece of a load that is single-copy atomic: 16 bytes, of host and peer memory 8 (R106). -/
def atomicPiece (x : Piece) : Nat := x.va / (if isHostKey x.loc.key then 8 else 16)

/-- The answers at hand to the pieces of a load: a piece that is single-copy atomic is answered at once as a whole or asked for as a whole, so that
no older word of an L1 stands beside a newer one (R106). -/
def State.atHand (s : State) (f : Fibre) (wide : Bool) (ps : List Piece) : List (Option (List Byte × Bool)) :=
  let now := ps.map fun x => (x, s.readNow f x.loc x.win x.n wide)
  now.map fun x => if now.all fun y => atomicPiece y.1 != atomicPiece x.1 || y.2.isSome then x.2 else none

/-- One placed access of a load: the elements at hand are written, the others asked for. -/
def State.loadOne (s : State) (e : Ext) (acq sync : Bool) (p : Placed) : State :=
  let f := s.fibre p.uid
  let els := (p.pieces.zip (s.atHand f (acq && !s.coreScope f e.scope) p.pieces)).zip (List.range p.pieces.length)
  let (s, later) := els.foldl (fun (acc : State × List LoadElem) (x, i) =>
    let l : LoadElem := { reg := e.d.toNat + i, loc := x.1.loc, n := x.1.n, va := x.1.va }
    match x.2 with
    | some (d, po) => (acc.1.giveElem p.uid e.ty l d po, acc.2)
    | none =>
      if sync then
        let (d, po, s) := acc.1.readHome f l.loc l.n acq
        (s.giveElem p.uid e.ty l d po, acc.2)
      else (acc.1, acc.2 ++ [l])) (s, [])
  if later = [] then (if acq then s.acquire f e.scope else s)
  else
    let (id, s) := s.fresh
    let r : LoadReq := { id := id, uid := p.uid, core := s.coreOf f, tag := f.tag, acq := acq, inval := acq && !s.coreScope f e.scope, us := [p.uid]
                         elems := later, sreg := false, ty := e.ty, grp := f.cur, cancelled := false }
    let s := { s with loads := s.loads ++ [r], pendV := s.pendV ++ later.map fun (l : LoadElem) => (p.uid, l.reg) }
    (s.askLines p.uid (later.map fun l => l.loc)).post (.loadResponse id)

/-- VERSION_FULL of an access to a line (R124, R478). -/
def versionFull (ea line : Nat) : Trap := { cause := cVersionFull, addr := ea, detail := vacSlice line + vacSet line * 2 ^ 16 }

/-- A way for every line that the loads of a fibre bring into the VAC: what an L1 or an owner answers, and an uncached page of host memory, need
none (R77, R79, R124). -/
def State.reserveReads (s : State) (f : Fibre) (ea : Nat) (wide : Bool) : List Piece → Except Trap State
  | [] => .ok s
  | p :: r =>
    let t := (s.readCopy f.part f.tag p.loc).1
    if (s.readNow f p.loc p.win p.n wide).isSome || (isHostKey p.loc.key && !p.loc.cached) || (s.owner t p.loc.key p.loc.grain).isSome then
      s.reserveReads f ea wide r
    else
      match s.readWay t (p.loc.key / 128 * 128) with
      | none => .error (versionFull ea (p.loc.key / 128 * 128))
      | some s => s.reserveReads f ea wide r

/-- Ways for the lines that every placed load brings in. -/
def State.reserveLoads (s : State) (wide : Fibre → Bool) : List Placed → Except Stop State
  | [] => .ok s
  | p :: r =>
    match s.reserveReads (s.fibre p.uid) p.ea (wide (s.fibre p.uid)) p.pieces with
    | .error t => .error (.trap t)
    | .ok s => s.reserveLoads wide r

/-- The reads of an address operand, of D and of C, for the poison check. -/
def addrUses (e : Ext) : List RegUse := slotUse baseSlot e.ak e.a true false e ++ bSlotUse indexSlot e

/-- A follower's part in an acquire that its leader performs (R370). -/
def takeAcquire (e : Ext) (s : State) (f : Fibre) (_ : Fwd) : State := s.acquire f e.scope

/-- LD. -/
def execLd (e : Ext) (s : State) : Host.Outcome State Fault Refusal :=
  let acq := e.sync = 1
  s.issue { issueOf 0x20 0 e e.len with once := acq, take := takeAcquire e }
    (withAccesses (addrUses e) (loadAccs e (accessBytes e)) false fun s us ps =>
      let sync := acq && s.replicatedFibre (s.fibre (us.headD 0))
      match s.reserveLoads (fun f => acq && !s.coreScope f e.scope) ps with
      | .error st => .error st
      | .ok s => .ok (ps.foldl (fun s p => s.loadOne e acq sync p) s, []))

/-- Some elements of a load return from their home slices (R79); with the last of them an acquire invalidates (R81). Without `fill` no L1 keeps what
they bring (R107). -/
def State.answerLoad (s : State) (r : LoadReq) (xs : List LoadElem) (fill : Bool) : State :=
  let f := { s.fibre r.uid with tag := r.tag }
  let (s, got) := xs.foldl (fun (acc : State × List (LoadElem × List Byte × Bool)) x =>
    let (d, p, t) := acc.1.readHome f x.loc x.n r.acq
    let t := if fill then t else t.dropClean (t.readCopy f.part f.tag x.loc).1 x.loc.key
    (t, acc.2 ++ [(x, f.overlay x.va d, p && !f.journalled x.va x.n)])) (s, [])
  let reg := (r.elems.headD ⟨0, ⟨0, false, false, 0⟩, 0, 0⟩).reg
  let s := if r.sreg then
      let s := s.setS ⟨f.part, r.grp, f.repl⟩ reg ⟨scalarLoaded r.ty (got.flatMap fun x => x.2.1), got.any fun x => x.2.2⟩
      s.updGroup ⟨f.part, r.grp, f.repl⟩ fun g => { g with pend := g.pend.filter fun x => x != (reg, none) }
    else got.foldl (fun s (x, d, p) => s.giveElem r.uid r.ty x d p) s
  let s := { s with pendV := s.pendV.filter fun x => !(x.1 == r.uid && xs.any fun l => l.reg == x.2 && !r.sreg) }
  let left := r.elems.filter fun x => !xs.contains x
  let s := if left.isEmpty then { s with loads := s.loads.filter fun x => x.id != r.id }
    else { s with loads := mapIf (fun x => x.id == r.id) (fun x => { x with elems := left }) s.loads }
  let s := if r.inval && left.isEmpty then s.selfInval r.core else s
  s.retryPending f.part

/-- LOAD_RESPONSE: the elements of a load return, or it asks for the host lines that the VAC does not hold (R79, R431). -/
def execLoadResponse (req : Nat) (s : State) : Host.Outcome State Fault Refusal :=
  match s.loads.find? fun r => r.id == req with
  | none => .next s
  | some r =>
    if r.cancelled then .next { s with loads := s.loads.filter fun x => x.id != req }
    else if r.elems.any fun x => x.loc.cached && (s.hostLineStop x.loc.key false).isSome then .next (s.askLines r.uid (r.elems.map fun x => x.loc))
    else .next (s.answerLoad r r.elems true)

/-- The pieces of an access whose pages are absent: the translation alone (R244). DEDUCED (notes/assumptions/74.md): while LOG2B is invalid every
page that no TLB holds is absent here, so LDP gives zeros and a clear bit. -/
def State.absentAt (s : State) (f : Fibre) (win o n : Nat) : List Nat :=
  if win = 1 ∨ win = 4 then
    (List.range ((n + 3) / 4)).filter fun i =>
      let g := s.globalOf f win (o + 4 * i)
      (s.cachedPte f.part f.onCore g).isNone && (s.walk f.part g).isNone
  else []

/-- The pieces of an LDP of a fibre that are absent; none where it traps at the alignment or the window. -/
def State.ldpAbsent (s : State) (f : Fibre) (e : Ext) : List Nat :=
  let ea := s.ea f e
  let n := accessBytes e
  if ea % alignOf n ≠ 0 then []
  else
    match decodeWindow ea n e.win with
    | .error _ => []
    | .ok (w, o) => s.absentAt f w o n

/-- The access of an LDP: pages that are absent are not checked, every other one as for LD (R244). -/
def ldpAccs (e : Ext) (s : State) (f : Fibre) : List Acc := (loadAccs e (accessBytes e) s f).map fun a => { a with skip := s.ldpAbsent f e }

/-- LDP: zeros and a clear predicate where a page is absent (R244). -/
def execLdp (e : Ext) (s : State) : Host.Outcome State Fault Refusal :=
  let n := accessBytes e
  s.issue (issueOf 0x20 1 e e.len)
    (withAccesses (addrUses e) (ldpAccs e) false fun s us ps =>
      let present := ps.filter fun p => s.ldpAbsent (s.fibre p.uid) e = []
      match s.reserveLoads (fun _ => false) present with
      | .error st => .error st
      | .ok s =>
        let s := us.foldl (fun s u =>
          if (present.any fun p => p.uid == u) then s.setPd u e true
          else (s.updFibre u fun f => f.setRange e.d.toNat (List.replicate (max 1 (n / 4)) zeroWord)).setPd u e false) s
        .ok (present.foldl (fun s p => s.loadOne e false false p) s, []))

/-- One scalar load, in the program order of the fibres `us` (R240). -/
def State.sldOne (s : State) (e : Ext) (acq sync : Bool) (us : List Nat) (p : Placed) : State :=
  let f := s.fibre p.uid
  let els := p.pieces.map fun x => ({ reg := e.d.toNat, loc := x.loc, n := x.n, va := x.va } : LoadElem)
  let now := p.pieces.map fun x => s.readNow f x.loc x.win x.n (acq && !s.coreScope f e.scope)
  if now.all Option.isSome then
    let got := now.filterMap id
    let d := f.overlay ((els.headD ⟨0, ⟨0, false, false, 0⟩, 0, 0⟩).va) (got.flatMap fun x => x.1)
    let s := s.setS f.groupId e.d.toNat ⟨scalarLoaded e.ty d, (els.zip got).any fun x => x.2.2 && !f.journalled x.1.va x.1.n⟩
    if acq then s.acquire f e.scope else s
  else if sync then
    let (s, got) := els.foldl (fun (acc : State × List (List Byte × Bool)) x =>
      let (d, po, s) := acc.1.readHome f x.loc x.n acq
      (s, acc.2 ++ [(f.overlay x.va d, po && !f.journalled x.va x.n)])) (s, [])
    let s := s.setS f.groupId e.d.toNat ⟨scalarLoaded e.ty (got.flatMap fun x => x.1), got.any fun x => x.2⟩
    if acq then s.acquire f e.scope else s
  else
    let (id, s) := s.fresh
    let r : LoadReq := { id := id, uid := p.uid, core := s.coreOf f, tag := f.tag, acq := acq, inval := acq && !s.coreScope f e.scope, us := us
                         elems := els, sreg := true, ty := e.ty, grp := f.cur, cancelled := false }
    let s := ({ s with loads := s.loads ++ [r] }).updGroup f.groupId fun g => { g with pend := g.pend ++ [(e.d.toNat, none)] }
    (s.askLines p.uid (els.map fun l => l.loc)).post (.loadResponse id)

/-- SLD: once for the wave (R215, R216). SLD.ACQ is performed once, so a comparison point, which R365 excepts for LD.ACQ alone. -/
def execSld (e : Ext) (s : State) : Host.Outcome State Fault Refusal :=
  let acq := e.sync = 1
  s.issue { issueOf 0x12 0 e e.len with compare := acq, once := acq, take := takeAcquire e } fun s all =>
    withAccesses (addrUses e) (loadAccs e (accessSize e.ty)) false (fun s us ps =>
      let sync := acq && s.replicatedFibre (s.fibre (us.headD 0))
      match s.reserveLoads (fun f => acq && !s.coreScope f e.scope) ps with
      | .error st => .error st
      | .ok s => .ok (ps.foldl (fun s p => s.sldOne e acq sync all p) s, [])) s (all.take 1)

/-! ### Transaction barriers (R90, R91) -/

/-- The counts of a barrier: SECTORS, ARRIVE, PHASE. -/
structure Txb where
  sectors : Nat
  arrive : Nat
  phase : Nat
  deriving DecidableEq, Repr

/-- Both counts are zero. -/
def Txb.idle (t : Txb) : Bool := t.sectors == 0 && t.arrive == 0

/-- The barrier at a scratchpad key. -/
def State.txbAt (s : State) (key : Nat) : Txb :=
  let x := s.readNat key 16
  { sectors := bits x 20 32, arrive := bits x 4 16, phase := bits x 0 4 }

/-- An object that an instruction or a copy names is a transaction barrier from then on (notes/assumptions/35.md). -/
def State.nameTxb (s : State) (key : Nat) : State := { s with txbs := addOnce s.txbs key }

/-- The end of an update that found the barrier as `old`: counts that it leaves at zero complete the phase, which releases the fibres that wait
(R91, R263). -/
def State.txbDone (s : State) (key : Nat) (old : Txb) : State :=
  let new := s.txbAt key
  if !new.idle || old.idle then s
  else
    let s := s.setByte key (BitVec.ofNat 8 ((new.phase + 1) % 16))
    let out := s.fibres.filter fun f => f.wait == .txb key
    let s := out.foldl (fun s f => s.acquire f 3) s
    s.updAll (out.map fun f => f.uid) Fibre.continues

/-- One update of a barrier by an instruction or a copy. -/
def State.txbUpdate (s : State) (key : Nat) (g : Txb → Txb) : State :=
  let old := s.txbAt key
  let new := g old
  (((s.nameTxb key).writeNat key 16 (new.phase + new.arrive * 2 ^ 4 + new.sectors * 2 ^ 20))).txbDone key old

/-- The barriers that a plain store of `n` bytes at a key updates. -/
def State.txbsUnder (s : State) (key n : Nat) : List Nat := s.txbs.filter fun k => decide (k < key + n) && decide (key < k + 16)

/-- A plain store to scratchpad, as the update of the barriers that it reaches (R91). -/
def State.txbStore (s : State) (keys : List Nat) (st : State → State) : State :=
  keys.foldl (fun t k => t.txbDone k (s.txbAt k)) (st s)

/-! ### Stores (R243, R251, R252) -/

/-- A way for every version that the stores of a fibre would create; VERSION_FULL where one has none (R124, R478). -/
def State.reserve (s : State) (f : Fibre) (ea : Nat) : List Piece → Except Trap State
  | [] => .ok s
  | p :: r =>
    let t := s.writeTag f.part f.tag
    if p.win ≠ 1 ∨ !p.loc.vers ∨ t = 0 then s.reserve f ea r
    else
      let line := p.loc.key / 128 * 128
      match s.takeWay f.part t line with
      | none => .error (versionFull ea line)
      | some s => s.reserve f ea r

/-- Reserve the ways of every placed access. -/
def State.reserveAll (s : State) : List Placed → Except Stop State
  | [] => .ok s
  | p :: r =>
    match s.reserve (s.fibre p.uid) p.ea p.pieces with
    | .error t => .error (.trap t)
    | .ok s => s.reserveAll r

/-- Bytes and pieces in step. -/
def pairPieces : List Piece → List Byte → List (Piece × List Byte)
  | [], _ => []
  | p :: r, d => (p, d.take p.n) :: pairPieces r (d.drop p.n)

/-- A store that covers a marked granule clears its mark (R464). -/
def State.clearCovered (s : State) (f : Fibre) (ps : List Piece) : State :=
  let copy (p : Piece) : Nat := copyKey (if p.loc.vers then s.writeTag f.part f.tag else 0) p.loc.key
  let ks := ps.map fun p => (copy p, p.n)
  let whole (k : Nat) : Bool :=
    let g := granuleSize k
    (ks.filter fun x => x.1 / g == k / g).foldl (fun n x => n + x.2) 0 == g
  { s with poisoned := s.poisoned.filter fun k => !whole (4 * k)
           l1 := mapIf (fun (w : L1Word) => w.poison && w.core == s.coreOf f && whole (copyKey w.tag w.key)) (fun (w : L1Word) => { w with poison := false }) s.l1 }

/-- One store of a fibre: signed; where it reaches global memory from a replica, a plain store is journalled and a release's own write, which
comes after the agreement, is the leader's alone (R363, R366, R367). -/
def State.storeOne (s : State) (irrev rel : Bool) (p : Placed) (d : List Byte) : State :=
  let s := s.updFibre p.uid fun f => f.signStore p.ea d
  let f := s.fibre p.uid
  match p.pieces with
  | [] => s
  | x :: _ =>
    let shared := s.replicatedFibre f && x.win == 1
    if shared && !rel then s.updFibre p.uid fun f => f.journalPut x.va x.loc d irrev
    else if shared && f.repl != (s.pipeOf f).leader then s
    else
      s.txbStore (if x.win = 2 then s.txbsUnder x.loc.key p.n else []) fun s =>
        ((pairPieces p.pieces d).foldl (fun s (x, b) => s.storeAt f x.loc b) s).clearCovered f p.pieces

/-- Fibres pass a drain comparison point before they go on (R367). -/
def State.drainPoint (s : State) (us : List Nat) : State := us.foldl State.arriveAtPoint (s.updAll us fun f => f.waits .waitMemory .compare)

/-- The fibres of a wave that find no room in their journals, in lane order: those before a fibre take theirs first (R367). -/
def State.noRoom (s : State) (need : Nat → Nat) : Nat → List Nat → List Nat
  | _, [] => []
  | taken, u :: r =>
    let f := s.fibre u
    if s.replicatedFibre f && need u != 0 && s.journalFull f (need u) taken then u :: s.noRoom need taken r
    else s.noRoom need (taken + need u) r

/-- Plain stores wait for room in the journals of a replicated wave: a drain comparison point (R367), for the fibres without room, or, for an
instruction that acts once, for the whole wave. A release's own write takes no room. -/
def withJournal (once : Bool) (e : Ext) (ps : List Placed) (k : State → Except Stop (State × List Nat)) (s : State) (us : List Nat) :
    Except Stop (State × List Nat) :=
  let need (u : Nat) : Nat := if 2 ≤ e.sync then 0 else
    (ps.filter fun p => p.uid == u && p.pieces.any fun x => x.win == 1).foldl (fun n p => n + (chunksOf p.ea (List.replicate p.n 0)).length) 0
  let full := s.noRoom need 0 us
  if full.isEmpty then k s else .ok (s.drainPoint (if once then us else full), us)

/-- The wait before the own write of a release (R80). -/
def releaseWaits (e : Ext) (b : Body) : Body := fun s us =>
  if 2 ≤ e.sync ∧ (us.any fun u => !(s.fibre u).releaseReady e.scope) then .error (.wait .waitMemory .acks) else b s us

/-- The marking of dirty words after the own write of a release (R80). -/
def State.releaseAll (s : State) (e : Ext) (us : List Nat) : State := if e.sync < 2 then s else us.foldl (fun s u => s.release (s.fibre u)) s

/-- Waits before the own write of a release, and its marking of dirty words after it (R80). -/
def releasing (e : Ext) (b : Body) : Body := releaseWaits e fun s us =>
  match b s us with
  | .error st => .error st
  | .ok (s, stay) => .ok (s.releaseAll e us, stay)

/-- A store that is performed once for the wave stands in the program order of every active fibre: what is not yet acknowledged of the fibre `lead`,
and of its writes to peers after the first `n`, is so for each of them (R240). -/
def State.shareAcks (s : State) (lead n : Nat) (us : List Nat) : State :=
  let us := us.filter fun u => u != lead
  let open_ := (s.fibre lead).unacked
  let peers := (s.peerWrites.drop n).length
  { (s.updAll us fun f => { f with unacked := f.unacked ++ open_.filter (fun x => !f.unacked.contains x), peerUnacked := f.peerUnacked + peers }) with
    peerWrites := s.peerWrites.take n ++ (s.peerWrites.drop n).map fun w => { w with also := us } }

/-- The bytes that ST and MST store from v(D) (R239, R243). -/
def Fibre.storeBytes (f : Fibre) (e : Ext) (n : Nat) : List Byte :=
  ((List.range ((n + 3) / 4)).flatMap fun i => leBytes 4 (f.v (e.d.toNat + i)).val.toNat).take n

/-- Perform checked stores; `bytes` gives the data of a fibre. -/
def performStores (once : Bool) (e : Ext) (bytes : State → Fibre → List Byte) (s : State) (us : List Nat) (ps : List Placed) : Except Stop (State × List Nat) :=
  match s.reserveAll ps with
  | .error st => .error st
  | .ok s => withJournal once e ps (fun s => .ok (ps.foldl (fun s p => s.storeOne e.irrev (decide (2 ≤ e.sync)) p (bytes s (s.fibre p.uid))) s, [])) s us

/-- ST. DESIGN CHOICE (notes/assumptions/76.md): a store of a fibre whose tag is COMMITTING meets the checks of R241, FUTURE_IRREV among them,
before it is held (R126, R243). -/
def execSt (e : Ext) (s : State) : Host.Outcome State Fault Refusal :=
  let n := accessBytes e
  s.issue { issueOf 0x21 0 e e.len with compare := e.sync = 2 }
    (releasing e (withAccesses (usesOf 0x21 0 e) (accOf e n 2) false fun s us ps =>
      notCommitting (fun s us => performStores false e (fun _ f => f.storeBytes e n) s us ps) s us))

/-- The addresses of MST and RST destinations (R250). -/
def destinations (ea : Nat) (desc : DWord) : List Nat :=
  let stride := desc.toNat / 2 ^ 12 * 4096
  (List.range (desc.toNat % 16 + 1)).map fun j => (ea + j * stride) % 2 ^ 64

/-- The accesses of MST and RST. -/
def multiAccs (e : Ext) (n : Nat) (s : State) (f : Fibre) : List Acc :=
  (destinations (s.ea f e) (s.srcC f e true).val).map fun a =>
    { ea := a, n := n, form := e.win, acc := 2, irrev := e.irrev, align := alignOf n }

/-- MST. -/
def execMst (e : Ext) (s : State) : Host.Outcome State Fault Refusal :=
  let n := accessSize e.ty
  s.issue { issueOf 0x22 0 e e.len with compare := e.sync = 2 }
    (releasing e (withAccesses (usesOf 0x22 0 e) (multiAccs e n) true fun s us ps =>
      notCommitting (fun s us => performStores false e (fun _ f => f.storeBytes e n) s us ps) s us))

/-- The reduction that RST stores (R252). -/
def State.rstBytes (s : State) (e : Ext) (us : List Nat) (op : Nat) : List Byte :=
  let e' := { e with a := e.d, ak := false, mod := BitVec.ofNat 10 op }
  leBytes (if e.ty.wide then 8 else 4) (packElems e.ty fun i => treeNode (redCombine e.ty op) (s.laneValue us e' i) 6 0)

/-- Stores that are performed once for the wave (R240). -/
def onceStores (all : List Nat) (b : Body) : Body := fun s us =>
  match b s us with
  | .error st => .error st
  | .ok (t, stay) => .ok (t.shareAcks (us.headD 0) s.peerWrites.length all, stay)

/-- What stands for a reducing store among the unacknowledged writes of its fibres: no registry acknowledges it (R252). -/
def reducingKey (id : Nat) : Nat × Nat × Nat := (2 ^ 16, id, 0)

/-- A write of the collective path (R252): at the home slice for global memory, whatever the core's L1 holds; none where it finds no way. -/
def State.collectiveWrite (s : State) (f : Fibre) (l : Loc) (d : List Byte) : Option State :=
  let t := if l.vers then s.writeTag f.part f.tag else 0
  if isPeer l then some (s.storeAt f l d)
  else
    match s.engineWay f.part t l with
    | none => none
    | some s => some (s.txbStore (if l.key / spaceSize = 2 then s.txbsUnder l.key d.length else []) fun s => s.homeWrite f.part f.tag l d)

/-- The writes of a reducing store, in ascending destination, up to one that finds no way (R252, R479). -/
def State.reduceWrites (s : State) (f : Fibre) : List (Loc × List Byte) → State × List (Loc × List Byte)
  | [] => (s, [])
  | (l, d) :: r =>
    match s.collectiveWrite f l d with
    | none => (s, (l, d) :: r)
    | some s => s.reduceWrites f r

/-- An acknowledgement reaches the fibres and the port entries that await it (R80, R99). -/
def State.acknowledge (s : State) (x : Nat × Nat × Nat) : State :=
  let s := s.mapFibres fun f => { f with unacked := f.unacked.filter fun y => y != x }
  let free := (s.ports.filter fun p => p.window.any fun e => e.waitFor.contains x).map fun p => p.id
  let s := { s with ports := s.ports.map fun (p : Port) => { p with window := p.window.map fun (e : PortEntry) => { e with waitFor := e.waitFor.filter fun y => y != x } } }
  free.foldl (fun s i => s.post (.queueEntryArrival i)) s

/-- A reducing store goes on as far as it finds ways; it is complete once it has made every write. -/
def State.reduceOn (s : State) (r : Reducing) : State :=
  let (s, left) := s.reduceWrites { s.fibre r.uid with uid := r.uid, part := r.part, tag := r.tag } r.left
  let s := { s with reducing := s.reducing.filter fun x => x.id != r.id }
  if left.isEmpty then s.acknowledge (reducingKey r.id)
  else if left.length < r.left.length ∨ r.stuck = none then
    ({ s with reducing := s.reducing ++ [{ r with left := left, stuck := some s.clock }] }).timer (s.clock + 2 ^ 20) (.engineWayTimeout r.id)
  else { s with reducing := s.reducing ++ [{ r with left := left }] }

/-- The stores of an RST (R252): signed as its lowest fibre's; those of a plain RST of a replica go to the journal where they reach global
memory, since they are plain stores (R367; DEDUCED, notes/assumptions/75.md), and of an RST.REL the leader alone writes there; else they go through the collective path, and later releases of every active fibre await them. -/
def State.reduceStores (s : State) (e : Ext) (d : List Byte) (ps : List Placed) (us : List Nat) : State :=
  let lead := us.headD 0
  let f := s.fibre lead
  let own (p : Placed) : Bool := s.replicatedFibre f && (e.sync < 2 || f.repl != (s.pipeOf f).leader) && p.pieces.any fun x => x.win == 1
  let s := ps.foldl (fun s p => if own p then s.storeOne e.irrev (decide (2 ≤ e.sync)) p d else s.updFibre lead fun f => f.signStore p.ea d) s
  let ws := (ps.filter fun p => !own p).flatMap fun p => (p.pieces.take 1).map fun x => (x.loc, d)
  let (id, s) := s.fresh
  let r : Reducing := { id := id, part := f.part, pipe := f.pipe, repl := f.repl, uid := lead, us := us, tag := f.tag, left := ws, stuck := none }
  (s.updAll us fun f => { f with unacked := f.unacked ++ [reducingKey id] }).reduceOn r

/-- RST: once for the wave, through the collective path (R252). -/
def execRst (e : Ext) (s : State) : Host.Outcome State Fault Refusal :=
  let n := if e.ty.wide then 8 else 4
  s.issue { issueOf 0x22 1 e e.len with compare := e.sync = 2 }
    (releasing e fun s us =>
      let f := s.fibre (us.headD 0)
      let op := (s.srcC f e true).val.toNat / 16 % 8
      let contrib := us.findSome? fun u => s.poisonUse (s.fibre u) [⟨false, e.d.toNat, if e.ty.wide then 2 else 1, true, false⟩]
      match s.poisonUse f (usesOf 0x22 1 e) with
      | some t => .error (.trap t)
      | none =>
        match contrib with
        | some t => .error (.trap t)
        | none =>
          if !extraOk.redTypeOk op e.ty then .error (.trap s.illegal)
          else
            let d := s.rstBytes e us op
            withAccesses [] (multiAccs e n) true (fun s _ ps =>
              notCommitting (withJournal true e ps fun s => .ok (s.reduceStores e d ps us, [])) s us) s (us.take 1))

/-- SST: once for the wave (R215, R216). -/
def execSst (e : Ext) (s : State) : Host.Outcome State Fault Refusal :=
  let n := accessSize e.ty
  s.issue { issueOf 0x12 1 e e.len with compare := e.sync = 2 }
    (releasing e fun s us =>
      withAccesses (usesOf 0x12 1 e) (accOf e n 2) false (fun s _ ps =>
        notCommitting (onceStores us fun s us => performStores true e (fun s f => leBytes n (s.sreg f e.d.toNat).val.toNat) s us ps) s us) s (us.take 1))

/-! ### PAGEREQ and PREFETCH (R245, R246) -/

/-- The global address of an access of one byte; none in a window or where it is not canonical. -/
def State.globalAt (s : State) (f : Fibre) (e : Ext) : Option Nat :=
  let ea := s.ea f e
  match decodeWindow ea 1 e.win with
  | .error _ => none
  | .ok (1, _) => some ea
  | .ok (4, o) => some (s.globalOf f 4 o)
  | .ok _ => none

/-- The page entry of a global address; none where the page is absent. -/
def State.pteAt (s : State) (f : Fibre) (g : Nat) : Option Nat :=
  match s.cachedPte f.part f.onCore g with
  | some e => some e
  | none => s.walk f.part g

/-- PAGEREQ. The checks of steps 1 to 3 apply at one byte, in each active fibre (R241). -/
def execPagereq (e : Ext) (s : State) : Host.Outcome State Fault Refusal :=
  s.issue { issueOf 0x23 0 e e.len with compare := true, once := true }
    (fun s us =>
      match us.findSome? fun u =>
          match s.poisonUse (s.fibre u) (addrUses e) with
          | some t => some t
          | none => match decodeWindow (s.ea (s.fibre u) e) 1 e.win with | .error t => some t | .ok _ => none with
      | some t => .error (.trap t)
      | none =>
        .ok (us.foldl (fun s u =>
          let f := s.fibre u
          match s.globalAt f e with
          | none => s
          | some g =>
            if (s.pteAt f g).isSome then s
            else if (s.partn f.part).mode.getLsbD 0 || ((s.partn f.part).region? g).isSome then s.raiseService f.part g 1 true else s) s, []))

/-- The page of a line that PREFETCH, CINV or CWB acts on: the place of the line's first byte, where it is cacheable global memory. -/
def State.lineAt (s : State) (f : Fibre) (e : Ext) (perm : Bool) : Option Loc :=
  match s.globalAt f e with
  | none => none
  | some g =>
    match s.pteAt f g with
    | none => none
    | some p =>
      let t := pteOf p
      let l := t.loc (g / 128 * 128)
      if !t.cached || (perm && !t.r) || (!t.host && deviceSize ≤ l.key % spaceSize) || isPeer l then none else some l

/-- PREFETCH of one sector into an L1: a plain read of each of its words, which makes an owner promote what it has released, and the fill (R79). -/
def State.prefetchSector (s : State) (f : Fibre) (l : Loc) : State :=
  let core := s.coreOf f
  let t := (s.readCopy f.part f.tag l).1
  ((List.range 8).foldl (fun s i => (s.serveWord core t (l.key + 4 * i) l.grain false false).2.2) s).fillSector core t l.key l.grain

/-- PREFETCH of a line: it enters the VAC where it finds a way, a host line by a request to the host; with C = 0 the L1 of the core too (R246). -/
def State.prefetchLine (s : State) (f : Fibre) (l : Loc) (vac : Bool) : State :=
  let t := (s.readCopy f.part f.tag l).1
  match s.hostLineStop l.key false with
  | some _ =>
    let s := s.askHostLine f.uid (l.key / 128) false
    if vac then s
    else { s with hostLines := mapIf (fun h => h.line == l.key / 128) (fun h => { h with into := h.into ++ [(s.coreOf f, t, l.grain)] }) s.hostLines }
  | none =>
    match s.readWay t l.key with
    | none => s
    | some s => if vac then s else (List.range 4).foldl (fun s i => s.prefetchSector f { l with key := l.key + 32 * i }) s

/-- PREFETCH: the line into the VAC, and into the L1 of the core unless C = 1 (R246). -/
def execPrefetch (e : Ext) (s : State) : Host.Outcome State Fault Refusal :=
  s.issue (issueOf 0x23 1 e e.len) (notPoisoned (addrUses e) fun s us =>
    .ok (us.foldl (fun s u =>
      match s.lineAt (s.fibre u) e true with
      | none => s
      | some l => s.prefetchLine (s.fibre u) l (e.c != 0)) s, []))

/-! ### Atomics (R247 to R249) -/

/-- The new value that an atomic writes (R248); none for a CAS whose comparison fails. -/
def atomicNew (op : Nat) (ty : OpType) (old x y : Nat) : Option Nat :=
  let n (v : Nat) : Int := intOf ty (BitVec.ofNat 64 v)
  match op with
  | 0 => some (siteAdd ty old x)
  | 1 => some (if n x < n old then x else old)
  | 2 => some (if n old < n x then x else old)
  | 3 => some (old &&& x)
  | 4 => some (old ||| x)
  | 5 => some (old ^^^ x)
  | 6 => some x
  | _ => if old = y then some x else none

/-- Bytes of an atomic (R247). -/
def atomicSize (ty : OpType) : Nat := if ty.wide then 8 else 4

/-- Perform one atomic at its site: the old value and its poison (R248). Under a tag its version comes first (R130). A CAS whose comparison fails
writes nothing, and leaves no older clean copy in the core's L1 (R103, R249). -/
def State.atomicAt (s : State) (f : Fibre) (op : Nat) (ty : OpType) (l : Loc) (x y : Nat) : Nat × Bool × State :=
  let n := atomicSize ty
  let t := if l.vers then s.writeTag f.part f.tag else 0
  let (d, p, s) := (s.createVersion f.part t l).homeRead f.part f.tag l n
  let old := ofLeBytes d
  match atomicNew op ty old x y with
  | none => (old, p, (s.dropWord (s.coreOf f) t l.key).dropWord (s.coreOf f) t (l.key + n - 4))
  | some v => (old, p, s.homeWrite f.part f.tag l (leBytes n v))

/-- An atomic instruction: `red` returns nothing, `op` is the operation, x and y its operands. -/
structure AtomOp where
  major : Nat
  op : Nat
  deriving Repr

/-- RED returns nothing. -/
def AtomOp.red (a : AtomOp) : Bool := a.major == 0x25

/-- The operand and the compare value (R247). -/
def State.atomOperands (s : State) (f : Fibre) (a : AtomOp) (e : Ext) : Nat × Nat :=
  let w := atomicSize e.ty * 8
  let c := lowBits w (s.srcC f e e.ty.wide).val
  let d := lowBits w (f.vSrc e.d.toNat e.ty.wide).val
  if a.red then (d, 0) else if a.op = 7 then (d, c) else (c, 0)

/-- The update is buffered for the group's serial phase (R378). -/
def State.buffers (s : State) (f : Fibre) (a : AtomOp) (e : Ext) (p : Placed) : Bool :=
  e.dord && a.op == 0 && (s.pipeOf f).determ && p.pieces.all fun x => x.win == 1

/-- Sign an atomic in a fibre (R364). -/
def Fibre.signAtomic (f : Fibre) (a : AtomOp) (e : Ext) (ea x y old : Nat) : Fibre :=
  let f := f.fold (atomicRecord ea (atomicSize e.ty) (a.op + if a.red then 16 else 0) x (if a.red then 0 else old))
  if a.op = 7 then f.fold (extensionRecord y) else f

/-- One fibre's atomic; under a release it marks the core's dirty words where it has written (R80, R249). -/
def State.atomicOne (s : State) (a : AtomOp) (e : Ext) (p : Placed) : State :=
  let f := s.fibre p.uid
  let (x, y) := s.atomOperands f a e
  let loc := (p.pieces.map fun q => q.loc).headD ⟨0, false, false, 0⟩
  if s.buffers f a e p then
    let u : OrdUpdate := { launchIdx := f.launchIdx, seq := s.nextId, uid := f.uid, pipe := f.pipe, loc := loc, tag := f.tag, f16 := e.ty == .f16
                           val := BitVec.ofNat 32 x, dst := if a.red then none else some e.d.toNat }
    let s := ({ s with nextId := s.nextId + 1 }).updGroup f.groupId fun g => { g with ord := g.ord ++ [u] }
    let s := s.updFibre f.uid fun f => f.signAtomic a e p.ea x y 0
    let s := s.releaseAll e [f.uid]
    if a.red then s else { s with pendV := s.pendV ++ [(f.uid, e.d.toNat)] }
  else
    let (old, po, s) := s.atomicAt f a.op e.ty loc x y
    let s := s.updFibre f.uid fun f => f.signAtomic a e p.ea x y old
    let s := if (atomicNew a.op e.ty old x y).isSome then s.releaseAll e [f.uid] else s
    if a.red then s else s.updFibre f.uid fun f => f.setD e e.ty.wide ⟨BitVec.ofNat 64 old, po⟩

/-- The access of a fibre's atomic. -/
def atomicAccs (e : Ext) (s : State) (f : Fibre) : List Acc :=
  [{ ea := s.ea f e, n := atomicSize e.ty, form := e.win, acc := 3, atomic := true, irrev := e.irrev, align := alignOf (atomicSize e.ty) }]

/-- A follower's part in its leader's atomic (R267, R370): on global memory it signs with its own operands and the value returned; a buffered update's
value is pending until the leader's serial phase gives it (R378). An atomic on scratchpad or vault it performs itself (R367). -/
def takeAtomic (a : AtomOp) (e : Ext) (s : State) (f : Fibre) (_ : Fwd) : State :=
  let (x, y) := s.atomOperands f a e
  let w := if e.win = 0 then windowOf (s.ea f e) else e.win
  if w = 2 ∨ w = 3 then
    match s.placeList f 0 (atomicAccs e s f) with
    | .ok (ps, _) => ps.foldl (fun s p => s.atomicOne a e p) s
    | .error _ => s
  else if e.dord && a.op == 0 && (s.pipeOf f).determ then
    let s := s.updFibre f.uid fun g => g.signAtomic a e (s.ea f e) x y 0
    if a.red then s else { s with pendV := s.pendV ++ [(f.uid, e.d.toNat)] }
  else
    let old := lowBits (atomicSize e.ty * 8) ((s.fibre f.uid).vSrc e.d.toNat e.ty.wide).val
    let s := s.updFibre f.uid fun g => g.signAtomic a e (s.ea f e) x y old
    if e.sync = 1 ∨ e.sync = 3 then s.acquire f e.scope else s

/-- The line of an atomic's site stands in the VAC (R86, R124). -/
def State.reserveSites (s : State) : List Placed → Except Stop State
  | [] => .ok s
  | p :: r =>
    let f := s.fibre p.uid
    match p.pieces with
    | x :: _ =>
      if x.win ≠ 1 ∨ (x.loc.vers ∧ s.writeTag f.part f.tag ≠ 0) then s.reserveSites r
      else
        match s.readWay 0 (x.loc.key / 128 * 128) with
        | none => .error (.trap (versionFull p.ea (x.loc.key / 128 * 128)))
        | some s => s.reserveSites r
    | [] => s.reserveSites r

/-- The lines of a wave's atomics stand in the VAC, and the log of its buffered updates has room in the overflow area (R379): else VERSION_FULL
(R124). -/
def State.reserveOrd (s : State) (a : AtomOp) (e : Ext) (ps : List Placed) : Except Stop State :=
  match ps.filter fun p => s.buffers (s.fibre p.uid) a e p with
  | [] => s.reserveSites ps
  | p :: r =>
    let f := s.fibre p.uid
    let waiting := (s.groups.filter fun (g : Group) => g.part == f.part).foldl (fun n g => n + g.ord.length) (r.length + 1)
    let line := (p.pieces.map fun x => x.loc.key / 128 * 128).headD 0
    if (s.partn f.part).voaSlots < s.slotsUsed f.part waiting then .error (.trap (versionFull p.ea line)) else s.reserveSites ps

/-- ATOM, CAS and RED (R247 to R249, R267, R370). -/
def atomic (a : AtomOp) (e : Ext) (s : State) : Host.Outcome State Fault Refusal :=
  let shared := s.anyShared e
  s.issue { issueOf a.major a.op e e.len with compare := shared || e.sync ≥ 2, once := shared, take := takeAtomic a e }
    (releaseWaits e (withAccesses (usesOf a.major a.op e) (atomicAccs e) false
      fun s us ps =>
        notCommitting (fun s us =>
          match s.reserveAll ps with
          | .error st => .error st
          | .ok s =>
            match s.reserveOrd a e ps with
            | .error st => .error st
            | .ok s =>
              let s := ps.foldl (fun s p => s.atomicOne a e p) s
              .ok (if !a.red && (e.sync = 1 || e.sync = 3) then us.foldl (fun s u => s.acquire (s.fibre u) e.scope) s else s, [])) s us))

/-- ATOM.ADD. -/
def execAtomAdd (e : Ext) (s : State) := atomic ⟨0x24, 0⟩ e s
/-- ATOM.MIN. -/
def execAtomMin (e : Ext) (s : State) := atomic ⟨0x24, 1⟩ e s
/-- ATOM.MAX. -/
def execAtomMax (e : Ext) (s : State) := atomic ⟨0x24, 2⟩ e s
/-- ATOM.AND. -/
def execAtomAnd (e : Ext) (s : State) := atomic ⟨0x24, 3⟩ e s
/-- ATOM.OR. -/
def execAtomOr (e : Ext) (s : State) := atomic ⟨0x24, 4⟩ e s
/-- ATOM.XOR. -/
def execAtomXor (e : Ext) (s : State) := atomic ⟨0x24, 5⟩ e s
/-- ATOM.EXCH. -/
def execAtomExch (e : Ext) (s : State) := atomic ⟨0x24, 6⟩ e s
/-- CAS. -/
def execCas (e : Ext) (s : State) := atomic ⟨0x24, 7⟩ e s
/-- RED.ADD. -/
def execRedAdd (e : Ext) (s : State) := atomic ⟨0x25, 0⟩ e s
/-- RED.MIN. -/
def execRedMin (e : Ext) (s : State) := atomic ⟨0x25, 1⟩ e s
/-- RED.MAX. -/
def execRedMax (e : Ext) (s : State) := atomic ⟨0x25, 2⟩ e s
/-- RED.AND. -/
def execRedAnd (e : Ext) (s : State) := atomic ⟨0x25, 3⟩ e s
/-- RED.OR. -/
def execRedOr (e : Ext) (s : State) := atomic ⟨0x25, 4⟩ e s
/-- RED.XOR. -/
def execRedXor (e : Ext) (s : State) := atomic ⟨0x25, 5⟩ e s

/-! ### Fences (R254, R255) -/

/-- FENCE. -/
def execFence (e : Ext) (s : State) : Host.Outcome State Fault Refusal :=
  s.issue { issueOf 0x26 0 e e.len with compare := e.sync ≥ 2 }
    (releasing e fun s us => .ok (if e.sync = 1 ∨ e.sync = 3 then us.foldl (fun s u => s.acquire (s.fibre u) e.scope) s else s, []))

/-- Earlier work of a fibre through a path is complete and visible at a scope: at SYSTEM the peers have acknowledged their writes (R108, R110). -/
def State.pathDone (s : State) (f : Fibre) (path scope : Nat) : Bool :=
  let peers := scope != 7 || f.peerUnacked == 0
  match path with
  | 0 => f.acked && !s.loadsOut f.uid && peers
  | 1 => s.copies.all fun c => !c.uids.contains f.uid
  | 2 => (s.stepSets.all fun x => x.signers.all fun g => g.uid != f.uid) && s.tmmas.all fun t => !t.uids.contains f.uid
  | 3 => (s.gathers.all fun g => g.uid != f.uid) && (s.rays.all fun r => r.uid != f.uid) && s.beams.all fun b => b.uid != f.uid
  | _ => (s.reducing.all fun r => !r.us.contains f.uid) && peers

/-- CPFENCE from path IMM[2:0] to path IMM[5:3] at its scope; one path named twice orders nothing (R108). -/
def execCpfence (e : Ext) (s : State) : Host.Outcome State Fault Refusal :=
  let a := e.imm.toNat % 8
  let b := e.imm.toNat / 8 % 8
  s.issue { issueOf 0x26 1 e e.len with compare := a = 0 } fun s us =>
    if a ≠ b ∧ (us.any fun u => !s.pathDone (s.fibre u) a e.scope) then .error (.wait .waitMemory (.path a e.scope)) else .ok (s, [])

/-! ### Cache and translation management (R264, R265) -/

/-- CINV: the clean words of the line in the core's L1. -/
def execCinv (e : Ext) (s : State) : Host.Outcome State Fault Refusal :=
  s.issue (issueOf 0x37 0 e e.len) (notPoisoned (addrUses e) fun s us =>
    .ok (us.foldl (fun s u =>
      match s.lineAt (s.fibre u) e false with
      | none => s
      | some l => { s with l1 := s.l1.filter fun w => !(w.core == s.coreOf (s.fibre u) && w.key / 128 == l.key / 128 && w.dirty == 0) }) s, []))

/-- One fibre's CWB: the dirty words of its tag are written back; the registry's acknowledgement is awaited as a store's is. -/
def State.cwbOne (s : State) (l : Loc) (u : Nat) : State :=
  let f := s.fibre u
  let t := if l.vers then s.writeTag f.part f.tag else 0
  let core := s.coreOf f
  let mine (w : L1Word) : Bool := w.core == core && w.tag == t && w.key / 128 == l.key / 128
  if !(s.l1.any fun w => mine w && w.dirty != 0) then s
  else
    let blocks := (s.l1.filter fun w => mine w && w.dirty != 0).foldl (fun bs w => addOnce bs (blockOf w.key w.grain)) []
    let s := (s.writeBack mine).dropRegs core
    let s := s.updFibre u fun f => { f with unacked := f.unacked ++ (blocks.filter fun b => !f.unacked.contains (core, t, b)).map fun b => (core, t, b) }
    blocks.foldl (fun s b => s.post (.registryAck core t b)) s

/-- CWB. -/
def execCwb (e : Ext) (s : State) : Host.Outcome State Fault Refusal :=
  s.issue (issueOf 0x37 1 e e.len) (notPoisoned (addrUses e) fun s us =>
    .ok (us.foldl (fun s u => match s.lineAt (s.fibre u) e false with | none => s | some l => s.cwbOne l u) s, []))

/-- The TLBs in the scope of a TLBINV: 2 the core's, 3 the cluster's, 4 the partition's (R265). -/
def inTlbScope (f : Fibre) (scope : Nat) (x : TlbEntry) : Bool :=
  x.part == f.part && (match scope with
    | 2 => !x.cluster && x.place == f.onCore
    | 3 => if x.cluster then x.place == f.onCore / 4 else x.place / 4 == f.onCore / 4
    | _ => true)

/-- A copy in the scope holds a translation that TLBINV drops, of the page that holds an address or of any page (R259). -/
def State.copyHolds (s : State) (f : Fibre) (page : Option Nat) (scope : Nat) : Bool :=
  s.copies.any fun c => c.part == f.part && (scope == 4 || c.cluster == f.onCore / 4) &&
    match page with | none => !c.pages.isEmpty | some g => c.pages.any fun p => p.1 / 2 ^ pageBits p.2 == g / 2 ^ pageBits p.2

/-- TLBINV: the page of the global address that the effective address stands for (R63, R65); an address outside global and private memory has none. -/
def execTlbinv (e : Ext) (s : State) : Host.Outcome State Fault Refusal :=
  s.issue { issueOf 0x37 2 e e.len with priv := true } (notPoisoned (addrUses e) (afterAcks 4 (oncePerWave fun s f _ =>
    match s.globalAt f e with
    | none => .ok (s, [])
    | some g =>
      let s := { s with tlb := s.tlb.filter fun x => !(inTlbScope f e.scope x && pteMatches g (pteOf x.entry.toNat)) }
      if s.copyHolds f (some g) e.scope then .error (.wait .waitMemory .tlb) else .ok (s, []))))
/-- TLBINV.ALL. -/
def execTlbinvAll (e : Ext) (s : State) : Host.Outcome State Fault Refusal :=
  s.issue { issueOf 0x37 2 e e.len with priv := true } (afterAcks 4 (oncePerWave fun s f _ =>
    let s := { s with tlb := s.tlb.filter fun x => !inTlbScope f e.scope x }
    if s.copyHolds f none e.scope then .error (.wait .waitMemory .tlb) else .ok (s, [])))

/-! ### Events of the caches -/

/-- REGISTRATION_REQUEST: a first store reaches the registry; another owner writes back, and the new owner is recorded (R78, R83). DESIGN CHOICE
(notes/assumptions/72.md): R83 speaks of a full set and gives a slice no organisation; a slice is one set of 32,768 entries here. -/
def State.register (s : State) (core tag block : Nat) : State :=
  let key := blockBase block
  let s := match s.owner tag key (block % 4) with
    | some o => if o = core then s else s.recallBlock tag key (block % 4)
    | none => s
  let slice := vacSlice key
  let inSlice := s.registry.filter fun (r : RegEntry) => vacSlice (blockBase r.block) == slice
  let s := if inSlice.length < 32768 then s
    else match inSlice.head? with
      | some r => s.recallBlock r.tag (blockBase r.block) (r.block % 4)
      | none => s
  let r : RegEntry := { block := block, tag := tag, owner := core }
  { s with registry := s.registry.filter (fun x => !(x.block == block && x.tag == tag)) ++ [r] }

/-- REGISTRATION_REQUEST. -/
def execRegistrationRequest (core tag block : Nat) (s : State) : Host.Outcome State Fault Refusal :=
  let dirty := s.l1.any fun w => w.core == core && w.tag == tag && w.dirty != 0 && inBlock block w.key
  .next ((if dirty then s.register core tag block else s).post (.registryAck core tag block))

/-- REGISTRY_ACK. -/
def execRegistryAck (core tag block : Nat) (s : State) : Host.Outcome State Fault Refusal := .next (s.acknowledge (core, tag, block))

/-- FORWARDED_REQUEST: an owner is asked for a word; an acquire, or a released word, makes it promote (R79). -/
def execForwardedRequest (owner tag word : Nat) (acquire : Bool) (s : State) : Host.Outcome State Fault Refusal :=
  match s.l1Word owner tag word with
  | some w => .next (if w.dirty ≠ 0 ∧ (acquire ∨ w.rls) then s.promote owner else s)
  | none => .next s

/-- The coherence grain of a line that an L1 or the registry knows. -/
def fillGrain (s : State) (core tag key : Nat) : Nat :=
  ((s.registry.find? fun r => r.tag == tag && inBlock r.block key).map fun r => r.block % 4).getD
    (((s.l1.find? fun w => w.core == core && w.key / 128 == key / 128).map fun w => w.grain).getD 0)

/-- The core of the cluster that receives a sideways victim: the next one. DESIGN CHOICE (notes/assumptions/73.md): R82 says only another core of the
cluster. -/
def victimCore (core : Nat) : Nat := core / 4 * 4 + (core + 1) % 4

/-- L1_FILL: a line arrives in an L1; met by an invalidation it is not installed (R107); a victim line, by tag and first byte, leaves (R82). `tag` is the
copy's tag. -/
def execL1Fill (core tag line : Nat) (met : Bool) (victim : Option (Nat × Nat)) (s : State) : Host.Outcome State Fault Refusal :=
  let s := match victim with | some v => s.evictLine core v.1 v.2 (victimCore core) | none => s
  if met ∨ (tag ≠ 0 ∧ !s.hasVersion (line / 32) tag) then .next s
  else .next ((List.range 4).foldl (fun s i => s.fillSector core tag (line / 128 * 128 + 32 * i) (fillGrain s core tag line)) s)

/-- Victims leave a set of a core's L1 until it holds no more lines than its 16 ways (R77, R82). -/
def State.trimSet (s : State) (core set : Nat) : Nat → State
  | 0 => s
  | n + 1 =>
    let ls := s.l1Lines core set
    if ls.length ≤ 16 then s
    else
      let v := ls.getD (Config.l1Victim s.free % ls.length) (0, 0)
      ({ s with free := s.free + 1 }.evictLine core v.1 v.2 (victimCore core)).trimSet core set n

/-- Every set of every L1 holds at most its 16 lines before anything else happens: lines that came in have made their victims leave (R77, R82). The
registrations that are on their way arrive first. -/
def State.trimL1 (s : State) : State :=
  if s.l1.length ≤ 16 ∨ (s.agenda.any fun e => match e with | .registrationRequest .. => true | _ => false) then s
  else
    let sets := s.l1.foldl (fun xs w => addOnce xs (w.core * 512 + l1Set w.key)) []
    sets.foldl (fun s x => s.trimSet (x / 512) (x % 512) s.l1.length) s

/-- PAGE_WALK: a walk that hits puts the translation into the TLBs (R70, R71). -/
def execPageWalk (part core : Nat) (va : BitVec 64) (s : State) : Host.Outcome State Fault Refusal :=
  let s := s.promoteWalk part va.toNat
  match s.walk part va.toNat with
  | some e => .next (s.fillTlb part core e)
  | none => .next s

end Sys2Proof.Machine
end

