-- ==== Sys2Proof/Machine/Vertical.lean ====
section
/-! DEFINITION. The vertical ports: the queues from a core to the traversal unit, the texture unit, the coverage unit and the copy engine below it
(R15, R57, R59, R306, R488), and their events. -/

namespace Sys2Proof.Machine

/-- The vertical port of a logical core. -/
def State.vport (s : State) (part core : Nat) : VPort :=
  (s.vports.find? fun p => p.part == part && p.core == core).getD { part := part, core := core, window := [], backoff := [] }

/-- Replace a vertical port. -/
def State.setVport (s : State) (p : VPort) : State := { s with vports := p :: s.vports.filter fun x => !(x.part == p.part && x.core == p.core) }

/-- The replay window holds 32 entries. -/
def VPort.full (p : VPort) : Bool := 32 ≤ p.window.length

/-- Hand a request to the vertical port: engine 0 the TRU, 1 the TFU, 2 the CVU, 3 the CPE. -/
def State.sendDown (s : State) (part core engine id : Nat) : State :=
  let p := s.vport part core
  (s.setVport { p with window := p.window ++ [(engine, id)] }).post (.verticalEntryArrival part core)

/-- An engine's back-off has its due clock ahead. -/
def VPort.waits (p : VPort) (engine : Nat) : Bool := p.backoff.any fun b => b.1 == engine && b.2.2.isSome

/-- The ray slots in use beneath a core (R316). -/
def State.raySlots (s : State) (part core : Nat) : Nat :=
  (s.rays.filter fun r => r.placed && r.part == part && r.core == core && !(s.fibre r.uid).saved).length

/-- Slots of a TRU. -/
def raySlotMax : Nat := 1024

/-- The engine refuses a request with a NACK: a TRU without a free ray slot (R488). The spec bounds no other engine: one refuses as it chooses
(R59; notes/assumptions/82.md). -/
def State.refuses (s : State) (part core engine id : Nat) : Bool :=
  if engine = 0 then (s.rays.any fun r => r.id == id) && decide (raySlotMax ≤ s.raySlots part core) else Config.engineFull engine s.free

/-- Take a request out of the window: accepted, or cancelled in the meantime. -/
def VPort.take (p : VPort) (engine id : Nat) : VPort :=
  { p with window := p.window.erase (engine, id), backoff := p.backoff.filter fun b => b.1 != engine }

/-- A request stands in its engine: a copy begins its pre-walk there. -/
def State.intoEngine (s : State) (engine id : Nat) : State :=
  if engine = 0 then { s with rays := mapIf (fun (r : Ray) => r.id == id) (fun (r : Ray) => { r with placed := true }) s.rays }
  else if engine = 1 then { s with gathers := mapIf (fun (g : Gather) => g.id == id) (fun (g : Gather) => { g with placed := true }) s.gathers }
  else if engine = 2 then { s with beams := mapIf (fun (b : Beam) => b.id == id) (fun (b : Beam) => { b with placed := true }) s.beams }
  else s.post (.copyPrewalkDone id)

/-- The NACK of an engine: the port waits the back-off before it sends again what it has for that engine (R57). -/
def State.nackDown (s : State) (p : VPort) (engine : Nat) : State :=
  let k := ((p.backoff.find? fun b => b.1 == engine).map fun b => b.2.1).getD 0 + 1
  let due := s.clock + backoffClocks k
  (s.setVport { p with backoff := (engine, k, some due) :: p.backoff.filter fun b => b.1 != engine }).timer due (.verticalPortResend p.part p.core engine)

/-- A request reaches its engine (R57, R59). -/
def State.verticalArrival (s : State) (part core : Nat) : State :=
  let p := s.vport part core
  match p.window.find? fun x => !p.waits x.1 with
  | none => s
  | some (engine, id) =>
    let t := if engine = 0 then s else { s with free := s.free + 1 }
    let t := if s.refuses part core engine id then t.nackDown p engine else (t.setVport (p.take engine id)).intoEngine engine id
    let q := t.vport part core
    if q.window.any fun x => !q.waits x.1 then t.post (.verticalEntryArrival part core) else t

/-- VERTICAL_ENTRY_ARRIVAL. -/
def execVerticalEntryArrival (part core : Nat) (s : State) : Host.Outcome State Fault Refusal := .next (s.verticalArrival part core)

/-- VERTICAL_PORT_RESEND: the back-off of one engine ends (R57). -/
def execVerticalPortResend (part core engine : Nat) (s : State) : Host.Outcome State Fault Refusal :=
  let p := s.vport part core
  if p.backoff.any fun b => b.1 == engine && (match b.2.2 with | some d => decide (d ≤ s.clock) | none => false) then
    .next ((s.setVport { p with backoff := p.backoff.map fun b => if b.1 = engine then (b.1, b.2.1, none) else b }).post (.verticalEntryArrival part core))
  else .next s

/-- Fibres of a wave hand over requests in lane order; the first that finds the window full waits, and every later one with it. -/
def sendInOrder (send : State → Nat → State) (s : State) : List Nat → State × List Nat
  | [] => (s, [])
  | u :: r =>
    let f := s.fibre u
    if (s.vport f.part f.onCore).full then (s.updAll (u :: r) fun f => f.waits .waitMemory (.port true), u :: r)
    else sendInOrder send (send s u) r

/-- A request that its engine takes at once passes through the port (R306): it waits while the window is full, and, for an engine that keeps its
requests in order, behind those not yet accepted (R59; notes/assumptions/82.md). -/
def portRoom (engine : Option Nat) (b : Body) : Body := fun s us =>
  let f := s.fibre (us.headD 0)
  let p := s.vport f.part f.onCore
  if p.full then .ok (s.updAll us fun f => f.waits .waitMemory (.port true), us)
  else
    match engine with
    | none => b s us
    | some g => if p.window.any fun x => x.1 == g then .ok (s.updAll us fun f => f.waits .waitMemory (.engine g), us) else b s us

end Sys2Proof.Machine
end

