-- ==== Sys2Proof/Machine/Copy.lean ====
section
/-! DEFINITION. Copies, leases and transaction barriers: the rest of major 0x27 (R55, R88 to R91, R256 to R263), and the events of the copy
engines and of leases (R133, R259, R479). -/

namespace Sys2Proof.Machine

/-! ### Transaction barriers (R262, R263) -/

/-- The barrier that a fibre's operand names: its key (R262). -/
def State.txbKey (s : State) (f : Fibre) (e : Ext) (kind : Nat) : Except Stop Nat :=
  let ea := s.ea f e
  if ea % 16 ≠ 0 then .error (.trap (misalign ea 16))
  else
    match decodeWindow ea 16 e.win with
    | .error t => .error (.trap t)
    | .ok (w, _) =>
      if w ≠ 2 then .error (.trap (permTrap ea kind 5 false))
      else
        match s.place f { ea := ea, n := 16, form := e.win, acc := kind, align := 16 } with
        | .error st => .error st
        | .ok (ps, _) => .ok ((ps.map fun p => p.loc.key).headD 0)

/-- The keys that the active fibres name; in each fibre poison comes first, and the first failure stops the wave (R241, R446). -/
def State.txbKeys (s : State) (e : Ext) (uses : List RegUse) (kind : Nat) : List Nat → Except Stop (List (Nat × Nat))
  | [] => .ok []
  | u :: r =>
    match s.poisonUse (s.fibre u) uses with
    | some t => .error (.trap t)
    | none =>
      match s.txbKey (s.fibre u) e kind with
      | .error st => .error st
      | .ok k => match s.txbKeys e uses kind r with | .error st => .error st | .ok ks => .ok ((u, k) :: ks)

/-- The 32-bit operand c. -/
def State.operandC (s : State) (f : Fibre) (e : Ext) : Nat := (s.srcC f e false).val.toNat % 2 ^ 32

/-- A once-per-wave update of a barrier. -/
def txbOnce (minor : Nat) (e : Ext) (bad : Nat → Bool) (g : Nat → Txb → Txb) (s : State) : Host.Outcome State Fault Refusal :=
  s.issue (issueOf 0x27 minor e e.len) fun s us =>
    notPoisoned (usesOf 0x27 minor e) (fun s one =>
      let f := s.fibre (one.headD 0)
      match s.txbKey f e 3 with
      | .error st => .error st
      | .ok k => if bad (s.operandC f e) then .error (.trap s.illegal) else .ok (s.txbUpdate k (g (s.operandC f e)), [])) s (us.take 1)

/-- TXBINIT. -/
def execTxbinit (e : Ext) (s : State) := txbOnce 4 e (fun c => decide (65535 < c)) (fun c t => { t with arrive := c }) s
/-- TXBEXP. -/
def execTxbexp (e : Ext) (s : State) := txbOnce 5 e (fun _ => false) (fun c t => { t with sectors := (t.sectors + c) % 2 ^ 32 }) s

/-- TXBARR: one arrival for each active fibre. -/
def execTxbarr (e : Ext) (s : State) : Host.Outcome State Fault Refusal :=
  s.issue { issueOf 0x27 6 e e.len with compare := true } (fun s us =>
    match s.txbKeys e (usesOf 0x27 6 e) 3 us with
    | .error st => .error st
    | .ok ks => afterAcks 3 (fun s _ => .ok (ks.foldl (fun s (_, k) => s.txbUpdate k fun t => { t with arrive := t.arrive - 1 }) s, [])) s us)

/-- TXBWAIT: a fibre waits while PHASE equals c[3:0]. -/
def execTxbwait (e : Ext) (s : State) : Host.Outcome State Fault Refusal :=
  s.issue (issueOf 0x27 7 e e.len) (fun s us =>
    match s.txbKeys e (usesOf 0x27 7 e) 1 us with
    | .error st => .error st
    | .ok ks =>
      let stays := (ks.filter fun (u, k) => (s.txbAt k).phase == s.operandC (s.fibre u) e % 16)
      let s := ks.foldl (fun s (u, k) => (fun (s : State) =>
        if stays.any fun x => x.1 == u then s.updFibre u fun f => f.waitsPast .waitMemory (.txb k) e.len else s.acquire (s.fibre u) 3) (s.nameTxb k)) s
      .ok (s, stays.map fun x => x.1))

/-! ### Copies (R256 to R259) -/

/-- The geometry of a copy: rows, sectors per row, pitches in bytes. -/
structure CopyShape where
  rows : Nat
  len : Nat
  spitch : Nat
  dpitch : Nat
  deriving DecidableEq, Repr

/-- The shape that s(C+1), and s(C+2) for CPYT, give. -/
def copyShape (tiled : Bool) (c1 c2 : DWord) : CopyShape :=
  if tiled then { rows := bits c1.toNat 16 16, len := bits c1.toNat 0 16, spitch := bits c2.toNat 32 32, dpitch := bits c2.toNat 0 32 }
  else { rows := if bits c1.toNat 0 24 = 0 then 0 else 1, len := bits c1.toNat 0 24, spitch := 0, dpitch := 0 }

/-- A shape that CPYT accepts (R257). -/
def CopyShape.ok (c : CopyShape) : Bool :=
  !(c.len == 0 && c.rows != 0) && !(1 < c.rows && c.dpitch < 32 * c.len) && c.spitch % 32 == 0 && c.dpitch % 32 == 0

/-- The offsets of a copy's sectors from source and destination. -/
def CopyShape.sectors (c : CopyShape) : List (Nat × Nat) :=
  (List.range c.rows).flatMap fun r => (List.range c.len).map fun i => (r * c.spitch + 32 * i, r * c.dpitch + 32 * i)

/-- The bytes of the range that a side of the copy spans. -/
def CopyShape.span (c : CopyShape) (pitch : Nat) : Nat := if c.rows = 0 then 0 else (c.rows - 1) * pitch + 32 * c.len

/-- The current group holds the copy right, or the trap (R55). -/
def State.copyRight (s : State) (f : Fibre) : Option Trap :=
  if (s.group f.groupId).copyRight then none else some { cause := cCopyRight, detail := f.cur }

/-- The window in which a whole range lies, and its offset there (R241, step 3). -/
def rangeWindow (ea n form : Nat) : Except Trap (Nat × Nat) := if n = 0 then .ok (0, 0) else decodeWindow ea n form

/-- Step 4 of R241 on the scratchpad or vault cores of a whole range. -/
def State.rangeCores (s : State) (f : Fibre) (ea n kind w o : Nat) : Option Trap :=
  let unit := if w = 2 then 2 ^ 18 else 2 ^ 20
  let first := o / unit
  let cores := (List.range ((o + n - 1) / unit + 1 - first)).map fun i => first + i
  let lc (c : Nat) : Nat := s.replCore f (if w = 2 then 4 * (f.lcore / 4) + c else c)
  if (w = 2 ∨ w = 3) ∧ cores.any (fun c => ((s.partn f.part).phys? (lc c)).isNone) then some (permTrap ea kind 0 true) else none

/-- Steps 3 and 4 of R241 on a whole range. -/
def State.rangeCheck (s : State) (f : Fibre) (ea n form kind : Nat) : Option Trap :=
  match rangeWindow ea n form with
  | .error t => some t
  | .ok (w, o) => s.rangeCores f ea n kind w o

/-- The address of a transaction barrier that a copy names by its offset in the scratchpad window (R256). -/
def txbAddr (o : Nat) : Nat := 0xFD000000000 * 2 ^ 20 + o

/-- The place of a transaction barrier named by offset, in the cluster of the fibre (R256; R241, step 4). -/
def State.txbOffset (s : State) (f : Fibre) (o : Nat) : Except Trap Nat :=
  match (s.partn f.part).phys? (s.replCore f (4 * (f.lcore / 4) + o / 2 ^ 18)) with
  | none => .error (permTrap (txbAddr o) 3 0 true)
  | some c => .ok (spdKey c o)

/-- The page of a piece: its first address, and SZ. -/
def Piece.page (p : Piece) : Nat × Nat := (p.va / 2 ^ pageBits p.sz * 2 ^ pageBits p.sz, p.sz)

/-- Place the sectors of a copy: the pre-walk (R258). -/
def State.placeSectors (s : State) (f : Fibre) (e : Ext) (src dst : Nat) : Nat → List (Nat × Nat) → Except Stop (List CopySector × List (Nat × Nat))
  | _, [] => .ok ([], [])
  | i, (a, b) :: r =>
    match s.place f { ea := (src + a) % 2 ^ 64, n := 32, form := 0, acc := 1, align := 32 } with
    | .error st => .error st
    | .ok (ps, _) =>
      match s.place f { ea := (dst + b) % 2 ^ 64, n := 32, form := e.win, acc := 2, irrev := e.irrev, align := 32 } with
      | .error st => .error st
      | .ok (qs, _) =>
        match s.placeSectors f e src dst (i + 1) r with
        | .error st => .error st
        | .ok (xs, gs) =>
          match ps, qs with
          | p :: _, q :: _ => .ok ({ idx := i, src := p.loc, dst := q.loc, data := none } :: xs,
              (gs ++ [p.page, q.page]).eraseDups)
          | _, _ => .ok (xs, gs)

/-- The checks of a copy at issue, after the copy right: the steps of R241 one after another, each over the source, the destination and the offset
of the barrier; CPYT's shape is checked once its registers may be read (R257, R258). -/
def State.copyCheck (s : State) (f : Fibre) (e : Ext) (uses : List RegUse) (src dst : Nat) (sh : CopyShape) (tiled : Bool) (txb : Option Nat) :
    Except Trap (Option Nat) :=
  match s.poisonUse f uses with
  | some t => .error t
  | none =>
    if tiled ∧ !sh.ok then .error s.illegal
    else if src % 32 ≠ 0 then .error (misalign src 32)
    else if dst % 32 ≠ 0 then .error (misalign dst 32)
    else if txb.any fun o => o % 16 != 0 then .error (misalign (txbAddr (txb.getD 0)) 16)
    else
      match rangeWindow src (sh.span sh.spitch) 0, rangeWindow dst (sh.span sh.dpitch) e.win with
      | .error t, _ => .error t
      | .ok _, .error t => .error t
      | .ok (w, o), .ok (w', o') =>
        match s.rangeCores f src (sh.span sh.spitch) 1 w o, s.rangeCores f dst (sh.span sh.dpitch) 2 w' o', txb.map fun o => s.txbOffset f o with
        | some t, _, _ => .error t
        | none, some t, _ => .error t
        | none, none, some (.error t) => .error t
        | none, none, some (.ok k) => .ok (some k)
        | none, none, none => .ok none

/-- The kind-3 record of a copy (R364). -/
def copyRecord (dst src len : Nat) : Nat := dst % 2 ^ 64 + 3 * 2 ^ 64 + src % 2 ^ 64 * 2 ^ 128 + len % 2 ^ 32 * 2 ^ 192

/-- The body of CPY and CPYT. -/
def copyBody (tiled : Bool) (e : Ext) : Body := fun s us =>
  let f := s.fibre (us.headD 0)
  let minor := if tiled then 1 else 0
  let c := e.c.toNat
  let src := (s.sreg f c).val.toNat
  let c1 := (s.sreg f (c + 1)).val
  let c2 := if tiled then (s.sreg f (c + 2)).val else 0
  let dst := s.ea f e
  let sh := copyShape tiled c1 c2
  match s.copyRight f with
  | some t => .error (.trap t)
  | none =>
    match s.copyCheck f e ((usesOf 0x27 minor e).filter fun u => u.rd) src dst sh tiled (if c1.getLsbD 63 then some (bits c1.toNat 32 20) else none) with
    | .error t => .error (.trap t)
    | .ok txb =>
      match s.placeSectors f e src dst 0 sh.sectors with
      | .error st => .error st
      | .ok (xs, pages) => if (s.vport f.part f.onCore).full then .ok (s.updAll us fun f => f.waits .waitMemory (.port true), us) else
        let (id, s) := s.fresh
        let cp : Copy := { id := id, part := f.part, pipe := f.pipe, uids := us, fid := f.fid, grp := f.cur, repl := f.repl
                           cluster := f.onCore / 4, token := e.d.toNat, tag := f.tag, total := xs.length, left := xs, all := xs, txb := txb
                           started := false, rel := e.sync == 2, pages := pages, stuck := none }
        let s := match txb with | some k => s.nameTxb k | none => s
        let s := ({ s with copies := s.copies ++ [cp] }).updGroup f.groupId fun g => { g with pend := g.pend ++ [(e.d.toNat, none)] }
        let s := s.updAll us fun f =>
          let f := f.fold (copyRecord dst src (c1.toNat % 2 ^ 32))
          let f := if tiled then f.fold (extensionRecord c2.toNat) else f
          f.waitsPast .waitMemory (.prewalk id) e.len
        .ok (s.sendDown f.part f.onCore 3 id, us)

/-- CPY. -/
def execCpy (e : Ext) (s : State) : Host.Outcome State Fault Refusal :=
  s.issue { issueOf 0x27 0 e e.len with compare := e.sync = 2 } (notCommitting (copyBody false e))
/-- CPYT. -/
def execCpyt (e : Ext) (s : State) : Host.Outcome State Fault Refusal :=
  s.issue { issueOf 0x27 1 e e.len with compare := e.sync = 2 } (notCommitting (copyBody true e))

/-- The copy of a number. -/
def State.copy? (s : State) (id : Nat) : Option Copy := s.copies.find? fun c => c.id == id

/-- Change a copy. -/
def State.updCopy (s : State) (id : Nat) (g : Copy → Copy) : State := { s with copies := mapIf (fun c => c.id == id) g s.copies }

/-- The next sector that the engine writes, in an order of its own (R258). -/
def Copy.next (c : Copy) : Nat :=
  ((c.left[Config.copyOrder c.id c.left.length % max 1 c.left.length]?).map fun x => x.idx).getD 0

/-- Write a token: a value, or poison (R89, R105, R133). A group that is gone receives none (R259). -/
def State.writeToken (s : State) (i : GroupId) (reg : Nat) (x : PDWord) : State :=
  let s := s.updGroup i fun g => { g.setS reg x with pend := g.pend.filter fun y => y != (reg, none), tokens := addOnce (g.setS reg x).tokens reg }
  s.retryPending i.part

/-- Every earlier store and atomic of some fibres has been acknowledged. -/
def State.allAcked (s : State) (us : List Nat) : Bool := us.all fun u => (s.fibre u).acked

/-- What the fibres of an engine's work have written is released (R99). -/
def State.releaseFor (s : State) (us : List Nat) : State := us.foldl (fun s u => s.release (s.fibre u)) s

/-- The completion of engine work: its fibres' writes are released, and its token is written, which an instruction that reads it acquires (R99). -/
def State.completeToken (s : State) (us : List Nat) (i : GroupId) (reg : Nat) (x : DWord) : State := (s.releaseFor us).writeToken i reg ⟨x, false⟩

/-- End a copy with a poisoned token. -/
def State.failCopy (s : State) (c : Copy) : State :=
  { s with copies := s.copies.filter fun x => x.id != c.id }.writeToken ⟨c.part, c.grp, c.repl⟩ c.token ⟨0, true⟩

/-- End a copy whose sectors have all landed, once the stores before it have been acknowledged (R99, R258). -/
def State.endCopy (s : State) (c : Copy) : State :=
  if !s.allAcked c.uids then s
  else { s with copies := s.copies.filter fun x => x.id != c.id }.completeToken c.uids ⟨c.part, c.grp, c.repl⟩ c.token (BitVec.ofNat 64 c.total)

/-- What a copy does next: its end, or a sector. -/
def State.copyOn (s : State) (c : Copy) : State := if c.left = [] then s.endCopy c else s.post (.copySectorLand c.id c.next)

/-- COPY_PREWALK_DONE: the copy stands in the cluster's engine, the instruction completes for its wave, and the transfer begins (R258). -/
def execCopyPrewalkDone (job : Nat) (s : State) : Host.Outcome State Fault Refusal :=
  match s.copy? job with
  | none => .next s
  | some c =>
    if c.started then .next s
    else
      let s := { s with fibres := mapIf (fun (f : Fibre) => f.wait == Wait.prewalk job) Fibre.continues s.fibres }
      let s := s.updCopy job fun c => { c with started := true }
      .next (s.copyOn { c with started := true })

/-- The data of every sector, read before the copy writes, where source and destination overlap (R258). -/
def State.preread (s : State) (c : Copy) : List CopySector :=
  if c.left.length = c.total ∧ c.left.any (fun x => c.left.any fun y => y.src.key == x.dst.key) then
    c.left.map fun x => { x with data := some (s.engineRead c.part c.tag x.src 32) }
  else c.left

/-- The copy writes global memory only where its replica leads (R369). -/
def State.engineWrites (s : State) (part pipe repl key : Nat) : Bool :=
  let p := s.pipe part pipe
  !p.replicated || repl == p.leader || 2 * spaceSize ≤ key

/-- An engine has written global memory for some fibres (R373). -/
def State.noteEngineWrite (s : State) (uids : List Nat) (key : Nat) : State :=
  if key < 2 * spaceSize then s.updAll uids fun f => { f with engWrote := true } else s

/-- One sector lands, with the error mark of what was read (R258, R369); a landing that is counted releases its fibres' writes first (R99). -/
def State.landSector (s : State) (c : Copy) (x : CopySector) : State :=
  let (d, poison) := x.data.getD (s.engineRead c.part c.tag x.src 32)
  let s :=
    if !s.engineWrites c.part c.pipe c.repl x.dst.key then s
    else
      let t := if x.dst.vers then s.writeTag c.part c.tag else 0
      let s := (s.homeWrite c.part c.tag x.dst d).noteEngineWrite c.uids x.dst.key
      if poison then s.markGranules (copyKey t x.dst.key) else s
  let s := match c.txb with
    | some k => (s.releaseFor c.uids).txbUpdate k fun t => { t with sectors := (t.sectors + 2 ^ 32 - 1) % 2 ^ 32 }
    | none => s
  s.updCopy c.id fun c => { c with left := c.left.filter (fun y => y.idx != x.idx), stuck := none }

/-- The record of an engine write that finds no way (R479), made for a fibre's work. -/
def State.wayRec (s : State) (part pipe repl uid tag key : Nat) : State :=
  let f := s.fibre uid
  let seq := (s.partn part).logHead
  let line := key / 128 * 128
  let s := s.report { cause := cVersionFull, detail := vacSlice line + vacSet line * 2 ^ 16, pipe := pipe, fid := f.fid, tag := s.writeTag part tag
                      pcore := s.coreOf f, lcore := some f.lcore, repl := repl, rpl := (s.pipe part pipe).repl != 0, part := some part }
  s.deliver part pipe seq none

/-- Cancel a BEAM, or fail it: its pin is released, and its token carries poison (R324, R334, R479). -/
def State.cancelBeam (s : State) (b : Beam) : State :=
  let s := { s with beams := s.beams.filter fun x => x.id != b.id }
  (s.unpinGen b.part b.ctx b.gen).writeToken ⟨b.part, b.grp, b.repl⟩ b.token ⟨0, true⟩

/-- A copy waits for the acknowledgement of its fibres' stores: before it reads, under .REL, and before a landing that a barrier counts (R99, R258). -/
def State.copyHeld (s : State) (c : Copy) : Bool := (c.rel || c.txb.isSome) && !s.allAcked c.uids

/-- COPY_SECTOR_LAND: a sector lands; one that finds no way waits for it up to 2^20 clocks (R479). -/
def execCopySectorLand (job sector : Nat) (s : State) : Host.Outcome State Fault Refusal :=
  match s.copy? job with
  | none => .next s
  | some c =>
    if !c.started || s.copyHeld c then .next s
    else
      let c := { c with left := s.preread c }
      let s := s.updCopy job fun _ => c
      match c.left.find? fun x => x.idx == sector with
      | none => .next s
      | some x =>
        let t := if x.dst.vers then s.writeTag c.part c.tag else 0
        match s.engineWay c.part t x.dst with
        | none =>
          if c.stuck.isSome then .next s
          else .next ((s.updCopy job fun c => { c with stuck := some s.clock }).timer (s.clock + 2 ^ 20) (.engineWayTimeout job))
        | some s =>
          let s := s.landSector c x
          match s.copy? job with
          | none => .next s
          | some c => .next (s.copyOn c)

/-- A request that has waited for a way since a clock fails now. -/
def wayExpired (clock : Nat) (since : Option Nat) : Bool := match since with | some k => decide (k + 2 ^ 20 ≤ clock) | none => false

/-- A reducing store is over, its writes made or not. -/
def State.dropReducing (s : State) (r : Reducing) : State :=
  { s with reducing := s.reducing.filter fun x => x.id != r.id }.acknowledge (reducingKey r.id)

/-- A record of a fibre's engine write that finds no way, for the work that is stuck at an address. -/
def State.reducingRec (s : State) (r : Reducing) : State :=
  s.wayRec r.part r.pipe r.repl r.uid r.tag ((r.left.map fun x => x.1.key).headD 0)

/-- ENGINE_WAY_TIMEOUT: the copy, the BEAM or the reducing store fails; a token is poisoned (R479). -/
def execEngineWayTimeout (job : Nat) (s : State) : Host.Outcome State Fault Refusal :=
  match s.copies.find? fun (c : Copy) => c.id == job && wayExpired s.clock c.stuck with
  | some c => .next ((s.wayRec c.part c.pipe c.repl (c.uids.headD 0) c.tag ((c.left.map fun x => x.dst.key).headD 0)).failCopy c)
  | none =>
    match s.beams.find? fun (b : Beam) => b.id == job && wayExpired s.clock b.stuck with
    | some b => .next ((s.wayRec b.part b.pipe b.repl b.uid b.tag ((b.rows.map fun x => x.2.key).headD 0)).cancelBeam b)
    | none =>
      match s.reducing.find? fun (r : Reducing) => r.id == job && wayExpired s.clock r.stuck with
      | some r => .next ((s.reducingRec r).dropReducing r)
      | none => .next s

/-- A copy that waited for acknowledgements or for a way may go on. -/
def State.copyReady (s : State) (c : Copy) : Bool :=
  c.started && c.left != [] && !s.copyHeld c &&
  !(s.agenda.any fun e => match e with | .copySectorLand j _ => j == c.id | _ => false) &&
  (c.stuck.isNone || (match c.left.find? fun x => x.idx == c.next with
    | some x => (s.engineWay c.part (if x.dst.vers then s.writeTag c.part c.tag else 0) x.dst).isSome
    | none => false))

/-- The copies that may go on do. -/
def State.settleCopies (s : State) : State :=
  s.copies.foldl (fun s c => if s.copyReady c || (c.started && c.left == []) then s.copyOn c else s) s

/-- Reducing stores end at a squash point or a rollback (R129, R385): the writes left to places that no tag versions stay, since they issued before;
the others vanish. -/
def State.cutReducing (s : State) (p : Reducing → Bool) : State :=
  (s.reducing.filter p).foldl (fun s r => (s.reduceOn { r with left := r.left.filter fun x => !x.1.vers }).dropReducing r) s

/-- The reducing stores that wait for a way go on where one is free. -/
def State.settleReducing (s : State) : State := s.reducing.foldl (fun s r => s.reduceOn r) s

/-- Cancel a copy: sectors not yet written stay unwritten, and the token carries poison (R133). -/
def State.cancelCopy (s : State) (c : Copy) : State :=
  ({ s with fibres := mapIf (fun (f : Fibre) => f.wait == Wait.prewalk c.id) Fibre.continues s.fibres }).failCopy c

/-! ### Leases (R260, R261) -/

/-- Lines of a range, with the first failure of a page check (R260). -/
def State.leaseLines (s : State) (f : Fibre) (ea form : Nat) : Nat → Nat → Except Stop (List (Loc × Nat))
  | _, 0 => .ok []
  | i, n + 1 =>
    match s.place f { ea := (ea + 128 * i) % 2 ^ 64, n := 4, form := form, acc := 2, irrev := true, align := 4 } with
    | .error st => .error st
    | .ok (ps, _) =>
      match s.leaseLines f ea form (i + 1) n with
      | .error st => .error st
      | .ok r => .ok (ps.map (fun p => (p.loc, p.win)) ++ r)

/-- The status of a lease of these lines (R260). -/
def State.leaseStatus (s : State) (lines : List (Loc × Nat)) (win n expiry : Nat) : Nat :=
  if n = 0 ∨ 4096 < n ∨ expiry = 0 then 4
  else if win ≠ 1 ∨ lines.any (fun l => l.2 != 1 || !l.1.cached || isHostKey l.1.key) then 3
  else
    let keys := lines.map fun l => l.1.key
    if keys.any fun k => 12 < s.leasedWays k + (keys.filter fun j => vacSlice j == vacSlice k && vacSet j == vacSet k).length then 1
    else if keys.any fun k => 64 ≤ (s.leases.filter fun l => l.lines.any fun j => vacSlice j == vacSlice k).length then 2
    else 0

/-- The body of LEASE. -/
def leaseBody (e : Ext) (s : State) (f : Fibre) (_ : List Nat) : Except Stop (State × List Nat) :=
  let ea := s.ea f e
  let c := (s.sreg f e.c.toNat).val.toNat
  let n := bits c 0 13
  let expiry := bits c 32 16
  match s.copyRight f with
  | some t => .error (.trap t)
  | none =>
    match s.poisonUse f ((usesOf 0x27 2 e).filter fun u => u.rd) with
    | some t => .error (.trap t)
    | none =>
      if ea % 128 ≠ 0 then .error (.trap (misalign ea 128))
      else
        match s.rangeCheck f ea (128 * n) e.win 2 with
        | some t => .error (.trap t)
        | none =>
          match s.leaseLines f ea e.win 0 n with
          | .error st => .error st
          | .ok lines =>
            let win := if e.win = 0 then windowOf ea else e.win
            let st := s.leaseStatus lines win n expiry
            if st ≠ 0 then .ok (s.setS f.groupId e.d.toNat (handleWord 0 0 st), [])
            else
              let h := (s.partn f.part).leaseCount + 1
              let due := s.clock + 1024 * expiry
              let s := s.updPart f.part fun p => { p with leaseCount := h }
              let s := { s with leases := s.leases ++ [({ part := f.part, handle := h, lines := lines.map fun (l : Loc × Nat) => l.1.key, expiry := due } : Lease)] }
              .ok ((s.setS f.groupId e.d.toNat (handleWord h 0 0)).timer due (.leaseExpire f.part h), [])

/-- LEASE. -/
def execLease (e : Ext) (s : State) : Host.Outcome State Fault Refusal :=
  s.issue { issueOf 0x27 2 e e.len with compare := true, once := true } (oncePerWave (leaseBody e))

/-- LREL. -/
def execLrel (e : Ext) (s : State) : Host.Outcome State Fault Refusal :=
  s.issue { issueOf 0x27 3 e e.len with compare := true, once := true } (notPoisoned (usesOf 0x27 3 e) (oncePerWave fun s f us =>
    let h := (s.srcA f e true).val.toNat / 2 ^ 32
    let mine (l : Lease) : Bool := l.part == f.part && l.handle == h
    .ok (({ s with leases := s.leases.filter fun l => !mine l }).setPredAll us e.pd.toNat (s.leases.any mine), [])))

/-- LEASE_EXPIRE. -/
def execLeaseExpire (part handle : Nat) (s : State) : Host.Outcome State Fault Refusal :=
  .next { s with leases := s.leases.filter fun l => !(l.part == part && l.handle == handle && l.expiry ≤ s.clock) }

end Sys2Proof.Machine
end

