-- ==== Sys2Proof/Machine/Matrix.lean ====
section
/-! DEFINITION. Majors 0x28 and 0x29: matrix steps, tiles and engine time (R268 to R288, R149). -/

namespace Sys2Proof.Machine

/-! ### Formats and fragments (R270, R271) -/

/-- The sister format of B under XB. -/
def sister (ty : OpType) : OpType :=
  match ty with
  | .e4m3 => .e5m2
  | .e5m2 => .e4m3
  | .s8 => .n8
  | .n8 => .s8
  | .f32 | .f16 | .bf16 | .e2m1 | .b32 | .b64 | .s16 | .s32 | .s64 | .n16 | .n32 | .n64 => ty

/-- The format of B. -/
def matTypeB (e : Ext) : OpType := if e.mod.getLsbD 3 then sister e.ty else e.ty

/-- Bits of an element, and elements of a fragment. -/
def matWidth (e : Ext) : Nat := if e.mod.getLsbD 4 then 4 else e.ty.width
def matK (e : Ext) : Nat := 24 * (32 / matWidth e)

/-- Registers of a fragment. -/
def fragRegs (e : Ext) : Nat := if e.ty = .e2m1 then 26 else 24

/-- The code of element `k` of a fragment. -/
def elemCode (w : Nat) (frag : List Word) (k : Nat) : Nat :=
  (nth 0 frag (k / (32 / w))).toNat / 2 ^ (w * (k % (32 / w))) % 2 ^ w

/-- The value of element `k`: for E2M1 times its block scale (R138). -/
def elemValue (ty : OpType) (frag : List Word) (k : Nat) : FV :=
  let v := (OpTypeFmt ty).value (elemCode ty.width frag k)
  if ty = .e2m1 then
    let s := k / 32
    let x := (nth 0 frag (24 + s / 4)).toNat / 2 ^ (8 * (s % 4)) % 256
    if x = 255 then .nan false else v.scaleBy ((x : Int) - 127)
  else v

/-- The integer of element `k`. -/
def elemInt (ty : OpType) (w : Nat) (frag : List Word) (k : Nat) : Int :=
  let x := elemCode w frag k
  if ty.signed ∧ 2 ^ (w - 1) ≤ x then (x : Int) - 2 ^ w else x

/-! ### One step (R149, R274) -/

/-- A power of two that every product's denominator divides. -/
def matScale : Nat := 2 ^ 320

/-- −0. -/
def FV.isNegZero (v : FV) : Bool := match v with | .num s n _ => s && n == 0 | .nan _ | .inf _ => false

/-- The exact sum of products; an exact zero is −0 where every product is, else +0 (R142). -/
def exactSum (ps : List FV) : FV :=
  if ps.any FV.isNan then .nan false
  else
    let up := ps.any fun p => match p with | .inf s => !s | .nan _ => false | .num .. => false
    let down := ps.any fun p => match p with | .inf s => s | .nan _ => false | .num .. => false
    if up && down then .nan false
    else if up then .inf false
    else if down then .inf true
    else
      let x : Int := ps.foldl (fun t p => t + p.signedNum * ((matScale / p.den : Nat) : Int)) 0
      .num (decide (x < 0) || (!ps.isEmpty && ps.all fun p => p.isNegZero)) x.natAbs matScale

/-- One element of C. -/
def stepElem (e : Ext) (a b : List Word) (c : Word) : Word :=
  if e.ty.isFloat then
    let ps := (List.range (matK e)).map fun k => ((elemValue e.ty a k).mul (elemValue (matTypeB e) b k)).1
    let x := ((OpTypeFmt .f32).value c.toNat).add 0 (exactSum ps)
    BitVec.ofNat 32 ((OpTypeFmt .f32).round 0 false false x.1).1
  else
    let w := matWidth e
    let s : Int := (List.range (matK e)).foldl (fun t k => t + elemInt e.ty w a k * elemInt (matTypeB e) w b k) 0
    BitVec.ofInt 32 (c.toInt + s)

/-- A row of words with its poison. -/
abbrev Row := List Word × Bool

/-- MatrixStep: rows of A, columns of B, rows of C; a poisoned operand poisons what is computed from it. -/
def matrixStep (e : Ext) (a b : List Row) (c : List (List PWord)) : List (List PWord) :=
  (List.range 16).map fun i => (List.range 16).map fun j =>
    let x := nth zeroWord (nth [] c i) j
    let ra := nth ([], false) a i
    let rb := nth ([], false) b j
    if ra.2 || rb.2 || x.poison then ⟨0, true⟩ else ⟨stepElem e ra.1 rb.1 x.val, false⟩

/-! ### Operands in memory (R276 to R278) -/

/-- A memory operand: WIN, BASE, ROWPITCH, ROT, TILEPITCH. -/
structure MatOp where
  vault : Bool
  base : Nat
  row : Nat
  rot : Nat
  tile : Nat
  deriving DecidableEq, Repr

/-- The operand that a descriptor pair describes. -/
def matOp (d0 d1 : DWord) : MatOp :=
  { vault := d0.getLsbD 20, base := bits d0.toNat 0 20, row := bits d0.toNat 32 21, rot := bits d1.toNat 32 4, tile := bits d1.toNat 0 21 }

/-- The offset of row `m` at chunk `c`. -/
def MatOp.at (o : MatOp) (m c : Nat) : Nat := o.base + m * o.row + c * o.tile

/-- The address of an offset in the operand's window. -/
def MatOp.address (o : MatOp) (f : Fibre) (off : Nat) : Nat :=
  if o.vault then 0x1FC0000000 * 2 ^ 27 + f.lcore * 2 ^ 20 + off else 0xFD000000000 * 2 ^ 20 + off

/-- The logical core that holds an offset. -/
def State.matCore (s : State) (f : Fibre) (o : MatOp) (off : Nat) : Nat :=
  if o.vault then f.onCore else s.replCore f (4 * (f.lcore / 4) + off / 2 ^ 18)

/-- The key of an offset. -/
def State.matKey (s : State) (f : Fibre) (o : MatOp) (off : Nat) : Nat :=
  if o.vault then vltKey (s.coreOf f) off else spdKey ((s.partn f.part).phys (s.matCore f o off)) off

/-- The check of one stretch of `n` bytes (R278, items 3 and 4). -/
def State.matPlace (s : State) (f : Fibre) (o : MatOp) (off n kind : Nat) : Option Stop :=
  let p := s.partn f.part
  let ends := [off, off + n - 1]
  let ea := o.address f off
  if !o.vault then
    if ends.any fun x => (p.phys? (s.matCore f o x)).isNone then some (.trap (permTrap ea kind 0 true)) else none
  else
    match ends.find? fun x => p.slab f.onCore (x / 2 ^ 18) == 2 with
    | some x => some (.trap { cause := cVaultDark, addr := ea, detail := f.onCore + x / 2 ^ 18 * 256 })
    | none =>
      match ends.find? fun x => p.waking.contains (f.onCore, x / 2 ^ 18) with
      | some x => some (.wait .waitMemory (.slab f.onCore (x / 2 ^ 18)))
      | none => (ends.find? fun x => p.slab f.onCore (x / 2 ^ 18) == 1).map fun x => .wake f.onCore (x / 2 ^ 18)

/-- R278 on an operand of `rows` rows and `chunks` chunks of `n` bytes: the stop, and the row at fault. -/
def State.matCheck (s : State) (f : Fibre) (o : MatOp) (rows chunks n kind : Nat) : Option (Stop × Nat) :=
  if o.base % 16 ≠ 0 ∨ o.row % 16 ≠ 0 ∨ o.tile % 16 ≠ 0 then some (.trap (misalign (o.address f o.base) 16), 0)
  else
    match (List.range rows).find? fun m => 2 ^ 20 < o.at m (chunks - 1) + n with
    | some m => some (.trap { cause := cWindowCross, addr := o.address f (o.at m (chunks - 1)), detail := if o.vault then 3 else 2 }, m)
    | none => (List.range rows).findSome? fun m => (List.range chunks).findSome? fun c => (s.matPlace f o (o.at m c) n kind).map fun st => (st, m)

/-- R278 on row `m` alone. -/
def State.matRow (s : State) (f : Fibre) (o : MatOp) (n kind m : Nat) : Option Stop :=
  if o.base % 16 ≠ 0 ∨ o.row % 16 ≠ 0 then some (.trap (misalign (o.address f o.base) 16))
  else if 2 ^ 20 < o.at m 0 + n then some (.trap { cause := cWindowCross, addr := o.address f (o.at m 0), detail := if o.vault then 3 else 2 })
  else s.matPlace f o (o.at m 0) n kind

/-- The stop is a trap. -/
def Stop.isTrap : Stop → Bool
  | .trap _ => true
  | _ => false

/-- Bytes of a fragment in memory. -/
def fragBytes (e : Ext) : Nat := 4 * fragRegs e

/-- A fragment row from memory: words rotated within the 96 bytes, the scale pair behind them (R277). -/
def State.memRow (s : State) (f : Fibre) (e : Ext) (o : MatOp) (m c : Nat) : Row :=
  let word (k : Nat) : Word × Bool := let q := s.matKey f o (o.at m c + 4 * k); (BitVec.ofNat 32 (s.readNat q 4), s.memPoison q)
  let ws := (List.range (fragRegs e)).map fun x => word (if x < 24 then (x + o.rot * m) % 24 else x)
  (ws.map fun w => w.1, ws.any fun w => w.2)

/-! ### Slots (R284 to R287) -/

/-- The slot in force. -/
def State.slotNow (s : State) : Nat := s.clock / 256 % 16

/-- The record of a slot. -/
def State.slotAt (s : State) (part core engine slot : Nat) : MxeSlot :=
  (s.mxe.find? fun m => m.part == part && m.core == core && m.engine == engine && m.slot == slot).getD
    { core := core, engine := engine, slot := slot, handle := 0, part := part, excl := false, next := none }

/-- A slot that a pipeline's request may use. -/
def MxeSlot.usable (m : MxeSlot) (handle : Nat) : Bool := m.handle == handle || m.handle == 0 || !m.excl

/-- The engine to which a request is bound (R285). -/
def State.bindEngine (s : State) (part core handle : Nat) : Option Nat :=
  (List.range 32).findSome? fun i =>
    if (s.slotAt part core (i % 2) ((s.slotNow + i / 2) % 16)).usable handle then some (i % 2) else none

/-- SLOT_OVERRUN with the engines that offer no slot (R511). -/
def State.slotTrap (s : State) (mask : Nat) : Trap := { cause := cSlotOverrun, detail := mask + s.slotNow * 256 }

/-- A request that is bound and waits: its order, its priority, its pipeline, and whether it is a tile. -/
structure MatReq where
  seq : Nat
  prio : Nat
  pipe : Nat
  tile : Bool
  id : Nat
  deriving DecidableEq, Repr

/-- The priority of a fibre's stage (R50). -/
def State.prioOf (s : State) (uid : Nat) : Nat := ((s.stageOf (s.fibre uid)).map fun r => r.prio).getD 0

/-- The requests bound to an engine. -/
def State.bound (s : State) (part core engine : Nat) : List MatReq :=
  (s.stepSets.filterMap fun x => match x.bound with
    | some (g, q) => if x.part = part ∧ x.core = core ∧ g = engine then
        some { seq := q, prio := s.prioOf ((x.signers.head?.map fun y => y.uid).getD 0), pipe := x.pipe, tile := false, id := x.id } else none
    | none => none) ++
  (s.tmmas.filter fun t => t.part == part && t.core == core && t.engine == engine).map fun t =>
    { seq := t.seq, prio := s.prioOf t.uid, pipe := t.pipe, tile := true, id := t.id }

/-- PickStep (R284). -/
def State.pickStep (s : State) (part core engine : Nat) : Option MatReq :=
  let rs := s.bound part core engine
  let sl := s.slotAt part core engine s.slotNow
  match if sl.handle ≠ 0 then minBy (fun r => r.seq) (rs.filter fun r => r.pipe == sl.handle) else none with
  | some r => some r
  | none => if sl.handle ≠ 0 ∧ sl.excl then none else minBy (fun r => r.prio * 2 ^ 64 + r.seq) rs

/-- Clocks of a step (R24). -/
def stepClocks : Nat := 12

/-- The clock of the next slot boundary. -/
def State.nextSlot (s : State) : Nat := (s.clock / 256 + 1) * 256

/-- An event is set, on the agenda or for a clock. -/
def State.isSet (s : State) (e : Event) : Bool := s.agenda.contains e || s.timers.any fun t => t.2 == e

/-- Set the event of the next slot boundary. -/
def State.watchSlots (s : State) : State := if s.isSet .mxeSlotBoundary then s else s.timer s.nextSlot .mxeSlotBoundary

/-- An idle engine with a request starts; one whose slot keeps its requests out looks again at the next boundary. -/
def State.kick (s : State) (part core engine : Nat) : State :=
  if s.isSet (.matrixStep part core engine) || s.isSet (.tsqStep part core engine) then s
  else
    match s.pickStep part core engine with
    | some _ => s.post (.matrixStep part core engine)
    | none => if s.bound part core engine = [] then s else s.watchSlots

/-! ### Step sets (R272, R273) -/

/-- The fragment registers of a signer's operand. -/
def Fibre.frag (f : Fibre) (n : Nat) (e : Ext) : List PWord := (List.range (fragRegs e)).map fun i => f.v (n + i)

/-- A is read from memory; B is. -/
def fromMemA (e : Ext) : Bool := e.mod.getLsbD 5
def fromMemB (e : Ext) : Bool := e.mod.getLsbD 6

/-- The first word of a signer's instruction. -/
def Signer.word (x : Signer) : Word := (encodeExt 0x28 (BitVec.ofNat 6 x.minor) x.e).headD 0

/-- The signer of the lowest row that satisfies `p`; of several on one row, that of the lowest quadrant, slot and lane. -/
def State.firstSigner (s : State) (xs : List Signer) (p : Signer → Bool) : Option Signer :=
  minBy (fun (x : Signer) => let f := s.fibre x.uid; ((x.row * 8 + f.quad) * 64 + f.slot) * 64 + f.lane) (xs.filter p)

/-- Check 1 of R273: the signer that the record names. -/
def State.setMismatch (s : State) (xs : List Signer) : Option Signer :=
  match s.firstSigner xs fun _ => true with
  | none => none
  | some ref =>
    let differs (x : Signer) : Bool :=
      s.coreOf (s.fibre x.uid) != s.coreOf (s.fibre ref.uid) || x.minor != ref.minor || x.e.mod != ref.e.mod || x.e.ty != ref.e.ty
    let bad (r : Nat) : Bool :=
      let mine := xs.filter fun x => x.row == r
      mine.length != 1 || mine.any differs
    match (List.range 16).find? bad with
    | none => none
    | some r =>
      match s.firstSigner xs fun x => x.row == r with
      | some x => some x
      | none => some ref

/-- The poisoned register of a signer's operands, the lowest (R273, R511). -/
def State.signerPoison (s : State) (x : Signer) : Option Trap :=
  let f := s.fibre x.uid
  let c := (List.range 16).filterMap fun i => if (nth zeroWord x.crow i).poison then some (x.e.d.toNat + i) else none
  let frag (n : Nat) : List Nat := (List.range (fragRegs x.e)).filterMap fun i => if (f.v (n + i)).poison then some (n + i) else none
  let vs := c ++ (if fromMemA x.e then [] else frag x.e.a.toNat) ++ (if fromMemB x.e then [] else frag x.e.b.toNat)
  let sreg (n i : Nat) : List Nat := if x.row = 0 ∧ (nth zeroDWord x.descs i).poison then [n] else []
  let ss := (if fromMemA x.e then sreg x.e.a.toNat 0 ++ sreg (x.e.a.toNat + 1) 1 else []) ++
    (if fromMemB x.e then sreg x.e.b.toNat 2 ++ sreg (x.e.b.toNat + 1) 3 else [])
  match minBy (fun n => n) vs, minBy (fun n => n) ss with
  | some n, _ => some { cause := cPoisonUse, detail := n }
  | none, some n => some { cause := cPoisonUse, detail := n + 512 }
  | none, none => none

/-- The memory operands of a set, from the descriptors of row 0; MMAS ignores TILEPITCH (R277). -/
def Signer.opA (x : Signer) : MatOp := { matOp (nth zeroDWord x.descs 0).val (nth zeroDWord x.descs 1).val with tile := 0 }
def Signer.opB (x : Signer) : MatOp := { matOp (nth zeroDWord x.descs 2).val (nth zeroDWord x.descs 3).val with tile := 0 }

/-- A signer of a row. -/
def signerOf (xs : List Signer) (r : Nat) : Option Signer := xs.find? fun x => x.row == r

/-- R278 on the memory operands of row `r` of a set whose row 0 is `z`'s: A's stop before B's. -/
def State.rowStop (s : State) (z : Signer) (r : Nat) : Option Stop :=
  let f := s.fibre z.uid
  let check (mem : Bool) (o : MatOp) : Option Stop := if mem then s.matRow f o (fragBytes z.e) 1 r else none
  (check (fromMemA z.e) z.opA).or (check (fromMemB z.e) z.opB)

/-- The checks 1 to 3 of R273: what stops the set, and the fibre of the lowest row whose operands fail. A slab that wakes stalls the set only
where no row fails. -/
def State.setStop (s : State) (x : StepSet) : Option (Stop × Nat) :=
  let xs := x.signers
  match s.setMismatch xs with
  | some y => some (.trap { cause := cIllegal, detail := y.word.toNat }, y.uid)
  | none =>
    match (List.range 16).findSome? fun r => (signerOf xs r).bind fun y => (s.signerPoison y).map fun t => (t, y.uid) with
    | some (t, u) => some (.trap t, u)
    | none =>
      match signerOf xs 0 with
      | none => none
      | some z =>
        let stops := (List.range 16).filterMap fun r => (s.rowStop z r).map fun st => (st, ((signerOf xs r).map fun y => y.uid).getD z.uid)
        (stops.find? fun x => x.1.isTrap).or stops.head?

/-- A set whose check fails: every signer is held at its instruction (R273). -/
def State.trapSet (s : State) (x : StepSet) (lead : Nat) (t : Trap) : State :=
  let s := { s with stepSets := s.stepSets.filter fun y => y.id != x.id }
  let held := (x.signers.map fun y => y.uid).filter fun u => (s.fibre u).live
  s.trap lead held t none (some ((x.signers.head?.map fun y => y.e.len).getD 12))

/-- A full set that is not bound: its checks, and its binding. -/
def State.bindSet (s : State) (x : StepSet) : State :=
  if x.bound.isSome ∨ x.signers.length < 16 then s
  else
    match s.setStop x with
    | some (.trap t, u) => s.trapSet x u t
    | some (.wake core k, _) => s.startWake x.part core k
    | some _ => s
    | none =>
      match s.bindEngine x.part x.core x.pipe with
      | none => s.trapSet x (((signerOf x.signers 0).map fun y => y.uid).getD 0) (s.slotTrap 3)
      | some g =>
        let (q, s) := s.fresh
        let s := { s with stepSets := mapIf (fun (y : StepSet) => y.id == x.id) (fun (y : StepSet) => { y with bound := some (g, q) }) s.stepSets }
        s.kick x.part x.core g

/-- Sets that waited for a slab of the vault. -/
def State.settleSets (s : State) : State := s.stepSets.foldl (fun s x => s.bindSet x) s

/-- The round that a fibre's MMA belongs to: the last one signed on the register, not yet used (R272). -/
def Fibre.roundOf (f : Fibre) (k : Nat) : Option Nat :=
  match (f.signed.filter fun x => x.1 == f.cur && x.2.1 == k).getLast? with
  | some (_, _, r, used) => if used then none else some r
  | none => none

/-- The checks of one fibre's MMA (R272): the round, or what stops it. -/
def State.mmaCheck (s : State) (f : Fibre) (e : Ext) : Except Trap Nat :=
  let k := modLow e 3
  if ((s.group f.groupId).cv k).size ≠ 16 then .error s.illegal
  else
    match f.roundOf k with
    | none => .error s.illegal
    | some r =>
      let i := f.v e.c.toNat
      if i.poison then .error { cause := cPoisonUse, detail := e.c.toNat }
      else if 15 < i.val.toNat then .error s.illegal else .ok r

/-- Enter a fibre's MMA into the set of its round (R273); the first one arms the watchdog (R484). -/
def State.joinSet (s : State) (minor : Nat) (e : Ext) (uid r : Nat) : State :=
  let f := s.fibre uid
  let k := modLow e 3
  let i := f.groupId
  let mine (x : StepSet) : Bool := x.part == f.part && x.grp == f.cur && x.repl == f.repl && x.cv == k && x.round == r
  let done := nth 0 ((s.group i).cv k).done r
  let (n, s) := if s.stepSets.any mine then (0, s) else
    let (n, s) := s.fresh
    let x : StepSet := { id := n, part := f.part, pipe := f.pipe, grp := f.cur, repl := f.repl, cv := k, round := r, completed := done
                         signers := [], core := f.onCore, bound := none }
    (n, ({ s with stepSets := s.stepSets ++ [x] }).timer (max s.clock (done + watchdog (s.pipeOf f).convwd)) (.convergeTimeout i k))
  let id := ((s.stepSets.find? mine).map fun x => x.id).getD n
  let d (b : Bool) (m : Nat) : PDWord := if b then s.sreg f m else zeroDWord
  let y : Signer :=
    { uid := uid, row := (f.v e.c.toNat).val.toNat, minor := minor, e := e, crow := (List.range 16).map fun j => f.v (e.d.toNat + j)
      descs := [d (fromMemA e) e.a.toNat, d (fromMemA e) (e.a.toNat + 1), d (fromMemB e) e.b.toNat, d (fromMemB e) (e.b.toNat + 1)] }
  let s := { s with stepSets := mapIf mine (fun x => { x with signers := x.signers ++ [y] }) s.stepSets }
  (s.acquire f 1).updFibre uid fun f => f.waitsPast .waitConverge (.stepSet id) e.len

/-- MMA and MMAS; a COMMITTING tag does not hold them (R288). -/
def mmaBody (minor : Nat) (e : Ext) : Body := fun s us =>
  match us.findSome? fun u => match s.mmaCheck (s.fibre u) e with | .error t => some t | .ok _ => none with
  | some t => .error (.trap t)
  | none =>
    let s := us.foldl (fun s u =>
      match s.mmaCheck (s.fibre u) e with
      | .error _ => s
      | .ok r =>
        let k := modLow e 3
        if r < ((s.group (s.fibre u).groupId).cv k).round then s.joinSet minor e u r
        else s.updFibre u fun f => f.waits .waitConverge (.mmaRound k r)) s
    .ok (s.settleSets, us)

/-- MMA. -/
def execMma (e : Ext) (s : State) : Host.Outcome State Fault Refusal := s.issue (issueOf 0x28 0 e e.len) (mmaBody 0 e)
/-- MMAS. -/
def execMmas (e : Ext) (s : State) : Host.Outcome State Fault Refusal := s.issue (issueOf 0x28 1 e e.len) (mmaBody 1 e)

/-- The operand rows of a set: from registers, or from memory at chunk 0. -/
def State.setRows (s : State) (x : StepSet) (mem : Ext → Bool) (op : Signer → MatOp) (reg : Ext → Nat) : List Row :=
  (List.range 16).map fun r =>
    match signerOf x.signers 0, signerOf x.signers r with
    | some z, some y =>
      if mem z.e then s.memRow (s.fibre z.uid) z.e (op z) r 0
      else
        let ws := (s.fibre y.uid).frag (reg y.e) y.e
        (ws.map fun w => w.val, ws.any fun w => w.poison)
    | _, _ => ([], false)

/-- The step of a set: every signer continues, its C row written (R274). -/
def State.runSet (s : State) (x : StepSet) : State :=
  let e := ((signerOf x.signers 0).map fun y => y.e).getD (plainExt 0)
  let a := s.setRows x fromMemA Signer.opA fun e => e.a.toNat
  let b := s.setRows x fromMemB Signer.opB fun e => e.b.toNat
  let c := (List.range 16).map fun r => ((signerOf x.signers r).map fun y => y.crow).getD []
  let out := matrixStep e a b c
  let s := { s with stepSets := s.stepSets.filter fun y => y.id != x.id }
  x.signers.foldl (fun s y => s.updFibre y.uid fun f =>
    if f.live then
      let f := { f with signed := mapIf (fun z => z.1 == x.grp && z.2.1 == x.cv && z.2.2.1 == x.round) (fun z => (z.1, z.2.1, z.2.2.1, true)) f.signed }
      (f.setRange y.e.d.toNat (nth [] out y.row)).continues
    else f) s

/-- A request stops the sets that a fibre has joined and whose operands are not read: every signer returns to its MMA (R288). -/
def State.returnSigners (s : State) (uid : Nat) : State :=
  let mine := s.stepSets.filter fun (x : StepSet) => x.signers.any fun y => y.uid == uid
  let s := { s with stepSets := s.stepSets.filter fun (x : StepSet) => !(x.signers.any fun y => y.uid == uid) }
  mine.foldl (fun s x => s.mapFibres fun f => if f.wait == .stepSet x.id then f.retry else f) s

/-! ### Tiles (R279 to R282) -/

/-- The shape word: MB, NB, KS, each plus one, and the number of steps. -/
def tileMB (d : DWord) : Nat := bits d.toNat 28 4 + 1
def tileNB (d : DWord) : Nat := bits d.toNat 32 4 + 1
def tileKS (d : DWord) : Nat := bits d.toNat 36 8 + 1
def tileT (d : DWord) : Nat := tileMB d * tileNB d * tileKS d

/-- The shape word with NEXT replaced. -/
def tileNext (d : DWord) (n : Nat) : DWord := BitVec.ofNat 64 (d.toNat / 2 ^ 9 * 2 ^ 9 + n % 2 ^ 9)

/-- The C operand: the layout of a first descriptor register. -/
def tileOpC (d : DWord) : MatOp := { matOp d 0 with rot := 0, tile := 0 }

/-- Two operands' byte ranges overlap. -/
def overlaps (o : MatOp) (rows chunks n : Nat) (p : MatOp) (rows' chunks' n' : Nat) : Bool :=
  o.vault == p.vault && decide (o.base < p.at (rows' - 1) (chunks' - 1) + n') && decide (p.base < o.at (rows - 1) (chunks - 1) + n)

/-- The checks of TMMA before the binding (R280). -/
def State.tmmaStop (s : State) (f : Fibre) (e : Ext) (a b : DWord × DWord) (c d : DWord) : Option Stop :=
  let oa := matOp a.1 a.2
  let ob := matOp b.1 b.2
  let oc := tileOpC c
  let ra := 16 * tileMB d
  let rb := 16 * tileNB d
  let ks := tileKS d
  let n := fragBytes e
  let rowC := 64 * tileNB d
  if bits d.toNat 44 20 ≠ 0 ∨ bits d.toNat 9 19 ≠ 0 ∨ 256 < tileT d ∨ tileT d < bits d.toNat 0 9 then some (.trap s.illegal)
  else if oc.row < rowC ∨ overlaps oc ra 1 rowC oa ra ks n ∨ overlaps oc ra 1 rowC ob rb ks n then some (.trap s.illegal)
  else
    match s.matCheck f oa ra ks n 1 with
    | some (st, _) => some st
    | none =>
      match s.matCheck f ob rb ks n 1 with
      | some (st, _) => some st
      | none =>
        -- C is checked with 4-byte elements
        if oc.base % 16 ≠ 0 ∨ oc.row % 16 ≠ 0 then some (.trap (misalign (oc.address f oc.base) 16))
        else (s.matCheck f oc ra 1 rowC 3).map fun r => r.1

/-- TMMA. -/
def tmmaBody (e : Ext) (s : State) (f : Fibre) (us : List Nat) : Except Stop (State × List Nat) :=
  match s.poisonUse f ((usesOf 0x28 2 e).filter fun u => u.rd) with
  | some t => .error (.trap t)
  | none =>
    let r (n : Nat) : DWord := (s.sreg f n).val
    let a := (r e.a.toNat, r (e.a.toNat + 1))
    let b := (r e.b.toNat, r (e.b.toNat + 1))
    let c := r e.c.toNat
    let d := r e.d.toNat
    match s.tmmaStop f e a b c d with
    | some st => .error st
    | none =>
      if bits d.toNat 0 9 = tileT d then .ok (s, [])
      else
        match s.bindEngine f.part f.onCore f.pipe with
        | none => .error (.trap (s.slotTrap 3))
        | some g =>
          let (id, s) := s.fresh
          let t : Tmma := { id := id, part := f.part, pipe := f.pipe, uid := f.uid, uids := us, grp := f.cur, repl := f.repl, core := f.onCore
                            engine := g, e := e, descA := a, descB := b, descC := c, shape := d, next := bits d.toNat 0 9, seq := id }
          let s := { s with tmmas := s.tmmas ++ [t] }
          .ok ((s.updAll us fun f => f.waitsPast .waitMemory (.tmma id) e.len).kick f.part f.onCore g, us)

/-- TMMA. -/
def execTmma (e : Ext) (s : State) : Host.Outcome State Fault Refusal := s.issue (issueOf 0x28 2 e e.len) (notCommitting (oncePerWave (tmmaBody e)))

/-- One tile step (R281): the state with block C written, and signed in row order as stores of the issuing fibre (R282). -/
def State.tileStep (s : State) (t : Tmma) : State :=
  let f := s.fibre t.uid
  let ks := tileKS t.shape
  let nb := tileNB t.shape
  let k := t.next % ks
  let n := t.next / ks % nb
  let m := t.next / (ks * nb)
  let oa := matOp t.descA.1 t.descA.2
  let ob := matOp t.descB.1 t.descB.2
  let oc := tileOpC t.descC
  let a := (List.range 16).map fun i => s.memRow f t.e oa (16 * m + i) k
  let b := (List.range 16).map fun i => s.memRow f t.e ob (16 * n + i) k
  let off (i j : Nat) : Nat := oc.base + (16 * m + i) * oc.row + 4 * (16 * n + j)
  let c := (List.range 16).map fun i => (List.range 16).map fun j =>
    let q := s.matKey f oc (off i j)
    if t.e.mod.getLsbD 7 ∧ k = 0 then zeroWord else ⟨BitVec.ofNat 32 (s.readNat q 4), s.memPoison q⟩
  let out := matrixStep t.e a b c
  (List.range 16).foldl (fun s i =>
    let row := nth [] out i
    let d := row.flatMap fun w => leBytes 4 w.val.toNat
    let s := (row.zip (List.range 16)).foldl (fun s (w, j) =>
      let q := s.matKey f oc (off i j)
      s.writeNat q 4 w.val.toNat) s
    let s := s.clearMarks (s.matKey f oc (off i 0)) 64
    let s := (row.zip (List.range 16)).foldl (fun s (w, j) => if w.poison then s.markGranule (s.matKey f oc (off i j)) else s) s
    s.updFibre t.uid fun g => g.signStore (oc.address f (off i 0)) d) s

/-- The TSQ writes s(D) with NEXT and lets go of its wave (R281, R282). -/
def State.endTile (s : State) (t : Tmma) : State :=
  let s := { s with tmmas := s.tmmas.filter fun x => x.id != t.id }
  s.setS ⟨t.part, t.grp, t.repl⟩ t.e.d.toNat ⟨tileNext t.shape t.next, false⟩

/-- Stop a tile at a step boundary: its wave issues the TMMA again (R282). -/
def State.stopTile (s : State) (t : Tmma) : State :=
  (s.endTile t).mapFibres fun f => if f.wait == .tmma t.id then f.retry else f

/-- A step of a tile; after the last one its wave continues. -/
def State.runTile (s : State) (t : Tmma) : State :=
  let s := s.tileStep t
  let t := { t with next := t.next + 1 }
  if tileT t.shape ≤ t.next then
    (s.endTile t).mapFibres fun f => if f.wait == .tmma t.id then f.continues else f
  else
    let (q, s) := s.fresh
    { s with tmmas := mapIf (fun (x : Tmma) => x.id == t.id) (fun _ => { t with seq := q }) s.tmmas }

/-! ### Engine events -/

/-- An engine that has begun a step looks for the next one when it ends. -/
def State.stepTaken (s : State) (part core engine : Nat) : State := s.timer (s.coreClock ((s.partn part).phys core) stepClocks) (.matrixStep part core engine)

/-- MATRIX_STEP: an engine starts the step that R284 picks. -/
def execMatrixStep (part core engine : Nat) (s : State) : Host.Outcome State Fault Refusal :=
  match s.pickStep part core engine with
  | none => .next (if s.bound part core engine = [] then s else s.watchSlots)
  | some r =>
    if r.tile then .next (s.post (.tsqStep part core engine))
    else
      match s.stepSets.find? fun x => x.id == r.id with
      | none => .next s
      | some x => .next ((s.runSet x).stepTaken part core engine)

/-- TSQ_STEP: the engine runs one step of a tile where R284 picks one. -/
def execTsqStep (part core engine : Nat) (s : State) : Host.Outcome State Fault Refusal :=
  match s.pickStep part core engine with
  | none => .next (if s.bound part core engine = [] then s else s.watchSlots)
  | some r =>
    if !r.tile then .next (s.post (.matrixStep part core engine))
    else
      match s.tmmas.find? fun t => t.id == r.id with
      | none => .next s
      | some t => .next ((s.runTile t).stepTaken part core engine)

/-- MZERO. -/
def execMzero (e : Ext) (s : State) : Host.Outcome State Fault Refusal :=
  s.vec 0x28 3 e e.len fun _ f => .ok (f.setRange e.d.toNat (List.replicate 16 zeroWord))

/-- The slot that a selector names: logical core, engine, slot. -/
def slotSel (a : DWord) : Nat × Nat × Nat := (bits a.toNat 0 7, bits a.toNat 7 1, bits a.toNat 8 4)

/-- The write of a slot that takes effect at the next boundary. -/
def State.mslot (s : State) (part : Nat) (sel : Nat × Nat × Nat) (handle : Nat) (excl : Bool) : State :=
  let (core, engine, slot) := sel
  let m := { s.slotAt part core engine slot with next := some (handle, excl) }
  let others := s.mxe.filter fun x => !(x.part == part && x.core == core && x.engine == engine && x.slot == slot)
  ({ s with mxe := others ++ [m] }).watchSlots

/-- MSLOT. -/
def execMslot (e : Ext) (s : State) : Host.Outcome State Fault Refusal :=
  s.issue { issueOf 0x29 0 e e.len with priv := true, compare := true, once := true } (oncePerWave fun s f us =>
    match s.poisonUse f ((usesOf 0x29 0 e).filter fun u => u.rd) with
    | some t => .error (.trap t)
    | none =>
      let sel := slotSel (s.srcA f e true).val
      let b := (s.srcB f e true .b64).val.toNat
      let handle := bits b 32 32
      let ok := ((s.partn f.part).phys? sel.1).isSome && (handle == 0 || (s.pipe f.part handle).runs)
      let s := s.setPredAll us e.pd.toNat ok
      .ok (if ok then s.mslot f.part sel handle (b % 2 == 1) else s, []))

/-- MSTAT. -/
def execMstat (e : Ext) (s : State) : Host.Outcome State Fault Refusal :=
  s.once 0x29 1 e e.len fun s f us =>
    match s.poisonUse f ((usesOf 0x29 1 e).filter fun u => u.rd) with
    | some t => .error (.trap t)
    | none =>
      let sel := slotSel (s.srcA f e true).val
      let ok := ((s.partn f.part).phys? sel.1).isSome
      let m := s.slotAt f.part sel.1 sel.2.1 sel.2.2
      let ready := min (s.bound f.part sel.1 sel.2.1).length 65535
      let x := m.handle * 2 ^ 32 + (if m.excl then 2 ^ 31 else 0) + s.slotNow * 2 ^ 20 + ready
      .ok ((s.setS f.groupId e.d.toNat ⟨if ok then BitVec.ofNat 64 x else 0, false⟩).setPredAll us e.pd.toNat ok, [])

/-- Slot writes take effect (R286); one for a pipeline that has ended leaves the slot unassigned. -/
def State.applySlots (s : State) : State :=
  let app (m : MxeSlot) : MxeSlot :=
    match m.next with
    | none => m
    | some (h, x) => if h = 0 ∨ (s.pipe m.part h).runs then { m with handle := h, excl := x, next := none }
                     else { m with handle := 0, excl := false, next := none }
  { s with mxe := (s.mxe.map app).filter fun m => m.handle != 0 || m.excl }

/-- An engine's table offers a pipeline a usable slot. -/
def State.offers (s : State) (part core engine handle : Nat) : Bool :=
  (List.range 16).any fun k => (s.slotAt part core engine k).usable handle

/-- The bound requests that a slot write leaves without a usable slot trap (R285). -/
def State.overrunSlots (s : State) : State :=
  let s := s.stepSets.foldl (fun s x =>
    match x.bound with
    | some (g, _) =>
      if s.offers x.part x.core g x.pipe then s
      else s.trapSet x (((signerOf x.signers 0).map fun y => y.uid).getD 0) (s.slotTrap (2 ^ g))
    | none => s) s
  s.tmmas.foldl (fun s t =>
    if s.offers t.part t.core t.engine t.pipe then s
    else
      let t' := s.slotTrap (2 ^ t.engine)
      let held := t.uids.filter fun u => (s.fibre u).wait == .tmma t.id
      (s.endTile t).trap t.uid held t' none (some t.e.len)) s

/-- MXE_SLOT_BOUNDARY: slot writes take effect, and engines whose slot kept requests out look again. -/
def execMxeSlotBoundary (s : State) : Host.Outcome State Fault Refusal :=
  let s := s.applySlots.overrunSlots
  let engines := (s.stepSets.filterMap fun x => x.bound.map fun b => (x.part, x.core, b.1)) ++
    s.tmmas.map fun t => (t.part, t.core, t.engine)
  .next (engines.foldl (fun s (p, c, g) => s.kick p c g) s)

end Sys2Proof.Machine
end

