-- ==== Sys2Proof/Machine/Futures.lean ====
section
/-! DEFINITION. Majors 0x2C and 0x2D, the commit and squash points of a tag, and the slots of a sink (R113 to R135, R289 to R304). -/

namespace Sys2Proof.Machine

/-! ### Tags of a partition -/

/-- FREE, LIVE, COMMITTING, SQUASHED and RECLAIMING (R125, R296). -/
def tagFree : Nat := 0
def tagLive : Nat := 1
def tagCommitting : Nat := 2
def tagSquashed : Nat := 3
def tagReclaiming : Nat := 4

/-- The state of a tag as a partition sees it: another partition's tag reads as FREE (R290). -/
def State.tagState (s : State) (part t : Nat) : Nat :=
  if t = 0 ∨ 63 < t ∨ (s.tagRec t).part ≠ part then tagFree else (s.tagRec t).state

/-- Tags of a partition that are not FREE (R113). -/
def State.tagsHeld (s : State) (part : Nat) : Nat := ((List.range 64).filter fun t => s.tagState part t != tagFree).length

/-- ALLOW of PART_RES (R388). -/
def Partition.allow (p : Partition) : Nat := bits p.res.toNat 0 4

/-- The tag into which a tag's versions merge: the open interval's where the split set's parent is the interval, else the trunk's (R114,
R302). -/
def State.parentTag (s : State) (t : Nat) : Nat :=
  let r := s.tagRec t
  if r.interval then (s.interval r.part).getD 0 else 0

/-! ### Versions that end -/

/-- Forget every version of a tag: lines, registrations, marks; a line that holds an overflow slot keeps it until the sweeper drops it
(R123, R475). -/
def State.dropVersions (s : State) (t : Nat) : State :=
  { s with l1 := s.l1.filter fun w => w.tag != t, registry := s.registry.filter fun r => r.tag != t
           vers := s.vers.filter fun v => v.tag != t, verLines := s.verLines.filter fun v => v.tag != t || v.slotted
           poisoned := s.poisoned.filter fun k => 4 * k / spaceSize != 16 + 2 * t && 4 * k / spaceSize != 17 + 2 * t }

/-- Merge one sector version of tag `t` into the copy of tag `p`: the bytes marked written (R127), and its poison mark (R475). DESIGN CHOICE
(notes/assumptions/72.md): the merge takes no way of the VAC for a version of an interval that it makes, of which R124 does not speak. -/
def State.mergeSector (s : State) (part t p : Nat) (v : VerRec) : State :=
  let home := v.sector * 32
  let g := s.knownGrain p home
  let marked := s.memPoison (verKey t home)
  let l (j : Nat) : Loc := { key := home + j, vers := p != 0, cached := true, grain := g }
  let word (s : State) (i : Nat) : State :=
    let d := s.bytes (verKey t (home + 4 * i)) 4
    let m := v.mask.extractLsb' (4 * i) 4
    if m = 15 then s.homeWriteAs part p (l (4 * i)) d
    else (List.range 4).foldl (fun s j => if m.getLsbD j then s.homeWriteAs part p (l (4 * i + j)) [d.getD j 0] else s) s
  let s := if v.mask = BitVec.allOnes 32 then s.homeWriteAs part p (l 0) (s.bytes (verKey t home) 32) else (List.range 8).foldl word s
  if marked then (s.createVersion part p (l 0)).markGranule (copyKey p home) else s

/-- Merge every version of tag `t` into the copy of tag `p`, the L1s' dirty words first (R127, R475). -/
def State.mergeVersions (s : State) (part t p : Nat) : State :=
  let s := s.writeBack fun w => w.tag == t
  let s := (s.vers.filter fun v => v.tag == t).foldl (fun s v => s.mergeSector part t p v) s
  s.dropVersions t

/-! ### Generations of a tag (R350) -/

/-- Retire the generation of a structure that is current for a tag. -/
def State.retireCurrent (s : State) (part ctx t : Nat) : State :=
  match (s.structCtx part ctx).bind fun c => c.gens.find? fun g => g.state == 1 && g.tag == t with
  | none => s
  | some g => (s.updGen part ctx g.num fun g => { g with state := 2 }).checkReclaim part ctx g.num

/-- At a commit point f's current generations and staged results become the parent's. -/
def State.commitGens (s : State) (part t p : Nat) : State :=
  (s.structs.filter fun c => c.part == part && c.live && c.top).foldl (fun s c =>
    let s := if c.gens.any fun g => g.state == 1 && g.tag == t then s.retireCurrent part c.idx p else s
    let s := if c.staged.any fun x => x.1 == t then s.dropStaged part c.idx fun x => x == p else s
    s.updStruct part c.idx fun c =>
      { c with gens := mapIf (fun g => g.state == 1 && g.tag == t) (fun g => { g with tag := p }) c.gens
               staged := mapIf (fun x => x.1 == t) (fun x => (p, x.2)) c.staged }) s

/-- At a squash point f's staged results are discarded and its current generations retire. -/
def State.squashGens (s : State) (part t : Nat) : State :=
  (s.structs.filter fun c => c.part == part && c.live && c.top).foldl (fun s c =>
    (s.dropStaged part c.idx fun x => x == t).retireCurrent part c.idx t) s

/-! ### Engine work of a tag -/

/-- Write a job's token in its group and in the groups of the replicas that have taken its leader's result; a follower that has not is given it
with that result (R346, R359). -/
def State.jobToken (s : State) (j : Job) (x : PDWord) : State :=
  let repls := (j.repl :: j.uids.map fun u => (s.fibre u).repl).eraseDups
  let s := repls.foldl (fun s r => s.writeToken ⟨j.part, j.grp, r⟩ j.token x) s
  let told (r : Fwd) : Fwd := if r.info == [0, 0, 0, j.id] then { r with info := [0, 0, 0, j.id, x.val.toNat, if x.poison then 1 else 0] } else r
  s.mapFibres fun f => { f with forwarded := f.forwarded.map told }

/-- Cancel a builder job: its token carries poison (R346). -/
def State.cancelJob (s : State) (j : Job) : State := ({ s with jobs := s.jobs.filter fun x => x.id != j.id }).jobToken j ⟨0, true⟩

/-- Cancel the copies, BEAMs and jobs that satisfy a test on their partition, pipeline and tag. -/
def State.cancelWork (s : State) (p : Nat → Nat → Nat → Bool) : State :=
  let s := (s.copies.filter fun c => p c.part c.pipe c.tag).foldl (fun s c => s.cancelCopy c) s
  let s := (s.beams.filter fun b => p b.part b.pipe b.tag).foldl (fun s b => s.cancelBeam b) s
  (s.jobs.filter fun j => p j.part j.pipe j.tag).foldl (fun s j => s.cancelJob j) s

/-- Drop the entries of a tag from every queue and port window, and its pending instances (R132). -/
def State.dropEntries (s : State) (part t : Nat) : State :=
  { s with
    pipes := mapIf (fun (p : Pipe) => p.part == part) (fun (p : Pipe) =>
      { p with queues := p.queues.map fun q => { q with entries := q.entries.filter fun e => e.tag != t }
               pending := p.pending.filter fun x => x.tag != t }) s.pipes
    ports := s.ports.map fun (x : Port) => if x.id.part = part then { x with window := x.window.filter fun e => e.close || e.entry.tag != t } else x }

/-! ### Squash -/

/-- Fibres that FUT.WAIT.DONE holds on a tag, or FUT.COMMIT, go on (R294, R297); the completion orders their later accesses. -/
def State.tagEvent (s : State) (p : Wait → Bool) : State :=
  let out := s.fibres.filter fun f => f.live && p f.wait
  let s := out.foldl (fun s f => s.selfInval (s.coreOf f)) s
  s.updAll (out.map fun f => f.uid) fun f => { f with served := true }.retry

/-- The squash point of a tag that is LIVE or COMMITTING (R129). -/
def State.squash (s : State) (t : Nat) : State :=
  let r := s.tagRec t
  let part := r.part
  if r.state ≠ tagLive ∧ r.state ≠ tagCommitting then s
  else
    let s := match r.answer with
      | some (i, n) => s.updGroup i fun g => { g with pend := g.pend.filter fun x => x != (n, none) }
      | none => s
    let s := s.updTag t fun r => { r with state := tagSquashed, flips := [], answer := none }
    let mine := (s.fibres.filter fun f => f.part == part && f.tag == t && f.live).map fun f => f.uid
    -- a FUT.COMMIT that a rollback or a reset ends finds the tag SQUASHED
    let s := s.mapFibres fun f => if f.wait == .commit t then f.retry else f
    let s := s.tagEvent fun w => w == .tagDone t
    let s := (s.tmmas.filter fun x => x.part == part && (s.fibre x.uid).tag == t).foldl (fun s x => s.stopTile x) s
    let s := (s.cancelWork fun p _ g => p == part && g == t).cutReducing fun r => r.part == part && r.tag == t
    let s := s.dropEntries part t
    let s := { s with groups := s.groups.map fun (g : Group) => { g with ord := g.ord.filter fun u => !(g.part == part && u.tag == t && u.loc.vers) } }
    let s := mine.foldl (fun s u => s.endFibre u true) s
    let s := (s.pipes.filter fun (p : Pipe) => p.part == part).foldl (fun s (p : Pipe) => s.checkPipe part p.handle) s
    let s := (s.dropVersions t).squashGens part t
    s.post (.squashDrainComplete t)

/-- SQUASH_DRAIN_COMPLETE: nothing of a squashed tag is left to drain (R125). -/
def execSquashDrainComplete (t : Nat) (s : State) : Host.Outcome State Fault Refusal :=
  if (s.tagRec t).state ≠ tagSquashed then .next s
  else .next ((s.updTag t fun r => { r with state := tagReclaiming }).post (.tagReclaimComplete t))

/-- The end of a DESTROY that waits for the partition's tags is given in System.lean. TAG_RECLAIM_COMPLETE: the tag is FREE, its overflow
slots with it (R125); the records of a set stay readable until its last member is FREE (R296). -/
def execTagReclaimComplete (t : Nat) (s : State) : Host.Outcome State Fault Refusal :=
  if (s.tagRec t).state ≠ tagReclaiming then .next s
  else
    let s := { s with verLines := s.verLines.filter fun v => v.tag != t }
    let s := s.updTag t fun _ => TagRec.reset
    .next (s.tagEvent fun w => w == .tagFree t)

/-! ### Sinks (R299) -/

/-- A flip becomes a sink's pending flip; a contract on the sink whose period runs has delivered its frame (R134, R403). -/
def State.makePending (s : State) (part k : Nat) (r : FlipRec) : State :=
  let s := s.updSink k fun x => { x with pending := some r }
  s.updPart part fun p => { p with contracts := p.contracts.map fun c =>
    if c.adm && c.start.isSome && bits c.reg.toNat 56 5 == k then { c with delivered := true } else c }

/-- The partition whose sink mask holds a sink (R399). -/
def State.sinkOwner (s : State) (k : Nat) : Option Nat := (List.range 16).find? fun p => (s.partn p).state != 0 && (s.partn p).res.getLsbD (32 + k)

/-! ### Commit -/

/-- A fibre's stores and atomics are acknowledged, with those of its journal performed. DESIGN CHOICE (notes/assumptions/83.md): the journal of a
fibre that the commit itself holds is not waited for, since no comparison point comes before the commit. -/
def Fibre.drained (f : Fibre) (t : Nat) : Bool := f.acked && (f.journal.isEmpty || f.wait == .commitHold t)

/-- Step 2 of R126 is done: stores and atomics acknowledged, copies and jobs with their tokens written, no entry in a window; and those of the
fibres that commit, as before any release (R80, R128). A fibre held at a trap is not waited for (R480). -/
def State.commitReady (s : State) (t : Nat) : Bool :=
  let part := (s.tagRec t).part
  (s.fibres.all fun f => !(f.part == part && f.tag == t && !f.drained t) && !(f.live && f.wait == .commit t && !f.acked)) &&
  (s.copies.all fun c => !(c.part == part && c.tag == t)) && (s.jobs.all fun j => !(j.part == part && j.tag == t)) &&
  s.ports.all fun x => !(x.id.part == part && x.window.any fun e => !e.close && e.entry.tag == t)

/-- Everything of tag `f` takes the parent: fibres, requests in flight, queue entries, pending instances, buffered updates (R126, R127,
R132, R334). -/
def State.retag (s : State) (part t : Nat) : State :=
  let moved (p g : Nat) : Nat := if p = part ∧ g = t then 0 else g
  let ent (e : QEntry) : QEntry := { e with tag := moved part e.tag }
  let s := s.mapFibres fun f => { f with tag := moved f.part f.tag, journal := f.journal.map fun x => { x with tag := moved f.part x.tag } }
  { s with
    loads := s.loads.map fun (r : LoadReq) => { r with tag := moved (s.fibre r.uid).part r.tag }
    rays := s.rays.map fun (r : Ray) => { r with tag := moved r.part r.tag }
    gathers := s.gathers.map fun (g : Gather) => { g with tag := moved g.part g.tag }
    beams := s.beams.map fun (b : Beam) => { b with tag := moved b.part b.tag }
    collects := s.collects.map fun (c : Collect) => { c with tag := moved c.part c.tag }
    groups := s.groups.map fun (g : Group) => { g with ord := g.ord.map fun u => { u with tag := moved g.part u.tag } }
    pipes := s.pipes.map fun (p : Pipe) => if p.part ≠ part then p else
      { p with queues := p.queues.map fun q => { q with entries := q.entries.map ent }
               pending := p.pending.map fun x => { x with tag := moved part x.tag, entry := x.entry.map ent } } }

/-- A tag is a member of the split set of tag `t`: allocated to its partition, with the same mask; a tag that became FREE and was split again is of
another set (R125, R295). -/
def State.sameSet (s : State) (t i : Nat) : Bool :=
  let r := s.tagRec t
  let x := s.tagRec i
  x.state != tagFree && x.part == r.part && x.set == r.set && r.set.getLsbD i

/-- The release side of a commit point (R128): the dirty words of the cores on which a fibre commits, and of those whose fibres wrote under the
tag. -/
def State.releaseTag (s : State) (part t : Nat) : State :=
  (s.fibres.filter fun f => (f.live && f.wait == .commit t) || (f.part == part && f.tag == t)).foldl (fun s f => s.release f) s

/-- The commit point of a COMMITTING tag, in one step (R126 to R129, R134, R350). -/
def State.commitPoint (s : State) (t : Nat) : State :=
  let r := s.tagRec t
  let part := r.part
  let p := s.parentTag t
  let mates := (List.range 64).filter fun i => s.sameSet t i
  let s := s.releaseTag part t
  let s := s.mergeVersions part t p
  let s := r.flips.foldl (fun s (k, f) => s.makePending part k f) s
  let movers := s.fibres.filter fun f => f.part == part && f.tag == t && f.live
  let s := s.retag part t
  -- the next instruction of each retagged fibre is ordered after the commit (R128)
  let s := movers.foldl (fun s f => s.selfInval (s.coreOf f)) s
  let s := s.commitGens part t p
  let s := { s with tags := (s.tags.zip (List.range s.tags.length)).map fun ((x, i) : TagRec × Nat) =>
    if mates.contains i then
      { x with winner := t, cmt := i == t, state := if i = t then tagReclaiming else x.state, flips := if i = t then [] else x.flips
               answer := if i = t then none else x.answer }
    else x }
  let s := match r.answer with
    | some (i, n) => (s.updGroup i fun g => { g.setS n ⟨0x100, false⟩ with pend := g.pend.filter fun x => x != (n, none) }).retryPending part
    | none => s
  let s := s.tagEvent fun w => w == Wait.commit t || w == Wait.tagDone t
  let s := mates.foldl (fun s i => if i ≠ t ∧ s.tagState part i = tagLive then s.squash i else s) s
  s.post (.tagReclaimComplete t)

/-- FUTURE_COMMIT_POINT. -/
def execFutureCommitPoint (t : Nat) (s : State) : Host.Outcome State Fault Refusal :=
  if (s.tagRec t).state = tagCommitting ∧ s.commitReady t then .next (s.commitPoint t) else .next s

/-- The commit points that can be taken are. -/
def State.settleCommits (s : State) : State :=
  (List.range 64).foldl (fun s t =>
    if (s.tagRec t).state = tagCommitting ∧ s.commitReady t ∧ !s.agenda.contains (.futureCommitPoint t) then s.post (.futureCommitPoint t) else s) s

/-! ### Instructions -/

/-- The trap of R290 for a wave that is not of the trunk. -/
def State.notTrunk (s : State) (f : Fibre) : Option Trap := if f.tag = 0 then none else some s.illegal

/-- Poison, then the trunk issuer (R290). -/
def futChecks (minor : Nat) (trunk : Bool) (e : Ext) (major : Nat := 0x2C) (k : State → Fibre → List Nat → Except Stop (State × List Nat)) :
    Body := oncePerWave fun s f us =>
  match s.poisonUse f ((usesOf major minor e).filter fun u => u.rd) with
  | some t => .error (.trap t)
  | none =>
    match if trunk then s.notTrunk f else none with
    | some t => .error (.trap t)
    | none => k s f us

/-- The tags that a split takes: the lowest FREE ones (R291). -/
def State.freeTags (s : State) (n : Nat) : List Nat := (((List.range 63).map fun i => i + 1).filter fun t => (s.tagRec t).state == tagFree).take n

/-- FUT.SPLIT. -/
def execFutSplit (e : Ext) (s : State) : Host.Outcome State Fault Refusal :=
  s.issue { issueOf 0x2C 0 e e.len with once := true } (futChecks 0 true e (k := fun s f _ =>
    let n := (s.srcB f e false .b64).val.toNat
    if n < 2 ∨ 8 < n then .error (.trap s.illegal)
    else
      let p := s.partn f.part
      if p.allow < s.tagsHeld f.part + n then
        .error (.trap { cause := cFutureLimit, detail := n + p.allow * 256 + s.tagsHeld f.part * 2 ^ 16 })
      else
        let ts := s.freeTags n
        let set : DWord := ts.foldl (fun m t => m ||| (1#64 <<< t)) 0
        let open_ := (s.interval f.part).isSome
        let s := ts.foldl (fun s t => s.updTag t fun _ =>
          { TagRec.reset with state := tagLive, part := f.part, set := set, interval := open_ }) s
        let s := s.setS f.groupId e.d.toNat ⟨BitVec.ofNat 64 (ts.headD 0), false⟩
        .ok (s.setS f.groupId (e.d.toNat + 1) ⟨set, false⟩, [])))

/-- FUT.ENTER, each fibre on its own (R292). DEDUCED (notes/assumptions/83.md): a replica's stores are acknowledged only once a comparison point has
performed them, so that a fibre with a journal passes a drain point first (R367). -/
def execFutEnter (e : Ext) (s : State) : Host.Outcome State Fault Refusal :=
  s.issue (issueOf 0x2C 1 e e.len)
    (notPoisoned ((usesOf 0x2C 1 e).filter fun u => u.rd) (illegalIf (fun _ f => f.tag != 0) (inLaneOrder fun s u =>
      let f := s.fibre u
      let t := (s.srcB f e false .b64).val.toNat
      if t = 0 then .ok (s.setPd u e true, false)
      else if s.replicatedFibre f && !f.journal.isEmpty then .ok (s.drainPoint [u], true)
      else if s.tagState f.part t ≠ tagLive then .ok (s.setPd u e false, false)
      else if f.acked && !s.loadsOut u then .ok (s.updFibre u fun f => { f.setPred e.pd.toNat true with tag := t }, false)
      else .ok (s.updFibre u fun f => f.waits .waitMemory .loadsAndAcks, true))))

/-- STATUS and FOUND of FUT.COMMIT and FUT.SQUASH (R293). -/
def State.tagStatus (s : State) (part t : Nat) : Nat :=
  let st := s.tagState part t
  if st = tagFree then 2 else if st = tagLive then 0x100 else 1 + st * 256

/-- The fibres of the wave whose awaited event has come go on; the others of it issue again (R206). -/
def servedOnly (s : State) (us : List Nat) : List Nat := us.filter fun u => (s.fibre u).served

/-- A sibling of a tag is COMMITTING. -/
def State.siblingCommits (s : State) (t : Nat) : Bool := (List.range 64).any fun i => i != t && s.sameSet t i && (s.tagRec i).state == tagCommitting

/-- FUT.COMMIT (R126, R293, R294). DEDUCED (notes/assumptions/84.md): at most one commit acts on a split set, so that one that finds a sibling
COMMITTING changes nothing: STATUS 0x01, with FOUND the tag's own state (R125). -/
def execFutCommit (e : Ext) (s : State) : Host.Outcome State Fault Refusal :=
  s.issue { issueOf 0x2C 2 e e.len with compare := true, once := true } (futChecks 2 true e (k := fun s f us =>
    let t := (s.srcA f e true).val.toNat
    let done := servedOnly s us
    if !done.isEmpty then .ok (s.setS f.groupId e.d.toNat ⟨0x100, false⟩, us.filter fun u => !done.contains u)
    else if s.tagState f.part t ≠ tagLive then .ok (s.setS f.groupId e.d.toNat ⟨BitVec.ofNat 64 (s.tagStatus f.part t), false⟩, [])
    else if s.siblingCommits t then .ok (s.setS f.groupId e.d.toNat ⟨0x101, false⟩, [])
    else
      let s := s.updTag t fun r => { r with state := tagCommitting, answer := some (f.groupId, e.d.toNat) }
      let s := s.updGroup f.groupId fun g => { g with pend := g.pend ++ [(e.d.toNat, none)] }
      .ok (s.updAll us fun f => f.waits .waitMemory (.commit t), us)))
/-- FUT.SQUASH (R293, R295). -/
def execFutSquash (e : Ext) (s : State) : Host.Outcome State Fault Refusal :=
  s.issue { issueOf 0x2C 3 e e.len with once := true } (futChecks 3 false e (k := fun s f us =>
    let t := (s.srcA f e true).val.toNat
    let st := s.tagState f.part t
    let s := s.setS f.groupId e.d.toNat ⟨BitVec.ofNat 64 (s.tagStatus f.part t), false⟩
    if st ≠ tagLive then .ok (s, [])
    else if t = f.tag then .ok (s.squash t, us) else .ok (s.squash t, [])))

/-- What FUT.STAT writes (R296). -/
def State.tagWord (s : State) (part t : Nat) : Nat × DWord :=
  if t = 0 then (7 + 16 + (if (s.interval part).isSome then 32 else 0), 0)
  else if s.tagState part t = tagFree then (0, 0)
  else
    let r := s.tagRec t
    let flips := r.flips.foldl (fun n x => n + 2 ^ (16 + x.1)) 0
    (r.state + 16 + (if r.interval then 32 else 0) + (if r.cmt then 64 else 0) + r.winner * 256 + flips, r.set)

/-- A read of FUT.STAT that observes a commit acquires it (R128, R294). -/
def State.acquireCommit (s : State) (f : Fibre) (t : Nat) : State :=
  let r := s.tagRec t
  if t ≠ 0 ∧ t ≤ 63 ∧ (s.tagState f.part t = tagFree ∨ (r.state = tagReclaiming ∧ r.cmt)) then s.selfInval (s.coreOf f) else s

/-- A follower's own side of a read that observes a commit. -/
def takeCommit (s : State) (f : Fibre) (_ : Fwd) : State := s.selfInval (s.coreOf f)

/-- FUT.STAT. -/
def execFutStat (e : Ext) (s : State) : Host.Outcome State Fault Refusal :=
  s.issue { issueOf 0x2C 4 e e.len with once := true, take := takeCommit } (futChecks 4 false e (k := fun s f _ =>
    let t := (s.srcA f e true).val.toNat
    let (x, m) := s.tagWord f.part t
    let s := s.acquireCommit f t
    let s := s.setS f.groupId e.d.toNat ⟨BitVec.ofNat 64 x, false⟩
    .ok (s.setS f.groupId (e.d.toNat + 1) ⟨m, false⟩, [])))

/-- FUT.WAIT (R297): `ended` says at which states it completes at once. -/
def futWait (e : Ext) (ended : Nat → Bool) (w : Nat → Wait) (s : State) : Host.Outcome State Fault Refusal :=
  s.issue { issueOf 0x2C 5 e e.len with once := true, take := takeCommit } (futChecks 5 false e (k := fun s f us =>
    let t := (s.srcA f e true).val.toNat
    let done := servedOnly s us
    if !done.isEmpty then .ok (s, us.filter fun u => !done.contains u)
    else if ended (s.tagState f.part t) then .ok (s.acquireCommit f t, [])
    else .error (.wait .waitMemory (w t))))

/-- FUT.WAIT.DONE. -/
def execFutWaitDone (e : Ext) (s : State) : Host.Outcome State Fault Refusal := futWait e (fun st => st != tagLive && st != tagCommitting) Wait.tagDone s
/-- FUT.WAIT.FREE. -/
def execFutWaitFree (e : Ext) (s : State) : Host.Outcome State Fault Refusal := futWait e (fun st => st == tagFree) Wait.tagFree s

/-- The checks of a FLIP's base (R298). -/
def flipCheck (base : Nat) : Option Trap :=
  if base % 256 ≠ 0 then some (misalign base 256)
  else if windowOf base ≠ 1 then some (permTrap base 1 6 false)
  else if base / 2 ^ 57 % 128 ≠ 0 then some { cause := cPageAbsent, addr := base }
  else none

/-- FLIP (R298, R299). -/
def execFlip (e : Ext) (s : State) : Host.Outcome State Fault Refusal :=
  s.issue { issueOf 0x2D 0 e e.len with compare := true, once := true } (notCommitting (futChecks 0 false e 0x2D fun s f us =>
    let base := (s.srcA f e true).val.toNat
    let b := (s.srcB f e true .b64).val.toNat
    let k := b % 32
    match flipCheck base with
    | some t => .error (.trap t)
    | none =>
      if 19 < k ∨ !(s.partn f.part).res.getLsbD (32 + k) then .ok (s.setPredAll us e.pd.toNat false, [])
      else if us.any fun u => !(s.fibre u).acked then .error (.wait .waitMemory .acks)
      else
        let r : FlipRec := { base := base, frame := b / 2 ^ 32 }
        let s := (s.release f).setPredAll us e.pd.toNat true
        .ok (if f.tag = 0 then s.makePending f.part k r
             else s.updTag f.tag fun t => { t with flips := (t.flips.filter fun x => x.1 != k) ++ [(k, r)] }, [])))

/-- ICKPT (R301). -/
def execIckpt (e : Ext) (s : State) : Host.Outcome State Fault Refusal :=
  s.issue { issueOf 0x2D 1 e e.len with once := true } (futChecks 1 true e 0x2D fun s f us =>
    let p := s.partn f.part
    let ok := p.intCtl.getLsbD 33 && !p.rollback
    let s := s.setPredAll us e.pd.toNat ok
    .ok (if ok then (s.updPart f.part fun p => { p with ickpt := true }).post (.intervalBoundary f.part) else s, []))

/-! ### Slots of a sink (R299, R399) -/

/-- Clocks between two slots of a sink, and from the enabling write to the first one: engine clocks at 1.2 GHz for a stream sink, frames at
the pixel clock for a display head (R24, R399). -/
def Sink.frameClocks (x : Sink) (k lines : Nat) : Nat :=
  if 4 ≤ k then max (bits x.time.toNat 32 32) 1200 * 3 / 2
  else
    let px := lines * (bits x.timing.toNat 24 16 + 1)
    max 1 (px * clocksPerMs / max 1 (bits x.pclk.toNat 0 32))

/-- Clocks from one slot to the next. -/
def Sink.period (x : Sink) (k : Nat) : Nat := x.frameClocks k (bits x.timing.toNat 40 16 + 1)
/-- Clocks from the write that sets EN to the first slot. -/
def Sink.firstSlot (x : Sink) (k : Nat) : Nat := x.frameClocks k (bits x.mode.toNat 32 16 + 1)

/-- Registers written while EN reads 1 take effect (R399). -/
def Sink.latch (x : Sink) : Sink :=
  { x with mode := x.nextMode.getD x.mode, time := x.nextTime.getD x.time, timing := x.nextTiming.getD x.timing, pclk := x.nextPclk.getD x.pclk
           nextMode := none, nextTime := none, nextTiming := none, nextPclk := none }

/-- Bytes of a pixel (R399). -/
def Sink.pixel (x : Sink) : Nat := if bits x.mode.toNat 52 4 = 3 then 8 else 4

/-- The addresses at which the pages of one row of a surface begin to be read. -/
def Sink.rowPages (x : Sink) (base y : Nat) : List Nat :=
  let a := base + y * (bits x.time.toNat 8 24 * 256)
  let last := a + x.pixel * (bits x.mode.toNat 16 16 + 1) - 1
  a :: (List.range (last / 4096 - a / 4096)).map fun i => (a / 4096 + i + 1) * 4096

/-- The first page of a surface that fails (R299): its address, and PAGE_PERM or PAGE_ABSENT. -/
def State.surfaceFault (s : State) (part : Nat) (x : Sink) (base : Nat) : Option (Nat × Nat) :=
  ((List.range (bits x.mode.toNat 32 16 + 1)).flatMap fun y => x.rowPages base y).findSome? fun a =>
    match if a < 2 ^ 57 then s.walk part a else none with
    | none => some (a % 2 ^ 64, cPageAbsent)
    | some e => if (pteOf e).r then none else some (a, cPagePerm)

/-- The acquire side of the sink's read, which is a DEVICE agent's (R79, R128): an owner that holds released words of the surface's pages writes
them back. -/
def State.acquireSurface (s : State) (part : Nat) (x : Sink) (base : Nat) : State :=
  let places := ((List.range (bits x.mode.toNat 32 16 + 1)).flatMap fun y => x.rowPages base y).filterMap fun a =>
    (s.walk part a).map fun e => ((pteOf e).loc a, 4096 - a % 4096)
  let tag (l : Loc) : Nat := if l.vers then (s.interval part).getD 0 else 0
  let read (w : L1Word) : Bool := places.any fun (l, n) => (w.tag == 0 || w.tag == tag l) && decide (l.key ≤ w.key) && decide (w.key < l.key + n)
  ((s.l1.filter fun w => w.rls && w.dirty != 0 && read w).map fun w => w.core).eraseDups.foldl (fun s c => s.promote c) s

/-- The sink reads its current surface; a failing read leaves the one shown before (R299, R460). -/
def State.showSurface (s : State) (part k : Nat) : State :=
  let x := s.sink k
  match x.current with
  | none => s.updSink k fun x => { x with shown := none }
  | some r =>
    match s.surfaceFault part x r.base with
    | none => (s.acquireSurface part x r.base).updSink k fun x => { x with shown := some r }
    | some (a, c) =>
      (s.report { cause := c, addr := a, detail := if c = cPagePerm then 1 else 0, detail2 := k, part := some part }).wakeSupervisor part

/-- A slot start of a contract's sink begins its period (R400). -/
def State.syncPeriods (s : State) (part k : Nat) : State :=
  (List.range 16).foldl (fun s i =>
    let c := s.contract part i
    if c.adm && c.sync && c.sink == k then s.post (.fscPeriodStart part i) else s) s

/-- SINK_SLOT_START (R299): writes take effect, the pending record becomes current, and the surface is read. The last slot is that at which
EN clears. -/
def execSinkSlotStart (k : Nat) (s : State) : Host.Outcome State Fault Refusal :=
  let x := s.sink k
  if 20 ≤ k ∨ !x.mode.getLsbD 63 ∨ s.clock < x.slotAt then .next s
  else
    let s := s.updSink k fun x => { x.latch with current := match x.pending with | some r => some r | none => x.current, pending := none }
    let s := match s.sinkOwner k with
      | some p => (s.showSurface p k).syncPeriods p k
      | none => s.updSink k fun x => { x with shown := none }
    let y := s.sink k
    if y.mode.getLsbD 63 then
      let due := s.clock + y.period k
      .next ((s.updSink k fun x => { x with slotAt := due }).timer due (.sinkSlotStart k))
    else .next (s.updSink k fun x => { x with shown := none })

end Sys2Proof.Machine
end

