-- ==== Sys2Proof/Machine/Geometry.lean ====
section
/-! DEFINITION. The arithmetic of traversal: transforms, the triangle test and its tie rule, the box test, the fixed visit order, hit
records (R308 to R315, R322, R323). -/

namespace Sys2Proof.Machine

/-! ### F32 arithmetic over exact values -/

/-- The value of an F32 word. -/
def fval (w : Word) : FV := (OpTypeFmt .f32).value w.toNat

/-- RoundF32 as a word (R311). -/
def toF32 (x : FV) : Word := BitVec.ofNat 32 ((OpTypeFmt .f32).round 0 false false x).1

/-- RoundF32 as a value. -/
def roundF32 (x : FV) : FV := fval (toF32 x)

/-- Exact sum, difference and product. -/
def FV.plus (a b : FV) : FV := (a.add 0 b).1
def FV.minus (a b : FV) : FV := (a.add 0 b.negate).1
def FV.times (a b : FV) : FV := (a.mul b).1

/-- Exact quotient. -/
def FV.over (a b : FV) : FV :=
  match a, b with
  | .nan _, _ | _, .nan _ => .nan false
  | .inf _, .inf _ => .nan false
  | .inf s, .num t _ _ => .inf (s != t)
  | .num s _ _, .inf t => .num (s != t) 0 1
  | .num s n d, .num t m c =>
    if m = 0 then (if n = 0 then .nan false else .inf (s != t)) else .num (s != t) (n * c) (d * m)

/-- Magnitude. -/
def FV.mag : FV → FV
  | .num _ n d => .num false n d
  | .inf _ => .inf false
  | .nan s => .nan s

/-- a ≤ b, for values that are not NaN. -/
def FV.le (a b : FV) : Bool := !a.isNan && !b.isNan && !b.lt a

/-- A finite number. -/
def FV.finite : FV → Bool
  | .num .. => true
  | .inf _ => false
  | .nan _ => false

def FV.zero : FV := .num false 0 1
def FV.half : FV := .num false 1 2

/-- Round53: a 53-bit significand under RNE, with unbounded exponent (R312). -/
def round53 (x : FV) : FV :=
  match x with
  | .num s n d =>
    if n = 0 then .num s 0 1
    else
      let k := floorLog2 n d - 52
      let (n', d') := scale (roundGrid n d k 0 s).1 1 k
      .num s n' d'
  | .inf s => .inf s
  | .nan s => .nan s

/-- A component of a vector. -/
def comp (v : List FV) (a : Nat) : FV := nth FV.zero v a

/-- A vector of three words. -/
def vec3 (ws : List Word) : List FV := (ws.take 3).map fval

/-! ### Transforms (R311) -/

/-- The exact sum of a row of M times a vector, with or without the translation, rounded once. -/
def rowTimes (m : List Word) (v : List FV) (row : Nat) (translate : Bool) : FV :=
  let at_ (j : Nat) : FV := fval (nth 0 m (4 * row + j))
  let s := (((at_ 0).times (comp v 0)).plus ((at_ 1).times (comp v 1))).plus ((at_ 2).times (comp v 2))
  roundF32 (if translate then s.plus (at_ 3) else s)

/-- A vector through a 3×4 matrix. -/
def transform (m : List Word) (v : List FV) (translate : Bool) : List FV := (List.range 3).map fun r => rowTimes m v r translate

/-! ### The triangle test (R312, R313) -/

/-- A zero edge from P to Q counts as inside: it is top or left; a positive det turns the edge round. -/
def edgeInside (detNeg : Bool) (p q : FV × FV) : Bool :=
  let (p, q) := if detNeg then (p, q) else (q, p)
  (q.2.eq p.2 && q.1.lt p.1) || q.2.lt p.2

/-- The axis of largest magnitude, ties to the lower axis. -/
def mainAxis (d : List FV) : Nat :=
  let k := if (comp d 0).mag.lt (comp d 1).mag then 1 else 0
  if (comp d k).mag.lt (comp d 2).mag then 2 else k

/-- A hit of the triangle test: t, u, v as words, and back. -/
structure TriHit where
  t : Word
  u : Word
  v : Word
  back : Bool
  deriving DecidableEq, Repr

/-- TriangleTest. -/
def triangleTest (o d a b c : List FV) : Option TriHit :=
  let kz := mainAxis d
  let neg := (comp d kz).lt FV.zero
  let kx := if neg then (kz + 2) % 3 else (kz + 1) % 3
  let ky := if neg then (kz + 1) % 3 else (kz + 2) % 3
  let sx := roundF32 ((comp d kx).over (comp d kz))
  let sy := roundF32 ((comp d ky).over (comp d kz))
  let sz := roundF32 ((FV.num false 1 1).over (comp d kz))
  let shear (p : List FV) : FV × FV × FV :=
    let q (k : Nat) : FV := roundF32 ((comp p k).minus (comp o k))
    (roundF32 ((q kx).minus (sx.times (q kz))), roundF32 ((q ky).minus (sy.times (q kz))), roundF32 (sz.times (q kz)))
  let (ax, ay, az) := shear a
  let (bx, by_, bz) := shear b
  let (cx, cy, cz) := shear c
  let cross (p q r s : FV) : FV :=
    let x := roundF32 ((roundF32 (p.times q)).minus (roundF32 (r.times s)))
    if x.isZero then round53 ((p.times q).minus (r.times s)) else x
  let u := cross cx by_ cy bx
  let v := cross ax cy ay cx
  let w := cross bx ay by_ ax
  let neg (x : FV) : Bool := x.lt FV.zero
  let pos (x : FV) : Bool := FV.zero.lt x
  if u.isNan || v.isNan || w.isNan then none
  else if (neg u || neg v || neg w) && (pos u || pos v || pos w) then none
  else
    let det := roundF32 ((u.plus v).plus w)
    if det.isNan || det.isZero then none
    else
      let dn := neg det
      let bad (x : FV) (p q : FV × FV) : Bool := x.isZero && !edgeInside dn p q
      if bad u (bx, by_) (cx, cy) || bad v (cx, cy) (ax, ay) || bad w (ax, ay) (bx, by_) then none
      else
        let tt := roundF32 (((u.times az).plus (v.times bz)).plus (w.times cz))
        let t := roundF32 (tt.over det)
        if tt.isNan || t.isNan then none
        else some { t := toF32 t, u := toF32 (u.over det), v := toF32 (v.over det), back := pos det }

/-! ### The box test (R314) -/

/-- The larger and the smaller of two values that are not NaN. -/
def FV.larger (a b : FV) : FV := if a.lt b then b else a
def FV.smaller (a b : FV) : FV := if b.lt a then b else a

/-- A finite bound moved outward by a part in 2^21 and rounded outward. -/
def widen (up : Bool) (x : FV) : FV :=
  if !x.finite then x
  else
    let e := x.mag.scaleBy (-21)
    fval (BitVec.ofNat 32 ((OpTypeFmt .f32).round (if up then 2 else 3) false false (if up then x.plus e else x.minus e)).1)

/-- One axis of the box test. -/
def boxAxis (o inv lo hi : List FV) (a : Nat) (nf : Option (FV × FV)) : Option (FV × FV) :=
  match nf with
  | none => none
  | some (near, far) =>
    if (comp hi a).lt (comp lo a) then none
    else
      let ta := ((comp lo a).minus (comp o a)).times (comp inv a)
      let tb := ((comp hi a).minus (comp o a)).times (comp inv a)
      let nan := ta.isNan || tb.isNan
      let n := if nan then .inf true else widen false (ta.smaller tb)
      let f := if nan then .inf false else widen true (ta.larger tb)
      some (near.larger n, far.smaller f)

/-- BoxTest: the near value of a hit. -/
def boxTest (o inv lo hi : List FV) (tmin tcur : FV) : Option FV :=
  match (List.range 3).foldl (fun x a => boxAxis o inv lo hi a x) (some (tmin, tcur)) with
  | some (near, far) => if near.le far then some near else none
  | none => none

/-! ### Traversal (R309, R315) -/

/-- A ray as the traversal takes it. -/
structure RayIn where
  o : List FV
  d : List FV
  tmin : FV
  tmax : FV
  mask : Nat
  cull : Nat
  opq : Nat
  first : Bool
  anyHit : Bool
  deriving DecidableEq, Repr

/-- (T, INST, GEOM, PRIM) is lexicographically smaller. -/
def Hit.better (a b : Hit) : Bool :=
  (fval a.t).lt (fval b.t) || ((fval a.t).eq (fval b.t) &&
    (a.inst < b.inst || (a.inst == b.inst && (a.geom < b.geom || (a.geom == b.geom && a.prim < b.prim)))))

/-- A traversal under way: the accepted hit, the best candidate skipped, the answers still to be given, the candidate that has none, and
whether it has stopped or was ended by HITEND; and the nodes visited, each (context, node). -/
structure Trav where
  acc : Option Hit
  skip : Option Hit
  left : List Nat
  shown : Option Hit
  stop : Bool
  byEnd : Bool
  seen : List (Nat × Nat)
  deriving DecidableEq, Repr

/-- T of the accepted hit, or tmax. -/
def Trav.tcur (st : Trav) (r : RayIn) : FV := match st.acc with | some h => fval h.t | none => r.tmax

/-- A hit becomes the accepted one. -/
def Trav.accept (st : Trav) (r : RayIn) (h : Hit) : Trav := { st with acc := some h, stop := r.first }

/-- A candidate meets the traversal. -/
def Trav.offer (st : Trav) (r : RayIn) (isOpaque : Bool) (h : Hit) : Trav :=
  if r.opq = 1 ∨ (r.opq = 0 ∧ isOpaque) then st.accept r h
  else if r.anyHit then
    match st.left with
    | [] => { st with shown := some h, stop := true }
    | 0 :: q => { st with left := q }
    | 1 :: q => { st with left := q }.accept r h
    | _ :: q => { st with left := q, acc := some h, stop := true, byEnd := true }
  else { st with skip := match st.skip with | some k => if h.better k then some h else some k | none => some h }

/-- One triangle, in the space of its structure. -/
def visitTri (r : RayIn) (o d : List FV) (inst : Nat) (x : Tri) (st : Trav) : Trav :=
  if st.stop then st
  else
    match triangleTest o d (vec3 x.verts) (vec3 (x.verts.drop 3)) (vec3 (x.verts.drop 6)) with
    | none => st
    | some q =>
      let t := fval q.t
      let h : Hit := { t := q.t, u := q.u, v := q.v, inst := inst, geom := x.geom, prim := x.prim, back := q.back }
      let culled := (r.cull = 1 ∧ q.back) ∨ (r.cull = 2 ∧ !q.back)
      let worse := match st.acc with | some a => !h.better a | none => false
      if !(r.tmin.le t && t.le r.tmax) || culled || worse then st else st.offer r x.isOpaque h

/-- The inverse directions (R314). -/
def inverses (d : List FV) : List FV := d.map fun x => roundF32 ((FV.num false 1 1).over x)

/-- A tree of a structure, depth first, the accepted children in ascending near value (R315); `fuel` bounds the depth. -/
def visitTree (ctx : Nat) (nodes : List BNode) (r : RayIn) (o inv : List FV) (leaf : Nat → Trav → Trav) : Nat → Nat → Trav → Trav
  | 0, _, st => st
  | n + 1, k, st =>
    if st.stop then st
    else
      match nodes[k]? with
      | none => st
      | some b =>
        let st := (sortBy (fun p => p) b.prims).foldl (fun st p => leaf p st) { st with seen := st.seen ++ [(ctx, b.id)] }
        let near (j : Nat) : Option (FV × Nat) :=
          (nodes[j]?).bind fun c => (boxTest o inv (vec3 c.lo) (vec3 c.hi) r.tmin (st.tcur r)).map fun x => (x, j)
        (sortNear (b.kids.filterMap near)).foldl (fun st x => visitTree ctx nodes r o inv leaf n x.2 st) st
where
  /-- Insert behind every child that is not farther. -/
  insertNear (x : FV × Nat) : List (FV × Nat) → List (FV × Nat)
    | [] => [x]
    | y :: q => if x.1.lt y.1 then x :: y :: q else y :: insertNear x q
  /-- Ascending near value, ties in the order of the child slots. -/
  sortNear (l : List (FV × Nat)) : List (FV × Nat) := l.foldl (fun acc x => insertNear x acc) []

/-- A bottom-level structure, in its own space. -/
def visitBottom (ctx : Nat) (g : GenData) (r : RayIn) (o d : List FV) (inst : Nat) (st : Trav) : Trav :=
  let inv := inverses d
  let leaf (p : Nat) (st : Trav) : Trav := match g.tris[p]? with | some x => visitTri r o d inst x st | none => st
  match g.nodes with
  | [] => st
  | root :: _ =>
    if (boxTest o inv (vec3 root.lo) (vec3 root.hi) r.tmin (st.tcur r)).isSome then visitTree ctx g.nodes r o inv leaf (g.nodes.length + 1) 0 st else st

/-- A top-level structure: each instance under MASK, the ray in its space. -/
def visitTop (ctx : Nat) (g : GenData) (blas : Nat → Nat → Option GenData) (r : RayIn) (st : Trav) : Trav :=
  let inv := inverses r.d
  let leaf (p : Nat) (st : Trav) : Trav :=
    match g.insts[p]? with
    | none => st
    | some x =>
      if st.stop || x.mask &&& r.mask == 0 then st
      else
        match blas x.ctx x.gen with
        | none => st
        | some b => visitBottom x.ctx b r (transform x.w2o r.o true) (transform x.w2o r.d false) x.index st
  match g.nodes with
  | [] => st
  | root :: _ =>
    if (boxTest r.o inv (vec3 root.lo) (vec3 root.hi) r.tmin (st.tcur r)).isSome then visitTree ctx g.nodes r r.o inv leaf (g.nodes.length + 1) 0 st
    else st

/-- A ray that misses at once (R308). -/
def RayIn.missesAtOnce (r : RayIn) : Bool :=
  r.o.any (fun x => !x.finite) || r.d.any (fun x => x.isNan) || r.tmin.isNan || r.tmax.isNan || r.d.all (fun x => x.isZero) || r.tmax.lt r.tmin

/-- The traversal of a ray with the answers given so far. -/
def traverse (top : Bool) (ctx : Nat) (g : GenData) (blas : Nat → Nat → Option GenData) (r : RayIn) (decisions : List Nat) : Trav :=
  let st : Trav := { acc := none, skip := none, left := decisions, shown := none, stop := false, byEnd := false, seen := [] }
  if r.missesAtOnce then st
  else if top then visitTop ctx g blas r st else visitBottom ctx g r r.o r.d 0 st

/-! ### Records (R310, R323) -/

/-- NONOPQ of a final record (R315). -/
def Trav.nonOpq (st : Trav) : Bool :=
  match st.skip, st.acc with
  | some k, some h => k.better h
  | some _, none => true
  | none, _ => false

/-- The record of a hit of a kind. -/
def hitRecord (h : Hit) (kind gen : Nat) (nonOpq : Bool) : List Word :=
  [h.t, h.u, h.v, BitVec.ofNat 32 h.prim, BitVec.ofNat 32 h.inst, BitVec.ofNat 32 h.geom,
   BitVec.ofNat 32 (kind + (if h.back then 8 else 0) + (if nonOpq then 16 else 0)), BitVec.ofNat 32 gen]

/-- A record of KIND 2 or 4. -/
def emptyRecord (kind gen : Nat) (nonOpq : Bool) : List Word :=
  List.replicate 6 0 ++ [BitVec.ofNat 32 (kind + if nonOpq then 16 else 0), BitVec.ofNat 32 gen]

/-- The final record of a traversal. -/
def Trav.record (st : Trav) (gen : Nat) : List Word :=
  match st.acc with
  | some h => hitRecord h (if st.byEnd then 3 else 1) gen st.nonOpq
  | none => emptyRecord 2 gen st.nonOpq

/-- A barycentric weight in 16 bits. -/
def weight16 (w : Word) : Nat :=
  let x := ((fval w).times (.num false 65535 1)).toInteger 0
  (max 0 (min x.1 65535)).toNat

/-- The visibility entry of a pixel. -/
def visEntry (st : Trav) : Nat :=
  match st.acc with
  | none => 0xFFFFFFFF + (if st.nonOpq then 2 ^ 62 else 0) + 0x7F800000 * 2 ^ 64
  | some h => h.prim % 2 ^ 32 + h.inst % 2 ^ 20 * 2 ^ 32 + h.geom % 2 ^ 8 * 2 ^ 52 + 2 ^ 60 + (if h.back then 2 ^ 61 else 0) +
      (if st.nonOpq then 2 ^ 62 else 0) + h.t.toNat * 2 ^ 64 + weight16 h.u * 2 ^ 96 + weight16 h.v * 2 ^ 112

/-- The entry of a pixel whose read failed: a miss. -/
def missEntry : Nat := 0xFFFFFFFF + 0x7F800000 * 2 ^ 64

/-- The direction of a pixel ray (R322). -/
def pixelDir (d0 dx dy : List FV) (px py : Nat) : List FV :=
  (List.range 3).map fun a =>
    let p (n : Nat) : FV := .num false (2 * n + 1) 2
    roundF32 ((roundF32 ((comp d0 a).plus ((p px).times (comp dx a)))).plus ((p py).times (comp dy a)))

end Sys2Proof.Machine
end

