-- ==== Sys2Proof/Machine/Render.lean ====
section
/-! DEFINITION. Majors 0x30 to 0x32: rays, beams, the shading atlas and textures, the vertical ports, and the events of the TRU, TFU and CVU
(R59, R305 to R336, R489, R491). -/

namespace Sys2Proof.Machine

/-! ### Operands -/

/-- Operands A, B and C where they are s-registers. -/
def State.sA (s : State) (f : Fibre) (e : Ext) : DWord := (s.sreg f e.a.toNat).val
def State.sB (s : State) (f : Fibre) (e : Ext) : DWord := (s.sreg f e.b.toNat).val
def State.sC (s : State) (f : Fibre) (e : Ext) : DWord := (s.sreg f e.c.toNat).val

/-- The reads of an instruction. -/
def readUses (major minor : Nat) (e : Ext) : List RegUse := (usesOf major minor e).filter fun u => u.rd

/-- The order of R306: a COMMITTING tag holds the wave (R334), then poison, then the instruction's own checks. -/
def renderChecks (major minor : Nat) (e : Ext) (b : Body) : Body := notCommitting (notPoisoned (readUses major minor e) b)

/-! ### Reads of the engines (R307) -/

/-- What an engine's read gives: bytes, and whether a word carries a memory-error mark; a wait; a failure; or the stop of the machine. -/
inductive Fetched where
  | data (d : List Byte) (bad : Bool)
  | waits (w : Wait)
  | fails (t : Trap)
  | stops (x : Fault)
  deriving DecidableEq, Repr

/-- What a stop is for a request of an engine: it starts what it waits for. -/
def State.engineStop (s : State) (f : Fibre) (st : Stop) : Fetched × State :=
  match st with
  | .trap t => (.fails t, s)
  | .wait _ w => (.waits w, s)
  | .service va acc => (.waits (.page ((s.partn f.part).servicePage va)), s.raiseService f.part va acc false)
  | .wake core k => (.waits (.slab core k), s.startWake f.part core k)
  | .hostLine line own => (.waits (.hostLine line), s.askHostLine f.uid line own)
  | .fault x => (.stops x, s)

/-- The current bytes of placed pieces. -/
def State.gatherPieces (s : State) (f : Fibre) (ps : List Piece) : List Byte × Bool :=
  let rs := ps.map fun p => s.engineRead f.part f.tag p.loc p.n
  (rs.flatMap fun r => r.1, rs.any fun r => r.2)

/-- The bytes of a plain load of placed pieces for the issuing fibre: its own journalled bytes lie over them (R367). -/
def State.plainPieces (s : State) (f : Fibre) (ps : List Piece) : List Byte × Bool :=
  let rs := ps.map fun p => let r := s.engineRead f.part f.tag p.loc p.n; (f.overlay p.va r.1, r.2 && !f.journalled p.va p.n)
  (rs.flatMap fun r => r.1, rs.any fun r => r.2)

/-- A gather read for a fibre (R307). -/
def State.gatherRead (s : State) (f : Fibre) (ea n form align : Nat) : Fetched × State :=
  match s.place f { ea := ea % 2 ^ 64, n := n, form := form, acc := 1, align := align } with
  | .error st => s.engineStop f st
  | .ok (ps, _) => let r := s.gatherPieces f ps; (.data r.1 r.2, s)

/-- A fibre as its request goes on with it: the request's tag, and the failure of a page it waited for. -/
def State.onBehalf (s : State) (uid tag : Nat) (w : EngineWait) : Fibre := { s.fibre uid with tag := tag, pageFail := w.pageFail }

/-- A request that waits for nothing. -/
def EngineWait.idle : EngineWait := { wait := .none, pageFail := none }

/-- Note a failing read of a call of an instruction (R489). -/
def State.noteFail (s : State) (call lead : Nat) (pc : DWord) (t : Trap) : State :=
  if s.gfails.any fun g => g.call == call then
    { s with gfails := mapIf (fun (g : GatherFail) => g.call == call) (fun (g : GatherFail) => { g with count := g.count + 1 }) s.gfails }
  else
    let g : GatherFail := { call := call, uid := lead, pc := pc, cause := t.cause, addr := t.addr, detail := t.detail, reason := t.detail2 % 256, count := 1 }
    { s with gfails := s.gfails ++ [g] }

/-- Requests of a call have not ended. -/
def State.callOpen (s : State) (call : Nat) : Bool :=
  (s.rays.any fun r => r.call == call && !(match r.ready with | some (_, final) => final | none => false)) ||
  s.gathers.any fun g => g.call == call

/-- The record of a call's failing gather reads (R489). -/
def State.failRecord (s : State) (g : GatherFail) : State :=
  let f := s.fibre g.uid
  let seq := (s.partn f.part).logHead
  let s := s.report { s.trapRec f { cause := g.cause, addr := g.addr, detail := g.detail, detail2 := g.reason + g.count * 2 ^ 32 } with
    pc := g.pc.toNat, rung := 0, prec := false }
  { s with gfails := s.gfails.filter fun x => x.call != g.call }.deliver f.part f.pipe seq none

/-- Records of calls whose requests have all ended. -/
def State.settleFails (s : State) : State := s.gfails.foldl (fun s g => if s.callOpen g.call then s else s.failRecord g) s

/-! ### Structures and generations (R316, R337, R347, R350) -/

/-- The structure that a handle names in a partition; none where it is stale. -/
def State.structOf (s : State) (part : Nat) (h : DWord) : Option StructCtx :=
  let n := h.toNat
  if n / 2 ^ 32 ≠ 0 ∨ bits n 10 1 = 1 ∨ bits n 12 20 = 0 then none
  else (s.structCtx part (bits n 0 10)).filter fun c => c.seq == bits n 12 20 && c.top == (bits n 11 1 == 1)

/-- The generation that a fibre of a tag sees as current (R350). -/
def State.currentGen (s : State) (part tag : Nat) (c : StructCtx) : Option Gen :=
  ((if c.top then s.chain part tag else []) ++ [0]).findSome? fun t => c.gens.find? fun g => g.state == 1 && g.tag == t

/-- GEN_RETIRED (R491). -/
def genTrap (h : DWord) (gen : Option Nat) (reason : Nat) : Trap :=
  { cause := cGenRetired, detail := h.toNat % 2 ^ 32 + gen.getD 0 * 2 ^ 32, detail2 := reason }

/-- The structure and generation that a ray or a BEAM uses: the current one, or the one given, which the pipeline pins (R316, R348). -/
def State.useGen (s : State) (f : Fibre) (h : DWord) (gen : Option Nat) : Except Trap (StructCtx × Gen) :=
  match s.structOf f.part h with
  | none => .error (genTrap h gen 0)
  | some c =>
    match gen with
    | none => match s.currentGen f.part f.tag c with | some g => .ok (c, g) | none => .error (genTrap h gen 1)
    | some n =>
      match c.gens.find? fun g => g.num == n with
      | some g =>
        if (s.pipeOf f).pins.contains (c.idx, n) then .ok (c, g)
        else .error (genTrap h gen (if g.state = 1 then 2 else 3))
      | none => .error (genTrap h gen (if 0 < n ∧ n ≤ c.maxGen then 3 else 2))

/-- A generation of a partition by context and number. -/
def State.genOf (s : State) (part ctx gen : Nat) : Option Gen := (s.structCtx part ctx).bind fun c => c.gens.find? fun g => g.num == gen

/-- The data of a generation. -/
def State.genData (s : State) (part ctx gen : Nat) : Option GenData := (s.genOf part ctx gen).map fun g => g.data

/-- Pin a generation for a ray or a BEAM. -/
def State.pinGen (s : State) (part ctx gen : Nat) : State := s.updGen part ctx gen fun g => { g with pins := g.pins + 1 }

/-- A place in a structure's arena: where a node lies, with the boxes of its children and the triangles of a leaf (R338;
notes/assumptions/16.md). An arena page that is not a DIRECT, cacheable page of device memory fails like one without the permission. -/
def State.arenaPlace (s : State) (f : Fibre) (c : StructCtx) (node acc : Nat) : Except Stop Loc :=
  let va := c.arena + Config.nodeOffset c.idx node % max 1 c.size / 32 * 32
  match s.translate f va va acc with
  | .error st => .error st
  | .ok (e, _) =>
    let p := pteOf e
    let loc := p.loc va
    if p.host ∨ p.vers ∨ !p.cached then .error (.trap (permTrap va acc 4 false))
    else if deviceSize ≤ loc.key % spaceSize then .error (.fault (.noSuchDeviceAddress (loc.key % spaceSize)))
    else .ok loc

/-- The reads of nodes, each (context, node), in the order of the traversal (R307, R315): the first that waits, fails or stops ends them;
else whether one met a memory-error mark. -/
def State.arenaReads (s : State) (f : Fibre) : List (Nat × Nat) → Fetched × State
  | [] => (.data [] false, s)
  | (ctx, node) :: r =>
    match s.structCtx f.part ctx with
    | none => s.arenaReads f r
    | some c =>
      match s.arenaPlace f c node 1 with
      | .error st => s.engineStop f st
      | .ok loc => if s.memPoison loc.key then (.data [] true, s) else s.arenaReads f r

/-! ### Rays (R308 to R320) -/

/-- GEN of a control word, under GENV. -/
def ctlGen (c : DWord) : Option Nat := if c.getLsbD 12 then some (bits c.toNat 32 32) else none

/-- The ray of eight words under a control word. -/
def rayIn (ws : List Word) (c : DWord) (anyHit : Bool) : RayIn :=
  { o := vec3 ws, tmin := fval (nth 0 ws 3), d := vec3 (ws.drop 4), tmax := fval (nth 0 ws 7), mask := bits c.toNat 0 8
    cull := bits c.toNat 8 2, opq := bits c.toNat 10 2, first := c.getLsbD 13, anyHit := anyHit }

/-- The traversal of a ray slot with the answers given so far. -/
def State.traverseRay (s : State) (r : Ray) : Trav :=
  let g := (s.genData r.part r.ctx r.gen).getD { nodes := [], tris := [], insts := [], counts := [], sah := 0, overlap := 0, refits := 0, degen := 0, baseSah := 0 }
  let top := ((s.structCtx r.part r.ctx).map fun c => c.top).getD false
  traverse top r.ctx g (s.genData r.part) (rayIn r.words r.ctl r.bound) r.decisions

/-- The checks of TRACE in one fibre (R316). -/
def State.traceCheck (s : State) (f : Fibre) (e : Ext) (ah : Bool) : Except Trap (StructCtx × Gen) :=
  let c := s.sC f e
  if bits c.toNat 8 2 = 3 ∨ bits c.toNat 10 2 = 3 then .error s.illegal
  else
    match s.useGen f (s.sB f e) (ctlGen c) with
    | .error t => .error t
    | .ok r => if ah ∧ f.boundRay.isSome then .error s.illegal else .ok r

/-- Place one fibre's ray: its generation is pinned at issue. -/
def State.placeRay (e : Ext) (ah : Bool) (call lead : Nat) (s : State) (u : Nat) : State :=
  let f := s.fibre u
  match s.traceCheck f e ah with
  | .error _ => s
  | .ok (c, g) =>
    let (id, s) := s.fresh
    let r : Ray := { id := id, part := f.part, uid := u, lead := lead, core := f.onCore, repl := f.repl, ctx := c.idx, gen := g.num, tag := f.tag
                     words := (List.range 8).map fun k => (f.v (e.a.toNat + k)).val, ctl := s.sC f e, bound := ah, dst := e.d.toNat, placed := false
                     decisions := [], shown := false, ready := none, call := call, pc := f.pc, eng := EngineWait.idle }
    let s := ({ s with rays := s.rays ++ [r] }).pinGen f.part c.idx g.num
    let s := if ah then s.updFibre u fun f => { f with boundRay := some id }
      else { s with pendV := s.pendV ++ (List.range 8).map fun k => (u, e.d.toNat + k) }
    s.sendDown f.part f.onCore 0 id

/-- TRACE. -/
def trace (e : Ext) (ah : Bool) (s : State) : Host.Outcome State Fault Refusal :=
  s.issue (issueOf 0x30 0 e e.len) (renderChecks 0x30 0 e fun s us =>
    match us.findSome? fun u => match s.traceCheck (s.fibre u) e ah with | .error t => some t | .ok _ => none with
    | some t => .error (.trap t)
    | none =>
      let (call, s) := s.fresh
      .ok (sendInOrder (State.placeRay e ah call (us.headD 0)) s us))

/-- TRACE. -/
def execTrace (e : Ext) (s : State) := trace e false s
/-- TRACE.AH. -/
def execTraceAh (e : Ext) (s : State) := trace e true s

/-- Free a ray's slot and release its pin (R319). -/
def State.freeRay (s : State) (r : Ray) : State := ({ s with rays := s.rays.filter fun x => x.id != r.id }).unpinGen r.part r.ctx r.gen

/-- Change a ray. -/
def State.updRay (s : State) (id : Nat) (g : Ray → Ray) : State := { s with rays := mapIf (fun (r : Ray) => r.id == id) g s.rays }

/-- A ray's final record: written at once, or ready for RAYGET (R316, R317). -/
def State.endRay (s : State) (r : Ray) (rec : List Word) : State :=
  if r.bound then
    (s.updRay r.id fun r => { r with ready := some (rec, true) }).updFibre r.uid fun f => if f.wait == .ray then f.retry else f
  else
    let s := (s.freeRay r).updFibre r.uid fun f => if f.live then f.setRange r.dst (rec.map fun w => ⟨w, false⟩) else f
    ({ s with pendV := s.pendV.filter fun x => !(x.1 == r.uid && r.dst ≤ x.2 && x.2 < r.dst + 8) }).retryPending r.part

/-- A candidate waits for RAYGET. -/
def State.presentRay (s : State) (r : Ray) (h : Hit) : State :=
  (s.updRay r.id fun r => { r with ready := some (hitRecord h 0 r.gen false, false) }).updFibre r.uid fun f => if f.wait == .ray then f.retry else f

/-- A ray whose traversal may go on. -/
def State.rayRuns (s : State) (r : Ray) : Bool := r.placed && !r.shown && r.ready.isNone && r.eng.wait == .none && !(s.fibre r.uid).saved

/-- Traversal runs to its next candidate or to its end; `cand` says which the event reports. A node that cannot be read ends it with KIND 4 (R310). -/
def State.runRay (s : State) (id : Nat) (cand : Bool) : Host.Outcome State Fault Refusal :=
  match s.rays.find? fun r => r.id == id with
  | none => .next s
  | some r =>
    if !s.rayRuns r then .next s
    else
      let st := s.traverseRay r
      match s.arenaReads (s.onBehalf r.uid r.tag r.eng) st.seen with
      | (.stops x, _) => .fault x
      | (.waits w, s) => .next (s.updRay id fun r => { r with eng := { r.eng with wait := w } })
      | (.fails t, s) => .next ((s.noteFail r.call r.lead r.pc t).endRay r (emptyRecord 4 r.gen false))
      | (.data _ bad, s) =>
        if bad then .next (s.endRay r (emptyRecord 4 r.gen false))
        else
          match st.shown with
          | some h => if cand then .next (s.presentRay r h) else .next s
          | none => if cand then .next s else .next (s.endRay r (st.record r.gen))

/-- RAY_TRAVERSAL_END. -/
def execRayTraversalEnd (ray : Nat) (s : State) : Host.Outcome State Fault Refusal := s.runRay ray false
/-- RAY_CANDIDATE_READY. -/
def execRayCandidateReady (ray : Nat) (s : State) : Host.Outcome State Fault Refusal := s.runRay ray true

/-- Rays that may go on do. -/
def State.settleRays (s : State) : State :=
  s.rays.foldl (fun s r =>
    if !s.rayRuns r || s.isSet (.rayTraversalEnd r.id) || s.isSet (.rayCandidateReady r.id) then s
    else s.post (if (s.traverseRay r).shown.isSome then .rayCandidateReady r.id else .rayTraversalEnd r.id)) s

/-- The ray a fibre is bound to. -/
def State.bound? (s : State) (f : Fibre) : Option Ray := f.boundRay.bind fun id => s.rays.find? fun r => r.id == id

/-- One fibre's RAYGET. -/
def State.raygetOne (s : State) (e : Ext) (u : Nat) : State × Bool :=
  match s.bound? (s.fibre u) with
  | none => (s, false)
  | some r =>
    match r.ready with
    | none => (s.updFibre u fun f => f.waits .parkedHit .ray, true)
    | some (rec, final) =>
      let s := s.updFibre u fun f => f.setRange e.d.toNat (rec.map fun w => ⟨w, false⟩)
      (if final then (s.freeRay r).updFibre u fun f => { f with boundRay := none }
       else s.updRay r.id fun r => { r with shown := true, ready := none }, false)

/-- RAYGET. -/
def execRayget (e : Ext) (s : State) : Host.Outcome State Fault Refusal :=
  s.issue (issueOf 0x30 5 e e.len) (notCommitting (illegalIf (fun s f => match s.bound? f with | none => true | some r => r.shown)
    (portRoom none (inLaneOrder fun s u => .ok (s.raygetOne e u)))))

/-- Decide the candidate that RAYGET delivered (R318): 0 rejected, 1 accepted, 2 accepted as the end. -/
def decideHit (minor answer : Nat) (e : Ext) (s : State) : Host.Outcome State Fault Refusal :=
  s.issue (issueOf 0x30 minor e e.len) (notCommitting (illegalIf (fun s f => match s.bound? f with | none => true | some r => !r.shown) (portRoom none fun s us =>
    .ok (us.foldl (fun s u =>
      match s.bound? (s.fibre u) with
      | none => s
      | some r => s.updRay r.id fun r => { r with shown := false, decisions := r.decisions ++ [answer] }) s, []))))

/-- HITACC. -/
def execHitacc (e : Ext) (s : State) := decideHit 2 1 e s
/-- HITREJ. -/
def execHitrej (e : Ext) (s : State) := decideHit 3 0 e s
/-- HITEND. -/
def execHitend (e : Ext) (s : State) := decideHit 4 2 e s

/-! ### Beams (R321 to R324) -/

/-- A view record. -/
structure View where
  origin : List Word
  tmin : Word
  d0 : List Word
  tmax : Word
  dx : List Word
  dy : List Word
  vis : Nat
  pitch : Nat
  deriving Repr

/-- The view record of 128 bytes; none where a field is invalid. -/
def parseView (d : List Byte) : Option View :=
  let x := ofLeBytes d
  let ws := wordsOfBytes d
  let pitch := bits x 576 32
  let vis := bits x 512 64
  if bits x 608 416 ≠ 0 ∨ bits x 480 32 ≠ 0 ∨ bits x 352 32 ≠ 0 ∨ pitch = 0 ∨ pitch % 256 ≠ 0 ∨ vis % 256 ≠ 0 then none
  else some { origin := ws.take 3, tmin := nth 0 ws 3, d0 := (ws.drop 4).take 3, tmax := nth 0 ws 7, dx := (ws.drop 8).take 3
              dy := (ws.drop 12).take 3, vis := vis, pitch := pitch }

/-- The tile of a tile word. -/
def tileX (c : DWord) : Nat := bits c.toNat 0 16
def tileY (c : DWord) : Nat := bits c.toNat 16 16

/-- The ray of a pixel (R322). -/
def View.pixelRay (v : View) (c : DWord) (px py : Nat) : RayIn :=
  { o := vec3 v.origin, d := pixelDir (vec3 v.d0) (vec3 v.dx) (vec3 v.dy) px py, tmin := fval v.tmin, tmax := fval v.tmax
    mask := bits c.toNat 32 8, cull := bits c.toNat 40 2, opq := 0, first := false, anyHit := false }

/-- The traversals of a tile's pixels, row by row. -/
def State.tileRays (s : State) (part : Nat) (v : View) (c : DWord) (ctx : StructCtx) (g : Gen) : List (List Trav) :=
  (List.range 8).map fun j => (List.range 8).map fun i =>
    traverse ctx.top ctx.idx g.data (s.genData part) (v.pixelRay c (8 * tileX c + i) (8 * tileY c + j)) []

/-- The address of a row of the tile's entries (R323). -/
def View.rowAddr (v : View) (c : DWord) (j : Nat) : Nat := (v.vis + (8 * tileY c + j) * v.pitch + 128 * tileX c) % 2 ^ 64

/-- The pre-walk of the eight rows. -/
def State.beamRows (s : State) (f : Fibre) (v : View) (c : DWord) (j : Nat) : Nat → Except Stop (List (Nat × Loc))
  | 0 => .ok []
  | n + 1 =>
    match s.place f { ea := v.rowAddr c j, n := 128, form := 1, acc := 2, align := 1 } with
    | .error st => .error st
    | .ok (ps, _) =>
      match s.beamRows f v c (j + 1) n with
      | .error st => .error st
      | .ok r => .ok ((v.rowAddr c j, (ps.map fun p => p.loc).headD ⟨0, false, false, 0⟩) :: r)

/-- The entries of a tile as bytes: `none` writes the tile as misses. -/
def entryBytes (es : Option (List (List Nat))) : List (List Byte) :=
  match es with
  | some rows => rows.map fun row => row.flatMap fun e => leBytes 16 e
  | none => List.replicate 8 ((List.replicate 8 missEntry).flatMap fun e => leBytes 16 e)

/-- Sign the entries as stores, in ascending py and then px (R335). -/
def Fibre.signBeam (f : Fibre) (rows : List (Nat × Loc)) (data : List (List Byte)) : Fibre :=
  (rows.zip data).foldl (fun f (r, d) => (List.range 8).foldl (fun f i => f.signStore (r.1 + 16 * i) ((d.drop (16 * i)).take 16)) f) f

/-- Queue a BEAM whose checks have passed. Its entries are those of the generation that it pins, which never changes; the CVU reads its nodes before
it writes them (R324). -/
def State.queueBeam (s : State) (e : Ext) (f : Fibre) (us : List Nat) (c : StructCtx) (g : Gen) (rows : List (Nat × Loc)) (rays : List (List Trav))
    (call : Nat) : State :=
  let (id, s) := s.fresh
  let es := rays.map fun row => row.map visEntry
  let data := entryBytes (some es)
  let hits := (es.flatMap fun r => r.filter fun x => x / 2 ^ 60 % 2 == 1).length
  let b : Beam := { id := id, part := f.part, pipe := f.pipe, uid := f.uid, grp := f.cur, repl := f.repl, token := e.d.toNat, tag := f.tag, ctx := c.idx
                    gen := g.num, uids := us, rows := rows, data := data, hits := hits, reads := (rays.flatMap fun row => row.flatMap fun t => t.seen).eraseDups
                    got := none, placed := false, call := call, pc := f.pc, eng := EngineWait.idle, stuck := none }
  let s := (({ s with beams := s.beams ++ [b] }).pinGen f.part c.idx g.num).updGroup f.groupId fun g => { g with pend := g.pend ++ [(e.d.toNat, none)] }
  (s.updAll us fun f => f.signBeam rows data).sendDown f.part f.onCore 2 id

/-- The body of BEAM after its view record is read. -/
def State.beamOn (s : State) (e : Ext) (f : Fibre) (us : List Nat) (v : View) : Except Stop (State × List Nat) :=
  let c := s.sC f e
  if bits c.toNat 40 2 = 3 then .error (.trap s.illegal)
  else
    match s.useGen f (s.sA f e) none with
    | .error t => .error (.trap t)
    | .ok (st, g) =>
      match s.beamRows f v c 0 8 with
      | .error x => .error x
      | .ok rows =>
        if (s.vport f.part f.onCore).full then .ok (s.updAll us fun f => f.waits .waitMemory (.port true), us)
        else
          let (call, s) := s.fresh
          .ok (s.queueBeam e f us st g rows (s.tileRays f.part v c st g) call, [])

/-- BEAM. -/
def execBeam (e : Ext) (s : State) : Host.Outcome State Fault Refusal :=
  s.issue (issueOf 0x30 1 e e.len) (renderChecks 0x30 1 e (oncePerWave fun s f us =>
    let va := (s.sB f e).toNat
    match s.place f { ea := va, n := 128, form := 0, acc := 1, align := 128 } with
    | .error st => .error st
    | .ok (ps, ws) =>
      let (d, bad) := s.plainPieces f ps
      if bad then .ok (s.setS f.groupId e.d.toNat ⟨0, true⟩, [])
      else
        match parseView d with
        | none => .error (.trap s.illegal)
        | some v => (s.keepWalks f ws).beamOn e f us v))

/-- Change a BEAM. -/
def State.updBeam (s : State) (id : Nat) (g : Beam → Beam) : State := { s with beams := mapIf (fun (b : Beam) => b.id == id) g s.beams }

/-- A BEAM whose entries may be written. -/
def State.beamWays (s : State) (b : Beam) : Option State :=
  b.rows.foldl (fun s r => s.bind fun s =>
    s.engineWay b.part (if r.2.vers then s.writeTag b.part b.tag else 0) r.2) (some s)

/-- The entries that a BEAM writes: misses, where a read of it has failed (R324). -/
def Beam.entries (b : Beam) : List (List Byte) := if b.got = some false then entryBytes none else b.data

/-- The entries of a BEAM land (R323, R369). -/
def State.landBeam (s : State) (b : Beam) : State :=
  (b.rows.zip b.entries).foldl (fun s (r, d) =>
    if s.engineWrites b.part b.pipe b.repl r.2.key then
      let s := s.noteEngineWrite b.uids r.2.key
      (List.range 8).foldl (fun s i => s.homeWrite b.part b.tag { r.2 with key := r.2.key + 16 * i } ((d.drop (16 * i)).take 16)) s
    else s) s

/-- The end of a BEAM whose nodes are read: the entries land, and the token with them (R324); entries that find no way wait for it (R479). -/
def State.finishBeam (s : State) (b : Beam) : State :=
  if !s.allAcked b.uids then s
  else
    match s.beamWays b with
    | none =>
      if b.stuck.isSome then s
      else (s.updBeam b.id fun x => { x with stuck := some s.clock }).timer (s.clock + 2 ^ 20) (.engineWayTimeout b.id)
    | some s =>
      let s := s.landBeam b
      if b.got = some false then s.cancelBeam b
      else
        let s := { s with beams := s.beams.filter fun x => x.id != b.id }
        (s.unpinGen b.part b.ctx b.gen).completeToken b.uids ⟨b.part, b.grp, b.repl⟩ b.token (BitVec.ofNat 64 b.hits)

/-- BEAM_COMPLETE: the nodes are read, once (R307), and the BEAM ends. -/
def execBeamComplete (beam : Nat) (s : State) : Host.Outcome State Fault Refusal :=
  match s.beams.find? fun b => b.id == beam && b.placed && b.eng.wait == .none with
  | none => .next s
  | some b =>
    if b.got.isSome then .next (s.finishBeam b)
    else
      let read (s : State) (ok : Bool) : State := (s.updBeam beam fun x => { x with got := some ok }).finishBeam { b with got := some ok }
      match s.arenaReads (s.onBehalf b.uid b.tag b.eng) b.reads with
      | (.stops x, _) => .fault x
      | (.waits w, s) => .next (s.updBeam beam fun x => { x with eng := { x.eng with wait := w } })
      | (.fails t, s) => .next (read (s.noteFail b.call b.uid b.pc t) false)
      | (.data _ bad, s) => .next (read s !bad)

/-- A BEAM in its engine may go on: its nodes may be read, or its entries written. -/
def State.beamRuns (s : State) (b : Beam) : Bool :=
  b.placed && b.eng.wait == .none && (b.got.isNone || (s.allAcked b.uids && !(b.stuck.isSome && (s.beamWays b).isNone)))

/-- BEAMs in their engine go on. -/
def State.settleBeams (s : State) : State :=
  s.beams.foldl (fun s b => if s.beamRuns b && !s.isSet (.beamComplete b.id) then s.post (.beamComplete b.id) else s) s

/-! ### Texture descriptors (R329) -/

/-- A texture: format, last level, width, height, base. -/
structure Tex where
  fmt : Nat
  mips : Nat
  w : Nat
  h : Nat
  base : Nat
  deriving DecidableEq, Repr

/-- A texture descriptor; none where a field is invalid. -/
def parseTex (x : Nat) : Option Tex :=
  let t : Tex := { fmt := bits x 100 4, mips := bits x 96 4, h := bits x 80 16 + 1, w := bits x 64 16 + 1, base := bits x 0 64 }
  if bits x 104 152 ≠ 0 ∨ 5 < t.fmt ∨ Nat.log2 (max t.w t.h) < t.mips ∨ t.base % 256 ≠ 0 then none else some t

/-- Bytes of a texel. -/
def Tex.bytes (t : Tex) : Nat := nth 1 [1, 4, 2, 8, 4, 16] t.fmt
/-- Width, height and row pitch of a level. -/
def Tex.lw (t : Tex) (m : Nat) : Nat := max 1 (t.w / 2 ^ m)
def Tex.lh (t : Tex) (m : Nat) : Nat := max 1 (t.h / 2 ^ m)
def Tex.pitch (t : Tex) (m : Nat) : Nat := 256 * ((t.lw m * t.bytes + 255) / 256)
/-- The address of a texel. -/
def Tex.addr (t : Tex) (m x y : Nat) : Nat :=
  (t.base + (List.range m).foldl (fun n k => n + t.pitch k * t.lh k) 0 + y * t.pitch m + x * t.bytes) % 2 ^ 64

/-- The components of a texel from its bytes. -/
def Tex.comps (t : Tex) (d : List Byte) : List FV :=
  let unorm (k : Nat) : FV := roundF32 (.num false (nth 0 d k).toNat 255)
  let half (k : Nat) : FV := (OpTypeFmt .f16).value (ofLeBytes ((d.drop (2 * k)).take 2))
  let single (k : Nat) : FV := fval (BitVec.ofNat 32 (ofLeBytes ((d.drop (4 * k)).take 4)))
  let one : FV := .num false 1 1
  match t.fmt with
  | 0 => [unorm 0, FV.zero, FV.zero, one]
  | 1 => [unorm 0, unorm 1, unorm 2, unorm 3]
  | 2 => [half 0, FV.zero, FV.zero, one]
  | 3 => [half 0, half 1, half 2, half 3]
  | 4 => [single 0, FV.zero, FV.zero, one]
  | _ => [single 0, single 1, single 2, single 3]

/-! ### Filtering (R330 to R332) -/

/-- A fraction: numerator and denominator. -/
structure Frac where
  n : Int
  d : Nat
  deriving DecidableEq, Repr

/-- The exact value of a word that is neither NaN nor infinite. -/
def fracOf (w : Word) : Option Frac :=
  let v := fval w
  if v.finite then some { n := v.signedNum, d := v.den } else none

/-- Floor, and the fraction above it. -/
def Frac.floor (x : Frac) : Int := x.n / (x.d : Int)
def Frac.rest (x : Frac) : Nat := (x.n % (x.d : Int)).toNat

/-- Round n/d to the nearest integer, ties to even. -/
def roundEven (n d : Nat) : Nat :=
  let q := n / d
  let r := n % d
  if d < 2 * r ∨ (2 * r = d ∧ q % 2 = 1) then q + 1 else q

/-- Q8 of the fraction above the floor, in 256ths. -/
def Frac.q8 (x : Frac) : Nat := roundEven (x.rest * 256) x.d

/-- u × W − 1/2. -/
def Frac.texel (u : Frac) (w : Nat) : Frac := { n := 2 * u.n * (w : Int) - (u.d : Int), d := 2 * u.d }

/-- A footprint at a level: the texel, and the weights of its neighbours in 256ths. -/
structure Foot where
  m : Nat
  i : Int
  j : Int
  fx : Nat
  fy : Nat
  deriving DecidableEq, Repr

/-- The footprint of Level. -/
def footOf (bilinear : Bool) (m w h : Nat) (u v : Frac) : Foot :=
  if bilinear then
    let x := u.texel w
    let y := v.texel h
    { m := m, i := x.floor, j := y.floor, fx := x.q8, fy := y.q8 }
  else { m := m, i := ({ u with n := u.n * (w : Int) } : Frac).floor, j := ({ v with n := v.n * (h : Int) } : Frac).floor, fx := 0, fy := 0 }

/-- The texels of a footprint, with their weights (horizontal, vertical). -/
def Foot.taps (f : Foot) : List ((Int × Int) × Nat × Nat) :=
  [((f.i, f.j), 256 - f.fx, 256 - f.fy), ((f.i + 1, f.j), f.fx, 256 - f.fy), ((f.i, f.j + 1), 256 - f.fx, f.fy), ((f.i + 1, f.j + 1), f.fx, f.fy)]

/-- An address mode: the index within the size, or none for the border. -/
def texIndex (mode : Nat) (x : Int) (size : Nat) : Option Nat :=
  match mode with
  | 0 => some (x % (size : Int)).toNat
  | 1 => some (max 0 (min x ((size : Int) - 1))).toNat
  | 2 => let t := (x % (2 * (size : Int))).toNat; some (if t < size then t else 2 * size - 1 - t)
  | _ => if 0 ≤ x ∧ x < (size : Int) then some x.toNat else none

/-- What a request samples: footprints with weights in 256ths, and how a texel index becomes a place; none where the result is zero. -/
structure Plan where
  feet : List (Foot × Nat)
  place : Nat → Int × Int → Option (Nat × Nat)

/-- The level of a level of detail: Clamp(RoundRNE(lod), 0, MIPS). -/
def nearLevel (lod : Frac) (mips : Nat) : Nat := if lod.n < 0 then 0 else min (roundEven lod.n.toNat lod.d) mips

/-- The plan of a request (R330 to R332). -/
def texPlan (t : Tex) (gather atl : Bool) (smp : DWord) (ws : List Word) : Option Plan :=
  let filt := gather || smp.getLsbD 0
  let w (k : Nat) : Word := nth 0 ws k
  if atl then
    match fracOf (w 1), fracOf (w 2) with
    | some x, some y =>
      let slot := (w 0).toNat
      let bx := 8 * (slot % (t.w / 8))
      let by_ := 8 * (slot / (t.w / 8))
      if t.h ≤ by_ then none
      else
        let in_ (z : Int) : Nat := (max 0 (min z 7)).toNat
        some { feet := [(footOf filt 0 1 1 x y, 256)], place := fun _ p => some (bx + in_ p.1, by_ + in_ p.2) }
    | _, _ => none
  else
    match fracOf (w 0), fracOf (w 1), if 2 < ws.length then fracOf (w 2) else some { n := 0, d := 1 } with
    | some u, some v, some lod =>
      let place (m : Nat) (p : Int × Int) : Option (Nat × Nat) :=
        match texIndex (bits smp.toNat 2 2) p.1 (t.lw m), texIndex (bits smp.toNat 4 2) p.2 (t.lh m) with
        | some x, some y => some (x, y)
        | _, _ => none
      let foot (m : Nat) : Foot := footOf filt m (t.lw m) (t.lh m) u v
      if gather || !smp.getLsbD 1 then some { feet := [(foot (nearLevel lod t.mips), 256)], place := place }
      else
        let l : Frac := if lod.n < 0 then { n := 0, d := 1 } else if (t.mips : Int) * (lod.d : Int) < lod.n then { n := t.mips, d := 1 } else lod
        let m := l.floor.toNat
        let g := l.q8
        some { feet := if g = 0 then [(foot m, 256)] else [(foot m, 256 - g), (foot (min (m + 1) t.mips), g)], place := place }
    | _, _, _ => none

/-- The texels that a plan reads, as places at levels; a gather reads every one of its footprint. -/
def Plan.reads (p : Plan) (gather : Bool) : List (Nat × Nat × Nat) :=
  p.feet.flatMap fun (f, w) => if w = 0 then [] else f.taps.filterMap fun ((x, y), a, b) =>
    if !gather ∧ a * b = 0 then none else (p.place f.m (x, y)).map fun q => (f.m, q.1, q.2)

/-- The sum of values under weights in 256ths, a weight of zero contributing nothing. -/
def weighted (xs : List (FV × Nat)) : FV :=
  match (xs.filter fun x => x.2 != 0).map fun x => x.1.times (.num false x.2 256) with
  | [] => FV.zero
  | x :: r => roundF32 (r.foldl FV.plus x)

/-- One component of a footprint. -/
def Foot.value (f : Foot) (texel : Int × Int → FV) : FV :=
  let h (j : Int) : FV := weighted [(texel (f.i, j), 256 - f.fx), (texel (f.i + 1, j), f.fx)]
  weighted [(h f.j, 256 - f.fy), (h (f.j + 1), f.fy)]

/-- The results of a request from the texels it has read: (level, x, y) to components, none for a failed read. -/
def texResult (gather : Bool) (ch : Nat) (plan : Option Plan) (read : Nat × Nat × Nat → Option (List FV)) : List PWord :=
  match plan with
  | none => List.replicate 4 zeroWord
  | some p =>
    let texel (m : Nat) (q : Int × Int) (c : Nat) : FV :=
      match p.place m q with
      | none => FV.zero
      | some (x, y) => nth FV.zero ((read (m, x, y)).getD []) c
    let failed (m : Nat) (q : Int × Int) : Bool := match p.place m q with | none => false | some (x, y) => (read (m, x, y)).isNone
    if gather then
      match p.feet with
      | (f, _) :: _ => f.taps.map fun (q, _, _) => if failed f.m q then ⟨0, true⟩ else ⟨toF32 (texel f.m q ch), false⟩
      | [] => List.replicate 4 zeroWord
    else if (p.reads false).any fun q => (read q).isNone then List.replicate 4 ⟨0, true⟩
    else (List.range 4).map fun c =>
      match p.feet with
      | [(f, _)] => ⟨toF32 (f.value fun q => texel f.m q c), false⟩
      | fs => ⟨toF32 (weighted (fs.map fun (f, w) => (f.value fun q => texel f.m q c, w))), false⟩

/-! ### Texture instructions -/

/-- The texture descriptor that the wave names (R329): its 256 bits, and whether the read met a mark. -/
def State.readTex (s : State) (f : Fibre) (va : Nat) : Except Stop (Nat × Bool × State) :=
  match s.place f { ea := va, n := 32, form := 0, acc := 1, align := 32 } with
  | .error st => .error st
  | .ok (ps, ws) => let (d, bad) := s.plainPieces f ps; .ok (if bad then 0 else ofLeBytes d, bad, s.keepWalks f ws)

/-- One fibre's texture request. -/
def State.placeTex (minor : Nat) (e : Ext) (call lead desc : Nat) (bad : Bool) (s : State) (u : Nat) : State :=
  let f := s.fibre u
  let (id, s) := s.fresh
  let n := if e.mod.getLsbD 0 || e.mod.getLsbD 1 then 3 else 2
  let g : Gather := { id := id, uid := u, lead := lead, part := f.part, core := f.onCore, repl := f.repl, minor := minor, mod := e.mod, dst := e.d.toNat
                      coords := (List.range n).map fun k => (f.v (e.a.toNat + k)).val, desc := desc, bad := bad, sampler := s.sC f e, tag := f.tag
                      placed := false, call := call, pc := f.pc, eng := EngineWait.idle }
  let s := { s with gathers := s.gathers ++ [g], pendV := s.pendV ++ (List.range 4).map fun k => (u, e.d.toNat + k) }
  s.sendDown f.part f.onCore 1 id

/-- TEX and TEXG. -/
def texture (minor : Nat) (e : Ext) (s : State) : Host.Outcome State Fault Refusal :=
  s.issue (issueOf 0x31 minor e e.len) (renderChecks 0x31 minor e fun s us =>
    let f := s.fibre (us.headD 0)
    match s.readTex f (s.sB f e).toNat with
    | .error st => .error st
    | .ok (desc, bad, s) =>
      let ok := bad || (match parseTex desc with | none => false | some t => !(e.mod.getLsbD 1 && t.w % 8 != 0))
      if !ok then .error (.trap s.illegal)
      else
        let (call, s) := s.fresh
        .ok (sendInOrder (State.placeTex minor e call f.uid desc bad) s us))

/-- TEX. -/
def execTex (e : Ext) (s : State) := texture 0 e s
/-- TEXG. -/
def execTexg (e : Ext) (s : State) := texture 1 e s

/-- TEXQ (R332). -/
def execTexq (e : Ext) (s : State) : Host.Outcome State Fault Refusal :=
  s.issue (issueOf 0x31 2 e e.len) (renderChecks 0x31 2 e fun s us =>
    let f := s.fibre (us.headD 0)
    match s.readTex f (s.sB f e).toNat with
    | .error st => .error st
    | .ok (desc, bad, s) =>
      match parseTex desc with
      | none => if bad then portRoom none (fun s us => .ok (s.updAll us fun f => f.setRange e.d.toNat (List.replicate 4 ⟨0, true⟩), [])) s us
        else .error (.trap s.illegal)
      | some t =>
        portRoom none (fun s us => .ok (us.foldl (fun s u =>
          let l := s.operandC (s.fibre u) e
          let r := if bad then List.replicate 4 ⟨0, true⟩
            else if t.mips < l then List.replicate 4 zeroWord
            else [t.lw l, t.lh l, t.mips + 1, t.fmt].map fun x => ⟨BitVec.ofNat 32 x, false⟩
          s.updFibre u fun f => f.setRange e.d.toNat r) s, [])) s us)

/-- The texels of a request: (place, components or a failure). A wait stops the reading. -/
def State.readTexels (s : State) (g : Gather) (t : Tex) : List (Nat × Nat × Nat) → List ((Nat × Nat × Nat) × Option (List FV)) × Option Fetched × State × Option Trap
  | [] => ([], none, s, none)
  | q :: r =>
    match s.gatherRead (s.onBehalf g.uid g.tag g.eng) (t.addr q.1 q.2.1 q.2.2) t.bytes 1 1 with
    | (.data d bad, s) =>
      let (xs, w, s, err) := s.readTexels g t r
      ((q, if bad then none else some (t.comps d)) :: xs, w, s, err)
    | (.fails x, s) =>
      let (xs, w, s, err) := s.readTexels g t r
      ((q, none) :: xs, w, s, some (err.getD x))
    | (.waits w, s) => ([], some (.waits w), s, none)
    | (.stops x, s) => ([], some (.stops x), s, none)

/-- A texture request whose reads may go on. -/
def State.gatherRuns (s : State) (g : Gather) : Bool := g.placed && g.eng.wait == .none && !(s.fibre g.uid).saved

/-- GATHER_RESULT_RETURN: the texels are read, and the results written (R333). -/
def execGatherResultReturn (req : Nat) (s : State) : Host.Outcome State Fault Refusal :=
  match s.gathers.find? fun g => g.id == req with
  | none => .next s
  | some g =>
    if !s.gatherRuns g then .next s
    else
      let gather := g.minor = 1
      let give (s : State) (ws : List PWord) : State :=
        let s := { s with gathers := s.gathers.filter fun x => x.id != req
                          pendV := s.pendV.filter fun x => !(x.1 == g.uid && g.dst ≤ x.2 && x.2 < g.dst + 4) }
        (s.updFibre g.uid fun f => if f.live then f.setRange g.dst ws else f).retryPending g.part
      match if g.bad then none else parseTex g.desc with
      | none => .next (give s (List.replicate 4 ⟨0, true⟩))
      | some t =>
        let plan := texPlan t gather (g.mod.getLsbD 1) g.sampler g.coords
        let qs := ((plan.map fun p => p.reads gather).getD []).eraseDups
        match s.readTexels g t qs with
        | (_, some (.stops x), _, _) => .fault x
        | (_, some (.waits w), s, _) =>
          .next { s with gathers := mapIf (fun (x : Gather) => x.id == req) (fun (x : Gather) => { x with eng := { x.eng with wait := w } }) s.gathers }
        | (xs, _, s, err) =>
          let s := match err with | some t => s.noteFail g.call g.lead g.pc t | none => s
          .next (give s (texResult gather (bits g.mod.toNat 2 2) plan fun q => (xs.find? fun x => x.1 == q).bind fun x => x.2))

/-- Texture requests in their engine return once their reads may go on. -/
def State.settleGathers (s : State) : State :=
  s.gathers.foldl (fun s g => if s.gatherRuns g && !s.isSet (.gatherResultReturn g.id) then s.post (.gatherResultReturn g.id) else s) s

/-! ### The shading atlas (R325 to R328) -/

/-- An atlas descriptor. -/
structure Atlas where
  qv : Bool
  queue : Nat
  next : Nat
  slots : Nat
  log : Nat
  table : Nat
  deriving DecidableEq, Repr

/-- An atlas descriptor; none where a field is invalid. -/
def parseAtlas (x nque : Nat) : Option Atlas :=
  let a : Atlas := { qv := bits x 167 1 == 1, queue := bits x 160 3, next := bits x 128 32, slots := bits x 96 32, log := bits x 64 5, table := bits x 0 64 }
  if bits x 168 344 ≠ 0 ∨ bits x 163 4 ≠ 0 ∨ bits x 69 27 ≠ 0 ∨ a.log < 6 ∨ 24 < a.log ∨ a.slots = 0 ∨ 2 ^ 24 < a.slots ∨
      a.table % (16 * 2 ^ a.log) ≠ 0 ∨ (a.qv ∧ nque ≤ a.queue) then none
  else some a

/-- The hash of a key. -/
def atlasHash (key log : Nat) : Nat := (key % 2 ^ 32 ^^^ key / 2 ^ 32) * 0x9E3779B1 % 2 ^ 32 / 2 ^ (32 - log)

/-- What an AtlasOp asks of a place beside the checks of an access (R327, R334): device memory, and under a nonzero tag a VERSIONED page. -/
def atlasStop (f : Fibre) (a : Acc) (ps : List Piece) : Option Stop :=
  if ps.any fun p => p.win != 1 || isHostKey p.loc.key then some (.trap (permTrap a.ea a.acc 1 false))
  else if f.tag ≠ 0 ∧ ps.any fun p => !p.loc.vers then some (.trap { cause := cFutureIrrev, addr := a.ea })
  else none

/-- Read bytes at their site for an AtlasOp (R86): the number, and the place of the first byte. -/
def State.siteRead (s : State) (f : Fibre) (ea n form acc align : Nat) : Except Stop (Nat × List Piece × State) :=
  let a : Acc := { ea := ea % 2 ^ 64, n := n, form := form, acc := acc, atomic := true, align := align, later := true }
  match s.place f a with
  | .error st => .error st
  | .ok (ps, ws) =>
    match atlasStop f a ps with
    | some st => .error st
    | none =>
      let (d, s) := ps.foldl (fun (r : List Byte × State) p => let (d, _, s) := r.2.homeRead f.part f.tag p.loc p.n; (r.1 ++ d, s)) ([], s.keepWalks f ws)
      .ok (ofLeBytes d, ps, s)

/-- Write bytes at their site, the versions' ways first (R124). -/
def State.siteWrite (s : State) (f : Fibre) (ps : List Piece) (ea : Nat) (d : List Byte) : Except Stop State :=
  match s.reserve f ea ps with
  | .error t => .error (.trap t)
  | .ok s => .ok ((pairPieces ps d).foldl (fun s (p, b) => s.homeWrite f.part f.tag p.loc b) s)

/-- The probe of the block table from step `i` on, `n` steps left: the slot and the entry's address for a key found, the entry's place and address for
an empty entry, or nothing. -/
def State.atlasProbe (s : State) (f : Fibre) (a : Atlas) (key acc i : Nat) : Nat → Except Stop (Option (Sum (Nat × Nat) (List Piece × Nat)) × State)
  | 0 => .ok (none, s)
  | n + 1 =>
    let ea := (a.table + 16 * ((atlasHash key a.log + i) % 2 ^ a.log)) % 2 ^ 64
    match s.siteRead f ea 16 1 acc 16 with
    | .error st => .error st
    | .ok (x, ps, s) =>
      if x % 2 ^ 64 = key then .ok (some (.inl (bits x 64 32, ea)), s)
      else if x % 2 ^ 64 = 0 then .ok (some (.inr (ps, ea)), s)
      else s.atlasProbe f a key acc (i + 1) n

/-- The entry that a new block pushes (R328). -/
def atlasEntry (f : Fibre) (key slot desc : Nat) : QEntry :=
  { tag := f.tag, fid := f.fid
    words := [BitVec.ofNat 32 key, BitVec.ofNat 32 (key / 2 ^ 32), BitVec.ofNat 32 slot, BitVec.ofNat 32 f.fid, BitVec.ofNat 32 desc, BitVec.ofNat 32 (desc / 2 ^ 32)]
      ++ List.replicate 10 0 }

/-- The port of the cluster's CVU (R56). -/
def Fibre.cvuPort (f : Fibre) : PortId := ⟨true, f.part, f.onCore / 4, f.repl⟩

/-- What one AtlasOp gives: slot, flag, the address of the entry; none where the port has no room for its push. -/
structure AtlasOut where
  slot : Nat
  flag : Bool
  entry : Nat

/-- No block. -/
def AtlasOut.none_ : AtlasOut := { slot := 0xFFFFFFFF, flag := false, entry := 0 }

/-- AtlasOp (R326). -/
def State.atlasOp (s : State) (f : Fibre) (desc key : Nat) (insert : Bool) : Except Stop (Option AtlasOut × State) :=
  let acc := if insert then 3 else 1
  match s.siteRead f desc 64 0 acc 64 with
  | .error st => .error st
  | .ok (x, dps, s) =>
    match parseAtlas x (s.pipeOf f).queues.length with
    | none => .error (.trap s.illegal)
    | some a =>
      if insert ∧ a.qv ∧ ((s.pipeOf f).queue a.queue).closed then .error (.trap { cause := cQueueClosed, detail := a.queue })
      else if key = 0 then .ok (some AtlasOut.none_, s)
      else
        match s.atlasProbe f a key acc 0 64 with
        | .error st => .error st
        | .ok (none, s) => .ok (some AtlasOut.none_, s)
        | .ok (some (.inl (slot, ea)), s) => .ok (some { slot := slot, flag := !insert, entry := ea }, s)
        | .ok (some (.inr (ps, ea)), s) =>
          if !insert ∨ a.slots ≤ a.next then .ok (some AtlasOut.none_, s)
          else if a.qv && s.portFull f.cvuPort then .ok (none, s)
          else
            match s.siteWrite f ps ea (leBytes 16 (key + a.next * 2 ^ 64)) with
            | .error st => .error st
            | .ok s =>
              match s.siteWrite f ((dps.drop 4).take 1) (desc + 16) (leBytes 4 (a.next + 1)) with
              | .error st => .error st
              | .ok s =>
                let s := if a.qv then s.portPush f.cvuPort f a.queue false (atlasEntry f key a.next desc) else s
                .ok (some { slot := a.next, flag := true, entry := ea }, s)

/-- The kind-2 record of an ATLREQ (R335). -/
def Fibre.signAtlas (f : Fibre) (ea key slot : Nat) : Fibre := f.fold (atomicRecord ea 16 0 key slot)

/-- A key pair. -/
def Fibre.atlasKey (f : Fibre) (e : Ext) : Nat := (f.vPair e.a.toNat).val.toNat

/-- The AtlasOps of a wave in ascending lane; a fibre that finds the port full waits, and every later one with it. -/
def atlasAll (e : Ext) (insert : Bool) (desc : Nat) (s : State) : List Nat → Except Stop (State × List Nat)
  | [] => .ok (s, [])
  | u :: r =>
    let f := s.fibre u
    let key := f.atlasKey e
    match s.atlasOp f desc key insert with
    | .error st => .error st
    | .ok (none, s) => .ok (s.updAll (u :: r) fun f => f.waits .waitMemory .cvu, u :: r)
    | .ok (some o, s) =>
      atlasAll e insert desc ((s.setPd u e o.flag).updFibre u fun f =>
        let f := { f.setV e.d.toNat ⟨BitVec.ofNat 32 o.slot, false⟩ with info := [o.entry] }
        if insert then f.signAtlas o.entry key o.slot else f) r

/-- A follower signs its leader's ATLREQ with its own key (R335, R370). -/
def takeAtlas (e : Ext) (s : State) (f : Fibre) (r : Fwd) : State :=
  s.updFibre f.uid fun g => g.signAtlas (r.info.headD 0) (f.atlasKey e) (g.v e.d.toNat).val.toNat

/-- ATLREQ. -/
def execAtlreq (e : Ext) (s : State) : Host.Outcome State Fault Refusal :=
  s.issue { issueOf 0x32 0 e e.len with once := true, take := takeAtlas e } (renderChecks 0x32 0 e (portRoom (some 2) fun s us =>
    atlasAll e true (s.sB (s.fibre (us.headD 0)) e).toNat s us))

/-- ATLMAP. -/
def execAtlmap (e : Ext) (s : State) : Host.Outcome State Fault Refusal :=
  s.issue { issueOf 0x32 1 e e.len with once := true } (renderChecks 0x32 1 e (portRoom (some 2) fun s us =>
    atlasAll e false (s.sB (s.fibre (us.headD 0)) e).toNat s us))

end Sys2Proof.Machine
end

