-- ==== Sys2Proof/Machine/Builder.lean ====
section
/-! DEFINITION. Major 0x34 and the jobs of the builder engines (R337 to R359, R492, R493). -/

namespace Sys2Proof.Machine

/-! ### Boxes -/

/-- A box: its low and its high corner. -/
structure Box where
  lo : List Word
  hi : List Word
  deriving DecidableEq, Repr

/-- The box that holds nothing. -/
def Box.empty : Box := { lo := List.replicate 3 0x7F800000#32, hi := List.replicate 3 0xFF800000#32 }

/-- A box that holds nothing. -/
def Box.isEmpty (b : Box) : Bool := (List.range 3).any fun a => (fval (nth 0 b.hi a)).lt (fval (nth 0 b.lo a))

/-- The smaller and the larger of two words as F32 values. -/
def minWord (a b : Word) : Word := if (fval b).lt (fval a) then b else a
def maxWord (a b : Word) : Word := if (fval a).lt (fval b) then b else a

/-- The least box that holds two, and the intersection of two. -/
def Box.join (a b : Box) : Box := { lo := List.zipWith minWord a.lo b.lo, hi := List.zipWith maxWord a.hi b.hi }
def Box.meet (a b : Box) : Box := { lo := List.zipWith maxWord a.lo b.lo, hi := List.zipWith minWord a.hi b.hi }

/-- A bound that is not finite. -/
def Box.unbounded (b : Box) : Bool := !b.isEmpty && (b.lo ++ b.hi).any fun w => !(fval w).finite

/-- A finite F32 value in units of 2^−149. -/
def fixed (w : Word) : Int := (fval w).signedNum * (2 ^ 149 / (fval w).den : Nat)

/-- Half the surface area of a box in units of 2^−298 (R351); zero where it holds nothing. -/
def Box.area (b : Box) : Nat :=
  if b.isEmpty then 0
  else
    let e (a : Nat) : Nat := (fixed (nth 0 b.hi a) - fixed (nth 0 b.lo a)).toNat
    e 0 * e 1 + e 1 * e 2 + e 2 * e 0

/-! ### Items: triangles and instances (R340, R341) -/

/-- An item of the input: its place, why it is degenerate, and what a generation keeps of it. -/
structure Item where
  index : Nat
  sub : Nat
  bad : Option Nat
  tri : Tri
  inst : InstRec
  box : Box
  deriving Repr

/-- A triangle that no ray hits, and an instance that no ray visits. -/
def Tri.none_ (geom prim : Nat) (opq : Bool) : Tri := { geom := geom, prim := prim, isOpaque := opq, verts := [] }
def InstRec.none_ (index : Nat) : InstRec := { index := index, mask := 0, ctx := 0, gen := 0, w2o := [], lo := [], hi := [] }

/-- Three vertices are collinear in exact arithmetic. -/
def collinear (a b c : List FV) : Bool :=
  let d (p : List FV) (k : Nat) : FV := (comp p k).minus (comp a k)
  [(0, 1), (1, 2), (2, 0)].all fun (i, j) => (((d b i).times (d c j)).minus ((d b j).times (d c i))).isZero

/-- A triangle from its vertex words: nine of them. -/
def triItem (geom prim : Nat) (opq : Bool) (ws : List Word) : Item :=
  let v (k : Nat) : List Word := (ws.drop (3 * k)).take 3
  let bad := if ws.any fun w => !(fval w).finite then some 0
    else if collinear ((v 0).map fval) ((v 1).map fval) ((v 2).map fval) then some 1 else none
  let box (k : Nat) : Box := { lo := v k, hi := v k }
  if bad.isSome then { index := geom, sub := prim, bad := bad, tri := Tri.none_ geom prim opq, inst := InstRec.none_ 0, box := Box.empty }
  else { index := geom, sub := prim, bad := none, tri := { geom := geom, prim := prim, isOpaque := opq, verts := ws }, inst := InstRec.none_ 0
         box := ((box 0).join (box 1)).join (box 2) }

/-- A bound of an instance along an axis: the exact extreme over the box, rounded outward (R340). -/
def instBound (m : List Word) (b : Box) (row : Nat) (up : Bool) : Word :=
  let c (j : Nat) : FV := fval (nth 0 m (4 * row + j))
  let pick (j : Nat) : FV :=
    let x := (c j).times (fval (nth 0 b.lo j))
    let y := (c j).times (fval (nth 0 b.hi j))
    if up then x.larger y else x.smaller y
  let s := (((pick 0).plus (pick 1)).plus (pick 2)).plus (c 3)
  BitVec.ofNat 32 ((OpTypeFmt .f32).round (if up then 2 else 3) false false s).1

/-- An instance from the 32 words of its entry; `blas` gives the generation of a handle and its root box: the reason where it has none. -/
def instItem (index : Nat) (ws : List Word) (blas : Nat → Except Nat (Nat × Nat × Box)) : Item :=
  let w2o := ws.take 12
  let o2w := (ws.drop 12).take 12
  let dead (r : Nat) : Item := { index := index, sub := 0, bad := some r, tri := Tri.none_ 0 0 false, inst := InstRec.none_ index, box := Box.empty }
  if (w2o ++ o2w).any fun w => !(fval w).finite then dead 3
  else
    match blas (nth 0 ws 24).toNat with
    | .error r => dead r
    | .ok (ctx, gen, b) =>
      let box : Box := if b.isEmpty then Box.empty
        else { lo := (List.range 3).map fun r => instBound o2w b r false, hi := (List.range 3).map fun r => instBound o2w b r true }
      { index := index, sub := 0, bad := none, tri := Tri.none_ 0 0 false, box := box
        inst := { index := index, mask := (nth 0 ws 25).toNat % 256, ctx := ctx, gen := gen, w2o := w2o, lo := box.lo, hi := box.hi } }

/-! ### Trees (R342, R351, R352) -/

/-- The boxes of a list of items, by number. -/
def boxAt (items : List Item) (k : Nat) : Box := ((items[k]?).map fun x => x.box).getD Box.empty

/-- The box of several items. -/
def boxOf (items : List Item) (ks : List Nat) : Box := ks.foldl (fun b k => b.join (boxAt items k)) Box.empty

/-- The children into which an engine splits a list of items: at most eight (notes/assumptions/11.md). -/
def splitItems (items : List Item) (ks : List Nat) : List (List Nat) :=
  let key := ks.flatMap fun k => k :: ((boxAt items k).lo ++ (boxAt items k).hi).map fun w => w.toNat
  let x := Config.treeSplit key
  ((List.range 8).map fun d => ((ks.zip (List.range ks.length)).filter fun p => x / 8 ^ p.2 % 8 == d).map fun p => p.1).filter fun l => !l.isEmpty

/-- The nodes of a new tree over some items, its root at number `base`; `fuel` bounds the depth. -/
def newTree (items : List Item) : Nat → Nat → List Nat → List BNode
  | 0, _, ks => [{ id := 0, lo := (boxOf items ks).lo, hi := (boxOf items ks).hi, kids := [], prims := ks }]
  | n + 1, base, ks =>
    let b := boxOf items ks
    let parts := splitItems items ks
    if parts.length ≤ 1 then [{ id := 0, lo := b.lo, hi := b.hi, kids := [], prims := ks }]
    else
      let (nodes, kids) := parts.foldl (fun (acc : List BNode × List Nat) p =>
        let at_ := base + 1 + acc.1.length
        (acc.1 ++ newTree items n at_ p, acc.2 ++ [at_])) ([], [])
      { id := 0, lo := b.lo, hi := b.hi, kids := kids, prims := [] } :: nodes

/-- The box of a node. -/
def BNode.box (b : BNode) : Box := { lo := b.lo, hi := b.hi }

/-- The live items of a leaf. -/
def leafCount (items : List Item) (b : BNode) : Nat := (b.prims.filter fun k => ((items[k]?).map fun x => x.bad.isNone).getD false).length

/-- The cost of nodes, before the division by the root's area (R351). -/
def nodesCost (items : List Item) (nodes : List BNode) : Nat :=
  nodes.foldl (fun t b => t + b.box.area * (if b.kids = [] then leafCount items b else 1)) 0

/-- The nodes of a subtree, its root first; the numbers of children count from `base`. -/
def subtree (nodes : List BNode) : Nat → Nat → Nat → List BNode
  | 0, _, _ => []
  | n + 1, base, k =>
    match nodes[k]? with
    | none => []
    | some b =>
      let (out, kids) := b.kids.foldl (fun (acc : List BNode × List Nat) j =>
        let at_ := base + 1 + acc.1.length
        (acc.1 ++ subtree nodes n at_ j, acc.2 ++ [at_])) ([], [])
      { b with kids := kids } :: out

/-- The items of a subtree. -/
def subtreeItems (nodes : List BNode) : List Nat := nodes.flatMap fun b => b.prims

/-- BLD.REBAL (R342): every subtree that costs more than a full build of its items is built anew. -/
def rebalance (items : List Item) (nodes : List BNode) : Nat → Nat → Nat → List BNode
  | 0, base, k => subtree nodes (nodes.length + 1) base k
  | n + 1, base, k =>
    let old := subtree nodes (nodes.length + 1) base k
    let ks := sortBy (fun x => x) (subtreeItems old)
    let new := newTree items (ks.length + 1) base ks
    if nodesCost items new < nodesCost items old then new
    else
      match nodes[k]? with
      | none => []
      | some b =>
        let (out, kids) := b.kids.foldl (fun (acc : List BNode × List Nat) j =>
          let at_ := base + 1 + acc.1.length
          (acc.1 ++ rebalance items nodes n at_ j, acc.2 ++ [at_])) ([], [])
        { b with kids := kids } :: out

/-- Item `k` of a base is what the items of an input have there. -/
def GenData.sameItem (g : GenData) (items : List Item) (top : Bool) (k : Nat) : Bool :=
  match items[k]? with
  | none => false
  | some x => if top then g.insts[k]? == some x.inst else g.tris[k]? == some x.tri

/-- BLD.REFIT (R342): the topology stays, every bound is computed anew, from the last node to the first; a node whose bounds and leaf triangles are
as they were is shared with the base. -/
def refitNodes (items : List Item) (base : GenData) (top : Bool) : List BNode :=
  (base.nodes.zip (List.range base.nodes.length)).foldr (fun (b, i) (done : List BNode) =>
    let kid (k : Nat) : Box := ((done[k - i - 1]?).map fun c => c.box).getD Box.empty
    let x := b.kids.foldl (fun x k => x.join (kid k)) (boxOf items b.prims)
    let same := x.lo == b.lo && x.hi == b.hi && b.prims.all fun k => base.sameItem items top k
    { b with id := if same then b.id else 0, lo := x.lo, hi := x.hi } :: done) []

/-- New nodes get their numbers, from `n` up (R342). -/
def numberNodes (n : Nat) (nodes : List BNode) : List BNode :=
  (nodes.zip (List.range nodes.length)).map fun (b, i) => if b.id = 0 then { b with id := n + i } else b

/-- An exact quotient rounded once to F32; zero over zero is zero (R351). -/
def ratioWord (n d : Nat) : Word := if d = 0 then 0 else toF32 (.num false n d)

/-- The quality counters of a tree: SAH and OVERLAP. -/
def quality (items : List Item) (nodes : List BNode) : Word × Word :=
  if nodes.any fun b => b.box.unbounded then (Config.openQuality 0 nodes.length, Config.openQuality 1 nodes.length)
  else
    let root := ((nodes.head?).map fun b => b.box.area).getD 0
    let inner := nodes.filter fun b => b.kids != []
    let boxes (b : BNode) : List Box := b.kids.map fun k => ((nodes[k]?).map BNode.box).getD Box.empty
    let pairs (l : List Box) : Nat := (l.zip (List.range l.length)).foldl (fun t (x, i) => (l.drop (i + 1)).foldl (fun t y => t + (x.meet y).area) t) 0
    let shared := inner.foldl (fun t b => t + pairs (boxes b)) 0
    let total := inner.foldl (fun t b => (boxes b).foldl (fun t x => t + x.area) t) 0
    (ratioWord (nodesCost items nodes) root, ratioWord shared total)

/-- What a generation holds of items and a tree. -/
def genDataOf (items : List Item) (nodes : List BNode) (counts : List Nat) (top : Bool) (refits : Nat) (baseSah : Option Word) : GenData :=
  let (sah, overlap) := quality items nodes
  { nodes := nodes, tris := if top then [] else items.map fun x => x.tri, insts := if top then items.map fun x => x.inst else []
    counts := counts, sah := sah, overlap := overlap, refits := min refits (2 ^ 32 - 1), degen := (items.filter fun x => x.bad.isSome).length
    baseSah := baseSah.getD sah }

/-- The items that a generation holds. -/
def GenData.items (g : GenData) (top : Bool) : List Item :=
  if top then g.insts.map fun r => { index := r.index, sub := 0, bad := if r.w2o = [] then some 3 else none, tri := Tri.none_ 0 0 false, inst := r
                                     box := if r.w2o = [] then Box.empty else { lo := r.lo, hi := r.hi } }
  else g.tris.map fun t => if t.verts = [] then { index := t.geom, sub := t.prim, bad := some 1, tri := t, inst := InstRec.none_ 0, box := Box.empty }
    else triItem t.geom t.prim t.isOpaque t.verts

/-! ### Job descriptors (R339, R354) -/

/-- The fields of a job descriptor. -/
structure JobDesc where
  free : Bool
  grow : Bool
  asize : Nat
  arena : Nat
  count : Nat
  input : Nat
  autoreb : Nat
  strict : Bool
  top : Bool
  handle : Nat
  deriving DecidableEq, Repr

/-- The fields of the 64 bytes. -/
def jobDesc (x : Nat) : JobDesc :=
  { free := bits x 289 1 == 1, grow := bits x 288 1 == 1, asize := bits x 256 32, arena := bits x 192 64, count := bits x 160 20 + 1
    input := bits x 96 64, autoreb := bits x 48 8, strict := bits x 33 1 == 1, top := bits x 32 1 == 1, handle := bits x 0 32 }

/-- The reserved fields are zero, and the rules of R354 hold for a kind (0 BUILD, 1 REFIT, 2 REBAL) under a tag. -/
def jobDescOk (x kind tag : Nat) : Bool :=
  let d := jobDesc x
  bits x 290 222 == 0 && bits x 180 12 == 0 && bits x 56 40 == 0 && bits x 34 14 == 0 && d.input % 64 == 0 &&
  !(d.handle == 0 && (d.arena % 65536 != 0 || d.asize == 0)) && !(kind != 0 && (d.handle == 0 || d.free)) &&
  !(d.handle != 0 && (bits d.handle 11 1 == 1) != d.top) && !(d.autoreb != 0 && kind != 1) && !(tag != 0 && (!d.top || d.free))

/-- A job's descriptor. -/
def Job.d (j : Job) : JobDesc := jobDesc (ofLeBytes (j.desc.flatMap fun w => leBytes 4 w.toNat))

/-- A follower's part in an instruction that queues a job: its register is pending until the leader's job writes its token, or takes the token
that has come in the meantime (R359). -/
def takeJob (e : Ext) (s : State) (f : Fibre) (r : Fwd) : State :=
  match r.info with
  | [0, 0, 0, id] =>
    let s := { s with jobs := mapIf (fun (j : Job) => j.id == id) (fun (j : Job) => { j with uids := addOnce j.uids f.uid }) s.jobs }
    s.updGroup f.groupId fun g => { g with pend := if g.pend.contains (e.d.toNat, none) then g.pend else g.pend ++ [(e.d.toNat, none)] }
  | [0, 0, 0, _, v, p] => s.setS f.groupId e.d.toNat ⟨BitVec.ofNat 64 v, p == 1⟩
  | _ => s

/-- BLD.BUILD, BLD.REFIT and BLD.REBAL. A descriptor that carries a memory-error mark gives a poisoned token (R465). -/
def buildJob (kind : Nat) (e : Ext) (s : State) : Host.Outcome State Fault Refusal :=
  s.issue { issueOf 0x34 kind e e.len with once := true, take := takeJob e } (renderChecks 0x34 kind e (oncePerWave fun s f us =>
    let va := (s.sA f e).toNat
    match s.place f { ea := va, n := 64, form := 0, acc := 1, align := 64 } with
    | .error st => .error st
    | .ok (ps, ws) =>
      let (d, bad) := s.plainPieces f ps
      let s := s.keepWalks f ws
      if bad then .ok (s.setS f.groupId e.d.toNat ⟨0, true⟩, [])
      else if !jobDescOk (ofLeBytes d) kind f.tag then .error (.trap s.illegal)
      else
        let (id, s) := s.fresh
        let x := jobDesc (ofLeBytes d)
        let j : Job := { id := id, part := f.part, pipe := f.pipe, uids := us, grp := f.cur, repl := f.repl, token := e.d.toNat, kind := kind
                         desc := wordsOfBytes d, ctx := x.handle % 1024, fresh := false, tag := f.tag, addr := va, pc := f.pc
                         eng := EngineWait.idle, growWait := false, refused := false }
        let s := ({ s with jobs := s.jobs ++ [j] }).updGroup f.groupId fun g => { g with pend := g.pend ++ [(e.d.toNat, none)] }
        .ok (s.updAll us fun f => { f with info := [0, 0, 0, id] }, [])))

/-- BLD.BUILD. -/
def execBldBuild (e : Ext) (s : State) := buildJob 0 e s
/-- BLD.REFIT. -/
def execBldRefit (e : Ext) (s : State) := buildJob 1 e s
/-- BLD.REBAL. -/
def execBldRebal (e : Ext) (s : State) := buildJob 2 e s

/-! ### Running a job -/

/-- The job's own number of a structure: its handle. -/
def StructCtx.handle (c : StructCtx) : Nat := c.seq * 2 ^ 12 + (if c.top then 2 ^ 11 else 0) + c.idx

/-- The tag under which a structure keeps a result of a tag (R350): bottom-level structures are trunk-only. -/
def State.genTag (s : State) (part tag : Nat) (top : Bool) : Nat := if top then s.writeTag part tag else 0

/-- Change a job. -/
def State.updJob (s : State) (id : Nat) (g : Job → Job) : State := { s with jobs := mapIf (fun (j : Job) => j.id == id) g s.jobs }

/-- Free the context of a structure (R344, R345): its handle is stale from then on. -/
def State.freeStruct (s : State) (part ctx : Nat) : State :=
  s.updStruct part ctx fun c => { c with live := false, staged := [], gens := [] }

/-- End a job with its token (R346); a build of a new structure that fails frees its context. -/
def State.endJob (s : State) (j : Job) (handle status : Nat) (reb : Bool) : State :=
  let lost := j.fresh && status != 0
  let s := if lost then s.freeStruct j.part j.ctx else s
  let h := if lost then 0 else handle
  (({ s with jobs := s.jobs.filter fun x => x.id != j.id }).releaseFor j.uids).jobToken j
    ⟨BitVec.ofNat 64 (h * 2 ^ 32 + (if reb then 256 else 0) + status), false⟩

/-- The record of a failing job (R492). -/
def State.jobRecord (s : State) (j : Job) (t : Trap) (addr : Nat) : State :=
  let f := s.fibre (j.uids.headD 0)
  let seq := (s.partn j.part).logHead
  let s := s.report { s.trapRec f { t with addr := addr } with pc := j.pc.toNat, pipe := j.pipe, rung := 0, prec := false }
  s.deliver j.part j.pipe seq none

/-- A job fails with a record. -/
def State.failJob (s : State) (j : Job) (handle status : Nat) (t : Trap) : State := (s.jobRecord j t j.addr).endJob j handle status false

/-- A job whose read fails: status 0x04 (R343). -/
def State.failRead (s : State) (j : Job) (handle : Nat) (t : Trap) : State :=
  (s.jobRecord j { t with detail2 := t.detail2 % 256 + 2 ^ 32 } t.addr).endJob j handle 4 false

/-- The reading of a job's input: the items so far, and what stopped it. -/
structure Reading where
  s : State
  items : List Item
  halt : Option Fetched

/-- Read bytes, unless the reading has stopped. -/
def Reading.bytes (r : Reading) (f : Fibre) (ea n : Nat) : Option (List Byte) × Reading :=
  if r.halt.isSome then (none, r)
  else
    match r.s.gatherRead f ea n 1 1 with
    | (.data d false, s) => (some d, { r with s := s })
    | (x, s) => (none, { r with s := s, halt := some x })

/-- Read several ranges of 12 bytes. -/
def Reading.vectors (r : Reading) (f : Fibre) : List Nat → List Word × Reading
  | [] => ([], r)
  | ea :: q =>
    match r.bytes f ea 12 with
    | (none, r) => ([], r)
    | (some d, r) => let (ws, r) := r.vectors f q; (wordsOfBytes d ++ ws, r)

/-- Read triangle `i` of a geometry (R340, R341). -/
def Reading.triangle (r : Reading) (f : Fibre) (geom entry i : Nat) : Reading :=
  let ibase := bits entry 64 64
  let vbase := bits entry 0 64
  let stride := bits entry 160 16
  let vcount := bits entry 176 32
  let opq := bits entry 255 1 == 1
  let (idx, r) : Option (List Nat) × Reading :=
    if ibase = 0 then (some [3 * i, 3 * i + 1, 3 * i + 2], r)
    else
      match r.bytes f (ibase + 12 * i) 12 with
      | (none, r) => (none, r)
      | (some d, r) => (some ((wordsOfBytes d).map fun w => w.toNat), r)
  match idx with
  | none => r
  | some ks =>
    if ibase ≠ 0 ∧ vcount ≠ 0 ∧ ks.any (fun k => decide (vcount ≤ k)) then
      { r with items := r.items ++ [{ index := geom, sub := i, bad := some 2, tri := Tri.none_ geom i opq, inst := InstRec.none_ 0, box := Box.empty }] }
    else
      let (ws, r) := r.vectors f (ks.map fun k => vbase + k * stride)
      if r.halt.isSome then r else { r with items := r.items ++ [triItem geom i opq ws] }

/-- Read a bottom-level input: the items, and the number of triangles of each geometry. -/
def State.readGeometries (s : State) (f : Fibre) (d : JobDesc) : Reading × List Nat :=
  (List.range d.count).foldl (fun (acc : Reading × List Nat) g =>
    match acc.1.bytes f (d.input + 32 * g) 32 with
    | (none, r) => (r, acc.2)
    | (some b, r) =>
      let entry := ofLeBytes b
      let n := bits entry 128 32
      ((List.range n).foldl (fun r i => if r.halt.isSome then r else r.triangle f g entry i) r, acc.2 ++ [n])) ({ s := s, items := [], halt := none }, [])

/-- The generation of a bottom-level structure that a job records, with its root box; the reason where there is none (R341, R492). -/
def State.blasOf (s : State) (part handle : Nat) : Except Nat (Nat × Nat × Box) :=
  match s.structOf part (BitVec.ofNat 64 handle) with
  | none => .error 4
  | some c =>
    if c.top then .error 4
    else
      match s.currentGen part 0 c with
      | none => .error 5
      | some g => .ok (c.idx, g.num, ((g.data.nodes.head?).map BNode.box).getD Box.empty)

/-- Read a top-level input. -/
def State.readInstances (s : State) (f : Fibre) (d : JobDesc) : Reading × List Nat :=
  ((List.range d.count).foldl (fun (r : Reading) i =>
    match r.bytes f (d.input + 128 * i) 128 with
    | (none, r) => r
    | (some b, r) => { r with items := r.items ++ [instItem i (wordsOfBytes b) (s.blasOf f.part)] }) { s := s, items := [], halt := none }, [d.count])

/-- The nodes that some results occupy, shared nodes once (R342). -/
def nodesOf (gs : List GenData) : List BNode :=
  (gs.flatMap fun g => g.nodes).foldl (fun l b => if b.id != 0 && l.any fun x => x.id == b.id then l else l ++ [b]) []

/-- The nodes and the leaf items that a structure's live results occupy with one more (R344, R349): a staged result stands until its successor does. -/
def StructCtx.footprint (c : StructCtx) (g : GenData) : Nat × Nat :=
  let ns := nodesOf (c.results ++ [g])
  (ns.length, ns.foldl (fun n b => n + b.prims.length) 0)

/-- The engine writes the new nodes of a result, by number, into the arena (R338, R349): the first place that waits, fails or stops ends the
writing. -/
def State.writeNodes (s : State) (f : Fibre) (c : StructCtx) : List Nat → Fetched × State
  | [] => (.data [] false, s)
  | k :: r =>
    match s.arenaPlace f c k 2 with
    | .error st => s.engineStop f st
    | .ok loc => (s.homeWrite f.part 0 loc ((Config.nodeBytes c.idx k).take (4096 - loc.key % 4096))).writeNodes f c r

/-- The pages of an extension are there, or an entry of the region table serves them (R73, R344). -/
def State.canExtend (s : State) (part base size : Nat) : Bool :=
  (List.range (size / 4096)).all fun i => (s.walk part (base + 4096 * i)).isSome || ((s.partn part).region? (base + 4096 * i)).isSome

/-- A job that finds its arena full (R344). -/
def State.arenaFull (s : State) (j : Job) (c : StructCtx) : State :=
  let size := c.size / 65536
  let fail (reason : Nat) : State :=
    s.failJob j c.handle 1 { cause := cBuildMem, detail := c.handle + size % 2 ^ 32 * 2 ^ 32, detail2 := c.extensions + reason * 256 }
  if c.gens.any fun g => g.state == 3 then s.updJob j.id fun j => { j with eng := { j.eng with wait := .jobs } }
  else if j.refused then fail 2
  else if !j.d.grow then fail 0
  else if 3 ≤ c.extensions then fail 1
  else
    let s := s.updJob j.id fun j => { j with growWait := true }
    let base := c.arena + c.size
    if (s.partn j.part).mode.getLsbD 2 then s.raiseHost j.part 3 base (c.original / 4096) 0 c.handle none j.pipe
    else s.post (.arenaExtensionService j.id (s.canExtend j.part base c.original))

/-- Stage a job's result, where its arena holds it: the new nodes are written, and it takes the place of the tag's staged result (R338, R343, R344,
R352). -/
def State.stageJob (s : State) (j : Job) (c : StructCtx) (g : GenData) (reb : Bool) : Host.Outcome State Fault Refusal :=
  let t := s.genTag j.part j.tag c.top
  let (n, k) := c.footprint g
  if c.size < Config.arenaNeed n k then .next (s.arenaFull j c)
  else
    let g' := { g with nodes := numberNodes (s.nextId + 1) g.nodes }
    let new := (g'.nodes.map fun b => b.id).filter fun k => decide (s.nextId < k)
    match s.writeNodes (s.onBehalf (j.uids.headD 0) j.tag j.eng) c new with
    | (.stops x, _) => .fault x
    | (.waits w, s) => .next (s.updJob j.id fun j => { j with eng := { j.eng with wait := w } })
    | (.fails x, s) => .next (s.failRead j c.handle x)
    | (.data .., s) =>
      let s := { s with nextId := s.nextId + 1 + g.nodes.length }
      let s := (s.dropStaged j.part c.idx fun x => x == t).updStruct j.part c.idx fun c => { c with staged := c.staged ++ [(t, g')] }
      .next (s.endJob j c.handle 0 reb)

/-- The base of a job: the staged result of its tag, else the generation current for it (R342). -/
def State.jobBase (s : State) (j : Job) (c : StructCtx) : Option GenData :=
  match c.staged.find? fun x => x.1 == s.genTag j.part j.tag c.top with
  | some x => some x.2
  | none => (s.currentGen j.part j.tag c).map fun g => g.data

/-- A job on the items of its input. -/
def State.jobOnItems (s : State) (j : Job) (c : StructCtx) (items : List Item) (counts : List Nat) : Host.Outcome State Fault Refusal :=
  let d := j.d
  let live := (List.range items.length).filter fun k => ((items[k]?).map fun x => x.bad.isNone).getD false
  match if d.strict then items.find? fun x => x.bad.isSome else none with
  | some x =>
    .next (s.failJob j c.handle 2 { cause := cBuildDegen, detail := c.handle + x.index % 2 ^ 20 * 2 ^ 32
                                    detail2 := x.sub % 2 ^ 32 + x.bad.getD 0 * 2 ^ 32 })
  | none =>
    if j.kind = 0 then
      let nodes := if live = [] then [] else newTree items (items.length + 1) 0 (List.range items.length)
      s.stageJob j c (genDataOf items nodes counts c.top 0 none) false
    else
      match s.jobBase j c with
      | none => .next (s.endJob j c.handle 3 false)
      | some b =>
        if b.counts ≠ counts then .next (s.endJob j c.handle 5 false)
        else
          let nodes := if b.nodes = [] ∧ live ≠ [] then newTree items (items.length + 1) 0 (List.range items.length) else refitNodes items b c.top
          let g := genDataOf items nodes counts c.top (b.refits + 1) (some b.baseSah)
          let worse := d.autoreb ≠ 0 ∧ ((fval b.baseSah).times (.num false d.autoreb 16)).lt (fval g.sah)
          if worse then s.stageJob j c (genDataOf items (rebalance items nodes (nodes.length + 1) 0 0) counts c.top 0 none) true
          else s.stageJob j c g false

/-- The lowest free context of a partition. -/
def State.freeStructIdx (s : State) (part : Nat) : Option Nat := (List.range 1024).find? fun k => (s.structCtx part k).isNone

/-- A new structure for a job (R337, R339). -/
def State.newStruct (s : State) (j : Job) (k : Nat) : State :=
  let old := ((s.structs.find? fun (x : StructCtx) => x.part == j.part && x.idx == k).map fun x => x.seq).getD 0
  let size := j.d.asize * 65536
  let c : StructCtx := { part := j.part, idx := k, seq := if old = 1048575 then 1 else old + 1, top := j.d.top, live := true, arena := j.d.arena
                         size := size, original := size, extensions := 0, maxGen := 0, staged := [], gens := [] }
  let s := { s with structs := s.structs.filter (fun (x : StructCtx) => !(x.part == j.part && x.idx == k)) ++ [c] }
  s.updJob j.id fun j => { j with ctx := k, fresh := true }

/-- Free a structure (R345). -/
def State.runFree (s : State) (j : Job) (c : StructCtx) : State :=
  let pinned := s.structs.any fun t => t.part == j.part && t.live && t.results.any fun g => c.gens.any fun x => g.records c.idx x.num
  if pinned then s.endJob j c.handle 6 false
  else
    let s := s.dropStaged j.part c.idx fun _ => true
    let s := (c.gens.filter fun g => g.state == 1).foldl (fun s g =>
      (s.updGen j.part c.idx g.num fun g => { g with state := 2 }).checkReclaim j.part c.idx g.num) s
    if ((s.structCtx j.part c.idx).map fun c => c.gens.all fun g => g.state == 4).getD true then
      (s.freeStruct j.part c.idx).endJob j c.handle 0 false
    else s.updJob j.id fun j => { j with eng := { j.eng with wait := .jobs } }

/-- The instances of a result with the generations that are current now (R342). -/
def State.recordNow (s : State) (part : Nat) (g : GenData) : GenData :=
  let now (r : InstRec) : Nat := ((s.structCtx part r.ctx).bind fun c => (s.currentGen part 0 c).map fun x => x.num).getD r.gen
  { g with insts := g.insts.map fun r => if r.w2o = [] then r else { r with gen := now r } }

/-- Run a job whose turn has come. -/
def State.runJob (s : State) (j : Job) : Host.Outcome State Fault Refusal :=
  let d := j.d
  if d.handle = 0 ∧ !j.fresh then
    if d.free then .next (s.endJob j 0 3 false)
    else
      match s.freeStructIdx j.part with
      | none => .next (s.endJob j 0 7 false)
      | some k => .next (s.newStruct j k)
  else
    match if j.fresh then s.structCtx j.part j.ctx else s.structOf j.part (BitVec.ofNat 64 d.handle) with
    | none => .next (s.endJob j d.handle 3 false)
    | some c =>
      if d.free then .next (s.runFree j c)
      else if j.kind = 2 then
        match s.jobBase j c with
        | none => .next (s.endJob j c.handle 3 false)
        | some b =>
          let b := if c.top then s.recordNow j.part b else b
          let items := b.items c.top
          let nodes := if b.nodes = [] then [] else rebalance items b.nodes (b.nodes.length + 1) 0 0
          s.stageJob j c { genDataOf items nodes b.counts c.top 0 none with degen := b.degen } false
      else if j.kind = 1 ∧ (s.jobBase j c).isNone then .next (s.endJob j c.handle 3 false)
      else
        let f := s.onBehalf (j.uids.headD 0) j.tag j.eng
        let (r, counts) := if c.top then s.readInstances f d else s.readGeometries f d
        match r.halt with
        | none => r.s.jobOnItems j c r.items counts
        | some (.stops x) => .fault x
        | some (.waits w) => .next (r.s.updJob j.id fun j => { j with eng := { j.eng with wait := w } })
        | some (.data ..) => .next (r.s.cancelJob j)
        | some (.fails t) =>
          if d.strict ∧ r.items.any (fun x => x.bad.isSome) then r.s.jobOnItems j c r.items counts else .next (r.s.failRead j c.handle t)

/-- A job whose turn has come: no earlier one on its structure, its issuers' stores performed and acknowledged, and nothing waited for (R343, R354). -/
def State.jobRuns (s : State) (j : Job) : Bool :=
  let same (x : Job) : Bool := x.part == j.part && x.ctx == j.ctx && (x.d.handle == j.d.handle || x.fresh)
  j.eng.wait == .none && !j.growWait && (j.uids.all fun u => (s.fibre u).acked && (s.fibre u).journal.isEmpty) &&
  (if j.d.handle = 0 ∧ !j.fresh then true else ((s.jobs.find? same).map fun x => x.id == j.id).getD false)

/-- BUILD_JOB_COMPLETE. -/
def execBuildJobComplete (job : Nat) (s : State) : Host.Outcome State Fault Refusal :=
  match s.jobs.find? fun j => j.id == job with
  | none => .next s
  | some j => if s.jobRuns j then s.runJob j else .next s

/-- Jobs whose turn has come are run; one that waits for reclamation tries again when none is in progress. -/
def State.settleJobs (s : State) : State :=
  s.jobs.foldl (fun s j =>
    let idle := match s.structCtx j.part j.ctx with
      | none => true
      | some c => if j.d.free then c.gens.all fun g => g.state == 4 else c.gens.all fun g => g.state != 3
    let s := if j.eng.wait == .jobs && idle then s.updJob j.id fun j => { j with eng := { j.eng with wait := .none } } else s
    match s.jobs.find? fun x => x.id == j.id with
    | some j => if s.jobRuns j && !s.isSet (.buildJobComplete j.id) then s.post (.buildJobComplete j.id) else s
    | none => s) s

/-- ARENA_EXTENSION_SERVICE (R344): the arena grows by its original size, or the request is refused. -/
def execArenaExtensionService (job : Nat) (granted : Bool) (s : State) : Host.Outcome State Fault Refusal :=
  match s.jobs.find? fun j => j.id == job && j.growWait with
  | none => .next s
  | some j =>
    let s := s.updJob job fun j => { j with growWait := false, refused := !granted }
    .next (if granted then s.updStruct j.part j.ctx fun c => { c with size := c.size + c.original, extensions := c.extensions + 1 } else s)

/-- GENERATION_RECLAIM_COMPLETE: the nodes that it alone kept are free (R347, R349). The data stay known while an interval is open, since a
rollback restores a current generation (R385). -/
def execGenerationReclaimComplete (part ctx gen : Nat) (s : State) : Host.Outcome State Fault Refusal :=
  match s.genOf part ctx gen with
  | none => .next s
  | some g =>
    if g.state ≠ 3 then .next s
    else
      let s := s.updGen part ctx gen fun g => { g with state := 4 }
      .next ((g.data.insts.filter fun r => r.w2o != []).foldl (fun s r => s.checkReclaim part r.ctx r.gen) s)

/-! ### Publication, pins and queries (R355 to R358) -/

/-- The result word of BLD.PUB and BLD.PIN. -/
def genWord (gen status : Nat) : PDWord := ⟨BitVec.ofNat 64 (gen * 2 ^ 32 + status), false⟩

/-- Publish a staged result (R347, R350). -/
def State.publish (s : State) (part : Nat) (c : StructCtx) (t : Nat) (g : GenData) : State :=
  let n := c.maxGen + 1
  let prior := (c.gens.find? fun x => x.state == 1 && x.tag == t).map fun x => x.num
  let s := s.retireCurrent part c.idx t
  let new : Gen := { num := n, state := 1, tag := t, pins := 0, fresh := t == 0 && (s.interval part).isSome, replaced := prior, data := g }
  s.updStruct part c.idx fun c => { c with maxGen := n, staged := c.staged.filter fun x => x.1 != t, gens := c.gens ++ [new] }

/-- A job works on a structure: it made it, or its handle names it. -/
def Job.on (j : Job) (c : StructCtx) : Bool := j.part == c.part && j.ctx == c.idx && (j.fresh || j.d.handle == c.handle)

/-- A job of a tag on a structure has not written its token (R355, R357). -/
def State.busy (s : State) (c : StructCtx) (t : Nat) : Bool := s.jobs.any fun j => j.on c && s.genTag j.part j.tag c.top == t

/-- BLD.PUB. -/
def execBldPub (e : Ext) (s : State) : Host.Outcome State Fault Refusal :=
  s.issue { issueOf 0x34 3 e e.len with compare := true, once := true } (renderChecks 0x34 3 e (afterAcks 4 (oncePerWave fun s f _ =>
    let done (s : State) (x : PDWord) : Except Stop (State × List Nat) := .ok (s.setS f.groupId e.d.toNat x, [])
    match s.structOf f.part (s.sA f e) with
    | none => done s (genWord 0 2)
    | some c =>
      let t := s.genTag f.part f.tag c.top
      if s.busy c t then .error (.wait .waitMemory .jobs)
      else
        match c.staged.find? fun x => x.1 == t with
        | none => done s (genWord 0 1)
        | some x => if c.maxGen = 2 ^ 32 - 1 then done s (genWord 0 3) else done (s.publish f.part c t x.2) (genWord (c.maxGen + 1) 0))))

/-- A follower's part in a read of a generation: the matching acquire (R355, R359). -/
def takeGen (s : State) (f : Fibre) (_ : Fwd) : State := s.acquire f 4

/-- BLD.PIN. -/
def execBldPin (e : Ext) (s : State) : Host.Outcome State Fault Refusal :=
  s.issue { issueOf 0x34 4 e e.len with once := true, take := takeGen } (renderChecks 0x34 4 e (oncePerWave fun s f _ =>
    let s := s.acquire f 4
    match (s.structOf f.part (s.sA f e)).bind fun c => (s.currentGen f.part f.tag c).map fun g => (c, g) with
    | none => .ok (s.setS f.groupId e.d.toNat (genWord 0 1), [])
    | some (c, g) =>
      if 256 ≤ (s.pipeOf f).pins.length then .ok (s.setS f.groupId e.d.toNat (genWord 0 2), [])
      else
        let s := s.updPipe f.part f.pipe fun p => { p with pins := p.pins ++ [(c.idx, g.num)] }
        .ok (s.setS f.groupId e.d.toNat (genWord g.num 0), [])))

/-- BLD.UNPIN. -/
def execBldUnpin (e : Ext) (s : State) : Host.Outcome State Fault Refusal :=
  s.issue { issueOf 0x34 5 e e.len with once := true } (renderChecks 0x34 5 e (oncePerWave fun s f us =>
    let n := (s.sB f e).toNat % 2 ^ 32
    match s.structOf f.part (s.sA f e) with
    | none => .ok (s.setPredAll us e.pd.toNat false, [])
    | some c =>
      if (s.pipeOf f).pins.contains (c.idx, n) then
        let s := (s.updPipe f.part f.pipe fun p => { p with pins := p.pins.erase (c.idx, n) }).checkReclaim f.part c.idx n
        .ok (s.setPredAll us e.pd.toNat true, [])
      else .ok (s.setPredAll us e.pd.toNat false, [])))

/-- What BLD.GEN reads (R357). -/
def State.genInfo (s : State) (f : Fibre) (h : DWord) : Nat :=
  match s.structOf f.part h with
  | none => 1
  | some c =>
    let t := s.genTag f.part f.tag c.top
    let (num, pins) := match s.currentGen f.part f.tag c with
      | some g => (g.num, min 65535 (g.pins + s.otherPins f.part c.idx g.num))
      | none => (0, 0)
    num * 2 ^ 32 + (if c.staged.any fun x => x.1 == t then 2 ^ 31 else 0) + (if s.busy c t then 2 ^ 30 else 0) + pins * 2 ^ 8

/-- BLD.GEN. -/
def execBldGen (e : Ext) (s : State) : Host.Outcome State Fault Refusal :=
  s.issue { issueOf 0x34 6 e e.len with once := true, take := takeGen } (renderChecks 0x34 6 e (oncePerWave fun s f _ =>
    .ok ((s.acquire f 4).setS f.groupId e.d.toNat ⟨BitVec.ofNat 64 (s.genInfo f (s.sA f e)), false⟩, [])))

/-- BLD.QUAL. -/
def execBldQual (e : Ext) (s : State) : Host.Outcome State Fault Refusal :=
  s.issue { issueOf 0x34 7 e e.len with once := true, take := takeGen } (renderChecks 0x34 7 e (oncePerWave fun s f _ =>
    let g := (s.structOf f.part (s.sA f e)).bind fun c => (s.currentGen f.part f.tag c).map fun g => g.data
    let (a, b) : DWord × DWord := match g with
      | none => (0, 0)
      | some g => (g.overlap ++ g.sah, BitVec.ofNat 64 (g.refits * 2 ^ 32 + g.degen % 2 ^ 32))
    let s := (s.acquire f 4).setS f.groupId e.d.toNat ⟨a, false⟩
    .ok (s.setS f.groupId (e.d.toNat + 1) ⟨b, false⟩, [])))

end Sys2Proof.Machine
end

