-- ==== Sys2Proof/Machine/Repl.lean ====
section
/-! DEFINITION. Major 0x36 and the comparison of replicas (R363 to R376, R494, R495). -/

namespace Sys2Proof.Machine

/-! ### SIGRD and SIGCHK (R375, R376) -/

/-- SIGRD. -/
def execSigrd (e : Ext) (s : State) : Host.Outcome State Fault Refusal :=
  s.issue (issueOf 0x36 0 e e.len)
    (if e.dk then oncePerWave fun s f _ => .ok (s.setS f.groupId e.d.toNat ⟨f.sig, false⟩, [])
     else eachFibre fun _ f => .ok (f.setPair e.d.toNat ⟨f.sig, false⟩))

/-- SIGCHK: an explicit comparison point; in agreement it sets pD. -/
def execSigchk (e : Ext) (s : State) : Host.Outcome State Fault Refusal :=
  s.issue { issueOf 0x36 1 e e.len with compare := true } fun s us => .ok (s.setPredAll us e.pd.toNat true, [])

/-! ### What a comparison point compares (R365, R366) -/

/-- The instruction at a fibre's PC, and its length in words. -/
def State.pointInstr (s : State) (f : Fibre) : Option (Nat × Nat × Ext × Nat) :=
  match s.issueWords f f.repLive with
  | .ok (ws, _, _) => (rawForm ws).map fun (major, minor, e) => (major, minor, e, ws.length)
  | .error _ => none

/-- The instruction is performed once (R370, R304, R335, R359); an atomic where it reaches shared memory. -/
def State.oncePoint (s : State) (f : Fibre) (major minor : Nat) (e : Ext) : Bool :=
  if major = 0x24 ∨ major = 0x25 then
    let w := if e.win = 0 then windowOf (s.ea f e) else e.win
    w == 1 || w == 4
  else major = 0x04 ∨ major = 0x05 ∨ (major, minor) ∈ [(0x02, 4), (0x06, 8), (0x06, 9), (0x23, 0), (0x27, 2), (0x27, 3), (0x29, 0), (0x2C, 2), (0x2D, 0), (0x34, 3)]

/-- The class of a point: 1 release, 2 performed once, 3 drain, 4 explicit (R365, R494). -/
def State.pointClass (s : State) (f : Fibre) : Nat :=
  match s.pointInstr f with
  | none => 4
  | some (major, minor, e, _) =>
    if (major, minor) = (0x36, 1) ∨ (major, minor) = (0x02, 0) then 4
    else if (major, minor) ∈ [(0x03, 4), (0x03, 5), (0x03, 8), (0x27, 6), (0x06, 6)] then 1
    else if (major, minor) = (0x26, 1) then 3
    else if major ∈ [0x12, 0x20, 0x21, 0x22, 0x24, 0x25, 0x26, 0x27] ∧ 2 ≤ e.sync then 1
    else if s.oncePoint f major minor e then 2 else 3

/-- The operand registers of a performed-once point. -/
def State.pointOperands (s : State) (f : Fibre) : List (Nat × DWord × Bool) :=
  match s.pointInstr f with
  | none => []
  | some (major, minor, e, _) =>
    if !s.oncePoint f major minor e then []
    else
      let us := usesOf major minor e
      ((readRegs us false).map fun n => (n, (f.v n).val.setWidth 64, (f.v n).poison)) ++
      (readRegs us true).map fun n => (n + 512, (s.sreg f n).val, (s.sreg f n).poison)

/-- The live fibres of a replica set, by replica. -/
def State.replicaSet (s : State) (f : Fibre) : List Fibre := sortBy (fun g => g.repl) (f :: s.followers f)

/-- A fibre has arrived at its comparison point. -/
def Fibre.atPoint (f : Fibre) : Bool := f.wait == .compare

/-- Two replicas agree. -/
def State.agree (s : State) (f g : Fibre) : Bool :=
  f.atPoint && g.atPoint && f.sig == g.sig && f.pc == g.pc && s.pointOperands f == s.pointOperands g

/-! ### Agreement, vote, mismatch -/

/-- Agreement: the leader's journal is performed, each follower discards its own, and the point proceeds (R366, R367). -/
def State.agreed (s : State) (fs : List Fibre) (leader : Nat) : State :=
  let s := (fs.filter fun f => f.repl == leader).foldl (fun s f => s.performJournal f.uid) s
  s.updAll (fs.map fun f => f.uid) fun f => { f.retry with sig := 0, journal := [], agreed := true, engWrote := false }

/-- Fence a replica of a pipeline (R373): its fibres end, its groups dissolve, and the pipeline goes on with the others; a replica left alone
performs what its fibres have journalled (R498). -/
def State.fence (s : State) (part pipe repl : Nat) : State :=
  let mine := (s.fibres.filter fun f => f.part == part && f.pipe == pipe && f.repl == repl).map fun f => f.uid
  let gone := (s.groups.filter fun (g : Group) => g.part == part && g.repl == repl && (mine.contains g.creator || g.members.any fun m => mine.contains m.2)).map
    fun (g : Group) => (⟨g.part, g.handle, g.repl⟩ : GroupId)
  let s := s.updPipe part pipe fun p =>
    let live := p.live.filter fun r => r != repl
    { p with live := live, leader := (minBy (fun r => r) live).getD 0 }
  let s := s.updAll mine fun f => { f with journal := [] }
  let s := mine.foldl (fun s u => s.returnSigners u) s
  let s := (s.tmmas.filter fun (t : Tmma) => mine.contains t.uid).foldl (fun s t => s.stopTile t) s
  let s := (s.copies.filter fun (c : Copy) => c.part == part && c.pipe == pipe && c.repl == repl).foldl (fun s c => s.cancelCopy c) s
  let s := (s.beams.filter fun (b : Beam) => b.part == part && b.pipe == pipe && b.repl == repl).foldl (fun s b => s.cancelBeam b) s
  let s := mine.foldl (fun s u => s.endFibre u true) s
  let s := gone.foldl (fun s i => if (s.group? i).isSome then s.dissolve i else s) s
  if (s.pipe part pipe).replicated then s
  else (s.fibres.filter fun f => f.part == part && f.pipe == pipe && f.live).foldl (fun s f => s.performJournal f.uid) s

/-- The record of a vote (R495). -/
def State.voteRecord (s : State) (f : Fibre) (lost : Fibre) (leader cls : Nat) : State :=
  s.report { s.trapRec f { cause := 0x0108, detail := lost.repl + leader * 16 + cls * 256, detail2 := lost.sig.toNat } with rung := 6, prec := false }

/-- REPL_MISMATCH (R374, R494): every replica that has arrived is held at its point. `late` says that the watchdog expired. -/
def State.mismatch (s : State) (fs : List Fibre) (leader : Nat) (late : Bool) : State :=
  match fs.find? fun f => f.repl == leader with
  | none => s
  | some l =>
    let here := fs.filter Fibre.atPoint
    let differs {α : Type} [BEq α] (k : Fibre → α) : Bool := here.any fun f => k f != k l
    let of (k : Fibre → Nat) : Nat := (List.range 3).foldl (fun n r => n + ((fs.find? fun f => f.repl == r).map k).getD 0 * 2 ^ (64 * r)) 0
    let detail := fs.foldl (fun n f => n + 2 ^ f.repl) 0 + (if differs fun f => f.sig then 16 else 0) + (if differs fun f => f.pc then 32 else 0) +
      (if differs fun f => s.pointOperands f then 64 else 0) + (if late then 128 else 0) + s.pointClass l * 256
    let cont := of (fun f => f.sig.toNat) + of (fun f => if f.atPoint then f.pc.toNat else 0) * 2 ^ 192
    let seq := (s.partn l.part).logHead
    let len := ((s.pointInstr l).map fun x => 4 * x.2.2.2).getD 4
    let s := s.report { s.trapRec l { cause := cReplMismatch, detail := detail, detail2 := l.sig.toNat } with cont := [cont], rpl := true }
    let s := s.updAll (here.map fun f => f.uid) fun f => f.holdAt cReplMismatch none (some len) false
    let due := s.clock + 2 * clocksPerMs
    ((s.await l (here.map fun f => f.uid) seq cReplMismatch (some due)).timer due (.replMismatchTimeout l.part)).deliver l.part l.pipe seq (some l.uid)

/-- Compare a replica set (R366, R373, R374). -/
def State.compare (s : State) (f : Fibre) (late : Bool) : State :=
  let fs := s.replicaSet f
  let leader := (s.pipeOf f).leader
  let all := match fs with | [] => true | x :: r => r.all fun g => s.agree x g
  if all && fs.all Fibre.atPoint then s.agreed fs leader
  else
    let out := fs.find? fun m =>
      fs.length == 3 && !(fs.any fun g => g.repl != m.repl && s.agree m g) &&
      (match fs.filter fun g => g.repl != m.repl with | [a, b] => s.agree a b | _ => false)
    match out with
    | none => s.mismatch fs leader late
    | some m =>
      if m.repl = leader ∧ m.engWrote then s.mismatch fs leader late
      else
        let rest := fs.filter fun g => g.repl != m.repl
        let cls := s.pointClass (rest.headD m)
        let s := s.fence f.part f.pipe m.repl
        let next := (s.pipe f.part f.pipe).leader
        (s.voteRecord (rest.headD m) m next cls).agreed rest next

/-- REPL_COMPARISON. -/
def execReplComparison (fibre : Nat) (s : State) : Host.Outcome State Fault Refusal :=
  let f := s.fibre fibre
  .next (if f.live && (s.replicaSet f).all Fibre.atPoint then s.compare f false else s)

/-- REPL_COMPARE_TIMEOUT: a partner that has not arrived counts as disagreeing (R366). -/
def execReplCompareTimeout (fibre : Nat) (s : State) : Host.Outcome State Fault Refusal :=
  let f := s.fibre fibre
  .next (if f.live && f.atPoint && decide (f.pointAt + watchdog (s.pipeOf f).convwd ≤ s.clock) then s.compare f true else s)

end Sys2Proof.Machine
end

