-- ==== Sys2Proof/Machine/Recovery.lean ====
section
/-! DEFINITION. Watchdogs, termination and reset: the watchdog records (R484 to R486), the termination of a pipeline (R443, R487), the
return of a partition to IDLE (R204, R393), HALT, the reset of a partition (R390, R399, R504), BKPT (R202). -/

namespace Sys2Proof.Machine

/-! ### Termination -/

/-- The groups that dissolve with a pipeline: those that are home to a fibre of it (R487). -/
def State.homeGroups (s : State) (part handle : Nat) : List GroupId :=
  (s.groups.filter fun (g : Group) => g.part == part &&
    s.fibres.any fun f => f.part == part && f.pipe == handle && f.repl == g.repl && f.home == g.handle).map fun (g : Group) => ⟨g.part, g.handle, g.repl⟩

/-- Members of other pipelines move to their home groups as by GLEAVE (R487). -/
def State.sendHome (s : State) (handle : Nat) (i : GroupId) : State :=
  ((s.group i).members.filter fun m => (s.fibre m.2).pipe != handle).foldl (fun s m =>
    let f := s.fibre m.2
    let home : GroupId := ⟨f.part, f.home, f.repl⟩
    if (s.group? home).isSome then s.joinGroup m.2 home (s.group home).freeRank else s) s

/-- Stop the engine work of a pipeline as at a squash point, without squashing a tag (R443). -/
def State.stopWork (s : State) (part handle : Nat) : State :=
  let mine := (s.fibres.filter fun f => f.part == part && f.pipe == handle).map fun f => f.uid
  let s := mine.foldl (fun s u => (s.returnSigners u).cancelRays u) s
  let s := (s.tmmas.filter fun (t : Tmma) => t.part == part && t.pipe == handle).foldl (fun s t => s.stopTile t) s
  s.cancelWork fun p h _ => p == part && h == handle

/-- Discard the entries of a pipeline in every port window, without a record (R483). -/
def State.dropPortEntries (s : State) (part handle : Nat) : State :=
  { s with ports := s.ports.map fun (x : Port) => if x.id.part = part then { x with window := x.window.filter fun e => e.pipe != handle } else x }

/-- End a pipeline with a STATUS and a CAUSE: every fibre ENDED, its engine work stopped, its pins released, its groups dissolved (R393,
R443, R487). -/
def State.stopPipe (s : State) (part handle status cause : Nat) : State :=
  let mine := (s.fibres.filter fun f => f.part == part && f.pipe == handle && f.live).map fun f => f.uid
  let gone := s.homeGroups part handle
  let s := (s.stopWork part handle).dropPortEntries part handle
  let s := s.endPipe part handle status cause
  let s := s.updAll mine fun f => { f with journal := [] }
  let s := gone.foldl (fun s i => s.sendHome handle i) s
  let s := mine.foldl (fun s u => s.endFibre u true) s
  let s := gone.foldl (fun s i => if (s.group? i).isSome then s.dissolve i else s) s
  s.updPart part fun p => { p with preqs := p.preqs.map fun q => { q with pipes := q.pipes.filter fun h => h != handle } }

/-! ### The return to IDLE (R393) -/

/-- Commit the open interval: its versions merge into the trunk, its generations become the trunk's, split sets take the trunk as parent,
and deterministic epochs end (R382, R302, R379). No interval is open afterwards. -/
def State.closeInterval (s : State) (part : Nat) : State :=
  match s.interval part with
  | none => s
  | some t =>
    let s := (s.mergeVersions part t 0).commitGens part t 0
    let s := s.endEpoch part none
    let s := { s with structs := mapIf (fun (c : StructCtx) => c.part == part) (fun (c : StructCtx) =>
      { c with gens := (c.gens.filter fun (g : Gen) => g.state != 4).map fun (g : Gen) => { g with fresh := false, replaced := none } }) s.structs }
    let s := { s with tags := mapIf (fun (r : TagRec) => r.part == part) (fun (r : TagRec) => { r with interval := false }) s.tags }
    { s.updPart part fun p => { p with openInterval := none, intervals := p.intervals + 1 } with
      verLines := s.verLines.filter fun v => v.tag != t }

/-- Squash every LIVE or COMMITTING tag of a partition. -/
def State.squashAll (s : State) (part : Nat) : State :=
  (List.range 64).foldl (fun s t => if t ≠ 0 ∧ (s.tagRec t).part = part then s.squash t else s) s

/-- The running pipelines of a partition. -/
def State.runningPipes (s : State) (part : Nat) : List Pipe := s.pipes.filter fun (p : Pipe) => p.part == part && p.ended.isNone

/-- Settle a partition that returns to IDLE through HALT (STATUS 0x11) or through the end of its supervisor pipeline (0x12) (R393). DESIGN CHOICE
(notes/assumptions/86.md): a SUSPEND that is under way ends with it, in the wrong state (0x02). -/
def State.goIdle (s : State) (part status : Nat) : State :=
  let s := (s.runningPipes part).foldl (fun s p => s.stopPipe part p.handle status 0) s
  let s := (s.squashAll part).closeInterval part
  let s := { s with leases := s.leases.filter fun (l : Lease) => l.part != part }
  let s := if (s.partn part).suspending then { s with cmdStat := 2 } else s
  s.updPart part fun p => { p with state := 1, preqs := [], suspending := false, resuming := none, boundary := false, rollback := false, awaited := [] }

/-- A partition whose supervisor pipeline has ended returns to IDLE (R392, R393). -/
def State.settleSupervisors (s : State) : State :=
  (List.range 16).foldl (fun s p =>
    if (s.partn p).state = 2 ∧ !(s.runningPipes p).any (fun (x : Pipe) => x.supervisor) then s.goIdle p 0x12 else s) s

/-- Terminate a pipeline (R443). -/
def State.terminate (s : State) (part handle cause : Nat) : State := s.stopPipe part handle 0x10 cause

/-- HALT (R204). -/
def execHalt (e : Ext) (s : State) : Host.Outcome State Fault Refusal :=
  s.issue { issueOf 6 6 e e.len with priv := true, compare := true }
    (afterAcks 6 fun s us =>
      let f := s.fibre (us.headD 0)
      .ok ((s.release f).goIdle f.part 0x11, s.cur))

/-! ### Reset of a partition (R390, R399, R504) -/

/-- Squash the open interval tag: every VERSIONED write since the boundary vanishes, and the generations published since then retire
(R385). -/
def State.squashInterval (s : State) (part : Nat) : State :=
  match s.interval part with
  | none => s
  | some t =>
    let s := (s.dropVersions t).squashGens part t
    { s.updPart part fun p => { p with openInterval := none, ordLines := [] } with verLines := s.verLines.filter fun v => v.tag != t }

/-- The engine work of an image is in the machine again (R416). -/
def State.restoreWork (s : State) (c : Capture) : State :=
  { s with rays := s.rays ++ c.rays, gathers := s.gathers ++ c.gathers, loads := s.loads ++ c.loads, copies := s.copies ++ c.copies
           beams := s.beams ++ c.beams, jobs := s.jobs ++ c.jobs }

/-- Begin a reset: everything of the partition ends, and STATE reads RESETTING until a move in progress has ended. -/
def State.resetPart (s : State) (part : Nat) : State :=
  let s := match if (s.partn part).state = 3 then (s.partn part).image else none with
    | some (_, c) => s.restoreWork c
    | none => s
  let s := (s.runningPipes part).foldl (fun s p => s.stopPipe part p.handle 0x10 0) s
  let s := (s.squashAll part).squashInterval part
  let s := { s with leases := s.leases.filter fun (l : Lease) => l.part != part, cmdStat := 0xFF
                    sinks := (s.sinks.zip (List.range s.sinks.length)).map fun ((x, k) : Sink × Nat) =>
                      if (s.partn part).res.getLsbD (32 + k) then { x with pending := none } else x }
  let s := s.updPart part fun p =>
    { p with state := 4, preqs := [], suspending := false, resuming := none, launchWait := none, boundary := false, rollback := false, awaited := [], emergency := none, diverting := [], errorWake := false
             captures := [none, none], migrs := p.migrs.filter fun m => m.state == 2
             contracts := p.contracts.map fun c =>
               { c with reg := c.reg &&& 0x3FFFFFFFFFFFFFFF#64, adm := false, start := none, spent := 0, delivered := false, overrun := false } }
  s.post (.resetComplete part)

/-- RESET (R390): from any state but DOWN. -/
def execReset (part : Nat) (s : State) : Host.Outcome State Fault Refusal :=
  if !s.ready then .next s
  else if s.cmdStat = 0xFF then .next (s.timer (s.clock + 1) (.reset part))
  else if (s.partn part).state = 0 then .next { s with cmdStat := 2 }
  else .next (s.resetPart part)

/-- RESET_COMPLETE (R504): no move of the partition is in progress. -/
def execResetComplete (part : Nat) (s : State) : Host.Outcome State Fault Refusal :=
  if (s.partn part).state ≠ 4 ∨ !(s.partn part).migrs.isEmpty then .next s
  else .next { s.updPart part fun p => { p with state := 1 } with cmdStat := 0 }

/-! ### Watchdog records (R485, R486) -/

/-- The state of a fibre in the order of R61's table; one that is SAVED shows the state beneath. -/
def Fibre.stateCode (f : Fibre) : Nat :=
  if f.tiered && !f.saved then 6
  else match f.st with
    | .runnable => 0
    | .waitMemory => 1
    | .waitBarrier => 2
    | .waitConverge => 3
    | .sleeping => 4
    | .parkedHit => 5
    | .ended => 8

/-- A set of ranks as a number. -/
def rankMask (rs : List Nat) : Nat := rs.foldl (fun n r => n ||| 2 ^ r) 0

/-- The 48-byte pieces of a number of bytes. -/
def pieces48 (x bytes : Nat) : List Nat := (List.range ((bytes + 47) / 48)).map fun i => x / 2 ^ (384 * i) % 2 ^ 384

/-- The PC entries of the members that are missing: one for each distinct PC, ascending. -/
def State.pcEntries (s : State) (missing : List (Nat × Nat)) : List Nat :=
  let pcs := sortBy (fun n => n) (missing.foldl (fun l m => addOnce l (s.fibre m.2).pc.toNat) [])
  pcs.map fun pc =>
    let here := missing.filter fun m => (s.fibre m.2).pc.toNat == pc
    let low := (minBy (fun (m : Nat × Nat) => m.1) here).getD (0, 0)
    pc + here.length * 2 ^ 64 + low.1 * 2 ^ 96 + (s.fibre low.2).stateCode * 2 ^ 112

/-- A watchdog that has expired: the group, what it watches (0 a barrier, 1 a register, 2 a step set), and its number. -/
structure Watch where
  group : GroupId
  kind : Nat
  num : Nat
  pipe : Nat
  due : Nat
  deriving DecidableEq, Repr

/-- The fields of a watchdog's record: expected, done, lost, the ranks that are there, the members that are missing, and the waiting ones. -/
structure WatchInfo where
  expect : Nat
  done : Nat
  lost : Nat
  there : List Nat
  missing : List (Nat × Nat)
  waiting : List (Nat × Nat)

/-- What a watchdog's record says. -/
def State.watchInfo (s : State) (w : Watch) : WatchInfo :=
  let g := s.group w.group
  let waits (p : Wait → Bool) : List (Nat × Nat) := g.members.filter fun m => p (s.fibre m.2).wait
  match w.kind with
  | 0 =>
    let b := g.bar w.num
    { expect := b.expected.length + b.lost, done := b.arrived.length, lost := b.lost
      there := (g.members.filter fun m => b.arrived.contains m.2).map fun m => m.1
      missing := g.members.filter fun m => b.expected.contains m.2 && !b.arrived.contains m.2
      waiting := waits fun x => x == .barrier w.num || x == .barrierNext w.num true || x == .barrierNext w.num false }
  | 1 =>
    let c := g.cv w.num
    { expect := c.size, done := c.count, lost := g.lost.length
      there := (g.members.filter fun m => c.signers.contains m.2).map fun m => m.1
      missing := g.members.filter fun m => !c.signers.contains m.2
      waiting := waits fun x => x == .round w.num || x == .signNext w.num || x == .mmaRound w.num c.round }
  | _ =>
    match s.stepSets.find? fun (x : StepSet) => x.part == w.group.part && x.grp == w.group.handle && x.repl == w.group.repl && x.cv == w.num && x.bound.isNone with
    | none => ⟨0, 0, 0, [], [], []⟩
    | some x =>
      let mine := x.signers.map fun y => y.uid
      { expect := (g.cv w.num).size, done := x.signers.length, lost := g.lost.length
        there := (g.members.filter fun m => mine.contains m.2).map fun m => m.1
        missing := g.members.filter fun m => !mine.contains m.2 && (s.fibre m.2).signed.any fun z => z.1 == w.group.handle && z.2.1 == w.num && z.2.2.1 == x.round
        waiting := g.members.filter fun m => mine.contains m.2 }

/-- Write a watchdog's record and terminate the pipeline (R485 to R487). -/
def State.watchdogExpires (s : State) (w : Watch) : State :=
  let g := s.group w.group
  let i := s.watchInfo w
  let entries := s.pcEntries i.missing
  let shown := entries.take 29
  let bytes := 256 + 16 * shown.length
  let capture := rankMask i.there + rankMask g.lost * 2 ^ 1024 + (shown.zip (List.range shown.length)).foldl (fun n (x, k) => n + x * 2 ^ (2048 + 128 * k)) 0
  let detail := w.num + (if w.kind = 2 then 8 else 0) + i.expect * 2 ^ 16 + i.done * 2 ^ 32 + i.lost * 2 ^ 48 + (if 29 < entries.length then 2 ^ 63 else 0)
  let low := (minBy (fun (m : Nat × Nat) => m.1) i.waiting).getD ((minBy (fun (m : Nat × Nat) => m.1) g.members).getD (0, 0))
  let f := s.fibre low.2
  let cause := if w.kind = 0 then cBarrierTimeout else cConvergeTimeout
  let seq := (s.partn f.part).logHead
  let s := s.report { s.trapRec f { cause := cause, detail := detail, detail2 := w.group.handle % 2 ^ 32 } with
    rung := 3, prec := false, pipe := w.pipe, cont := pieces48 capture bytes }
  (s.deliver w.group.part w.pipe seq none).terminate w.group.part w.pipe cause

/-- The clock up to which a pipeline's watchdogs have run: they stand still while every fibre of it is SAVED (R484). -/
def State.watchClock (s : State) (part handle : Nat) : Nat := ((s.pipe part handle).savedSince).getD s.clock

/-- The watchdogs that run over a group. -/
def State.watches (s : State) (g : Group) : List Watch :=
  let i : GroupId := ⟨g.part, g.handle, g.repl⟩
  let of (kind num : Nat) (p : Pipe) (since : Nat) (conv : Bool) : Watch :=
    { group := i, kind := kind, num := num, pipe := p.handle, due := since + watchdog (if conv then p.convwd else p.barwd) }
  ((List.range 4).filterMap fun b => let x := g.bar b; if x.isOpen then some (of 0 b (s.pipe g.part x.pipe) x.since false) else none) ++
  ((List.range 8).filterMap fun k => let c := g.cv k; c.since.bind fun t => (c.signers.head?).map fun u => of 1 k (s.pipeOf (s.fibre u)) t true) ++
  (s.stepSets.filter fun (x : StepSet) => x.part == g.part && x.grp == g.handle && x.repl == g.repl && x.signers.length < 16).filterMap fun (x : StepSet) =>
    (x.signers.head?).map fun y => of 2 x.cv (s.pipeOf (s.fibre y.uid)) x.completed true

/-- The expired watchdog of a pipeline that writes the record: the earliest, barriers before registers, then the lower number (R484). -/
def State.firstExpired (s : State) (part handle : Nat) : Option Watch :=
  let due := (s.groups.filter fun (g : Group) => g.part == part).flatMap fun g => (s.watches g).filter fun w =>
    w.pipe == handle && decide (w.due ≤ s.watchClock part handle)
  minBy (fun (w : Watch) => (w.due * 4 + (if w.kind = 0 then 0 else 1)) * 8 + w.num) due

/-- A watchdog's clock has come. -/
def State.watchdogDue (s : State) (i : GroupId) (p : Watch → Bool) : State :=
  match ((s.group? i).map s.watches).bind fun ws => ws.find? fun w => p w && decide (w.due ≤ s.watchClock i.part w.pipe) with
  | none => s
  | some w =>
    match s.firstExpired i.part w.pipe with
    | none => s
    | some x => s.watchdogExpires x

/-- BARRIER_TIMEOUT. -/
def execBarrierTimeout (group : GroupId) (barrier : Nat) (s : State) : Host.Outcome State Fault Refusal :=
  .next (s.watchdogDue group fun w => w.kind == 0 && w.num == barrier)

/-- CONVERGE_TIMEOUT: of a round, or of a step set. -/
def execConvergeTimeout (group : GroupId) (reg : Nat) (s : State) : Host.Outcome State Fault Refusal :=
  .next (s.watchdogDue group fun w => w.kind != 0 && w.num == reg)

/-- Every live fibre of a pipeline is SAVED. -/
def State.allSaved (s : State) (p : Pipe) : Bool :=
  let fs := s.fibres.filter fun f => f.part == p.part && f.pipe == p.handle && f.live
  !fs.isEmpty && fs.all fun f => f.saved

/-- The watchdogs of a pipeline move on by the clocks for which they stood still, and are armed again. -/
def State.shiftWatches (s : State) (p : Pipe) (d : Nat) : State :=
  let mine (g : Group) : Bool := g.part == p.part && g.members.any fun m => (s.fibre m.2).pipe == p.handle
  let s := { s with
    groups := mapIf mine (fun (g : Group) =>
      { g with bars := g.bars.map fun (b : Barrier) => { b with since := b.since + d }
               cvs := g.cvs.map fun (c : CvReg) => { c with since := c.since.map fun x => x + d } }) s.groups
    stepSets := mapIf (fun (x : StepSet) => x.part == p.part && x.pipe == p.handle) (fun (x : StepSet) => { x with completed := x.completed + d }) s.stepSets
    fibres := mapIf (fun (f : Fibre) => f.part == p.part && f.pipe == p.handle) (fun (f : Fibre) => { f with pointAt := f.pointAt + d }) s.fibres }
  let s := ((s.groups.filter mine).flatMap s.watches).foldl (fun s w =>
    s.timer (max w.due s.clock) (if w.kind = 0 then .barrierTimeout w.group w.num else .convergeTimeout w.group w.num)) s
  (s.fibres.filter fun f => f.part == p.part && f.pipe == p.handle && f.wait == .compare).foldl (fun s f =>
    s.timer (max s.clock (f.pointAt + watchdog p.convwd)) (.replCompareTimeout f.uid)) s

/-- Watchdogs stand still from the clock at which the last fibre of a pipeline is SAVED until the first one returns (R484). -/
def State.settleWatches (s : State) : State :=
  (s.pipes.filter fun (p : Pipe) => p.ended.isNone).foldl (fun s p =>
    match s.allSaved p, p.savedSince with
    | true, none => s.updPipe p.part p.handle fun x => { x with savedSince := some s.clock }
    | false, some c => (s.updPipe p.part p.handle fun x => { x with savedSince := none }).shiftWatches p (s.clock - c)
    | _, _ => s) s

/-! ### BKPT (R202) -/

/-- BKPT's hold: the record stands in the device log alone, and MSI-X vector 18 is raised (R430). -/
def breakBody (e : Ext) : Body := fun s us =>
  let f := s.fibre (us.headD 0)
  let s := s.devLog (s.trapRec f { cause := cBkpt, detail := e.imm.toNat })
  .ok ({ s.updAll us fun f => f.holdAt cBkpt none (some e.len) true with msix := s.msix ++ [18] }, us)

/-- BKPT: a hold for the debugger while debug is enabled for the partition (R430); else nothing but its stall count. -/
def execBkpt (e : Ext) (s : State) : Host.Outcome State Fault Refusal :=
  s.issue (issueOf 6 5 e e.len) fun s us =>
    if s.dbgEn.getLsbD (s.fibre (us.headD 0)).part then breakBody e s us else .ok (s, [])

end Sys2Proof.Machine
end

