-- ==== Sys2Proof/Machine/Preempt.lean ====
section
/-! DEFINITION. Pre-emption and migration: saves (R404 to R407), save areas and images (R408 to R410, R501, R502), forced saves (R406,
R500), restores (R407), migration (R411 to R415), and the instructions PREQ, MIGR and SETSR (R201, R417 to R419). -/

namespace Sys2Proof.Machine

/-! ### Requests -/

/-- A pre-emption request for a set of pipelines, with a deadline in clocks (R404). -/
def State.requestSave (s : State) (part source : Nat) (pipes : List Nat) (deadline : Nat) : State :=
  let s := { s with pipes := mapIf (fun (p : Pipe) => p.part == part && pipes.contains p.handle) (fun (p : Pipe) => { p with holds := addOnce p.holds source }) s.pipes }
  (s.updPart part fun p => { p with preqs := p.preqs ++ [{ source := source, pipes := pipes, deadline := s.clock + deadline }] }).timer
    (s.clock + deadline) (.preemptDeadline part)

/-- A source no longer holds some pipelines; its request for them is withdrawn (R407). -/
def State.dropHold (s : State) (part source : Nat) (pipes : List Nat) : State :=
  let s := { s with pipes := mapIf (fun (p : Pipe) => p.part == part && pipes.contains p.handle)
                               (fun (p : Pipe) => { p with holds := p.holds.filter fun h => h != source }) s.pipes }
  s.updPart part fun p => { p with preqs := mapIf (fun (q : Preq) => q.source == source) (fun (q : Preq) =>
    { q with pipes := q.pipes.filter fun h => !pipes.contains h }) p.preqs }

/-- Save a fibre where it stands: an MMA whose operands have not been read returns, and a TMMA stops at its step (R282, R288). A REP word issues
again when the fibre resumes (R187). -/
def State.saveFibre (s : State) (u : Nat) : State :=
  let s := s.returnSigners u
  let s := (s.tmmas.filter fun (t : Tmma) => t.uids.contains u && (s.fibre u).wait == .tmma t.id).foldl (fun s t => s.stopTile t) s
  s.updFibre u Fibre.save

/-- A request applies to a fibre wherever it stands: to its pipeline, or to its core (R405, R412). -/
def State.mustSave (s : State) (f : Fibre) : Bool :=
  let p := s.partn f.part
  (p.preqs.any fun q => q.pipes.contains f.pipe) || p.migrs.any fun m => m.state == 1 && m.src == f.onCore

/-- Fibres to which a request applies are saved at once in a waiting state or in the tier (R405, R412). -/
def State.saveWaiting (s : State) : State :=
  (s.fibres.filter fun f => f.live && !f.saved && (f.st != .runnable || f.tiered) && s.mustSave f).foldl (fun s f => s.saveFibre f.uid) s

/-- Requests all of whose fibres are SAVED are complete. -/
def State.endRequests (s : State) : State :=
  { s with parts := (s.parts.zip (List.range s.parts.length)).map fun ((p, i) : Partition × Nat) =>
      { p with preqs := p.preqs.filter fun (q : Preq) => s.fibres.any fun f => f.part == i && q.pipes.contains f.pipe && f.live && !f.saved } }

/-- The fibres that a deadline saves by force: (fibre, source), 4 for a migration (R406, R412). -/
def State.overdue (s : State) (part : Nat) : List (Fibre × Nat) :=
  let p := s.partn part
  (s.fibres.filter fun f => f.part == part && f.live && !f.saved).filterMap fun f =>
    match p.preqs.find? fun q => decide (q.deadline ≤ s.clock) && q.pipes.contains f.pipe with
    | some q => some (f, q.source)
    | none => if p.migrs.any fun m => m.state == 1 && m.src == f.onCore && decide (m.deadline ≤ s.clock) then some (f, 4) else none

/-- Save fibres by force, with one record for each core (R406, R500). -/
def State.forceSaves (s : State) (part : Nat) : State :=
  let due := s.overdue part
  let cores := due.foldl (fun l (f, _) => addOnce l f.onCore) []
  let s := due.foldl (fun s (f, _) => s.saveFibre f.uid) s
  cores.foldl (fun s c =>
    let mine := due.filter fun x => x.1.onCore == c
    s.report { cause := cPreemptForced, detail := mine.length % 2 ^ 12, detail2 := (mine.head?.map fun x => x.2).getD 0
               pcore := (s.partn part).phys c, part := some part }) s

/-- PREEMPT_DEADLINE. -/
def execPreemptDeadline (part : Nat) (s : State) : Host.Outcome State Fault Refusal := .next (s.forceSaves part)

/-! ### Save areas (R408 to R410, R501, R502) -/

/-- BASE of SAVE_CTL. -/
def Partition.saveBase (p : Partition) : Nat := bits p.saveCtl.toNat 21 36 * 2 ^ 21

/-- The base of a core's slot in a region of a save area. -/
def slotBase (base region core : Nat) : Nat := base + region * (384 * 2 ^ 20) + core * (3 * 2 ^ 20)

/-- The base of a core's vault slot in region 3. -/
def vaultSlot (base core : Nat) : Nat := base + 1152 * 2 ^ 20 + core * 2 ^ 20

/-- The offsets of the pages of an image, 4 KiB each, ascending; the scratchpad is part of migration and suspension images (R410). -/
def imageOffsets (scratch : Bool) : List Nat :=
  ((List.range 156).map fun i => i * 4096) ++ ((List.range 384).map fun i => 0xC0000 + i * 4096) ++
  (if scratch then (List.range 64).map fun i => 0x240000 + i * 4096 else [])

/-- The first page of an image that has no translation: its offset and its address. -/
def State.absentPage (s : State) (part base : Nat) (offs : List Nat) : Option (Nat × Nat) :=
  (offs.find? fun o => (s.walk part (base + o)).isNone).map fun o => (o, base + o)

/-- SAVE_FAULT: the record, and the reset of the partition (R501). -/
def State.saveFault (s : State) (part core off va reason : Nat) : State :=
  (s.report { cause := cSaveFault, addr := va, detail := off, detail2 := reason, rung := 4, pcore := (s.partn part).phys core
              lcore := some core, part := some part }).resetPart part

/-- Ask for a page of a save area (R397, R409); `restore` says that a restore reads it. -/
def State.servicePage (s : State) (part core off va : Nat) (restore : Bool) : State :=
  let p := s.partn part
  let page := p.servicePage va
  if p.services.any fun x => x.va == page then s
  else
    (s.updPart part fun q => { q with services := q.services ++
      [{ va := page, acc := if restore then 1 else 2, request := false, region := p.region? va, mode := p.mode, hostSeq := none, frame := none, failed := none, save := some (core, off, restore) }] }).post
      (.mmpFaultService part (BitVec.ofNat 64 page))

/-- A core's image finds its save area: it is written, it is diverted to the emergency area, or it waits for that area. The flag says that the
core's context is saved. -/
def State.imageSaved (s : State) (part core : Nat) (scratch : Bool) : State × Bool :=
  let p := s.partn part
  if p.emergency = some core then (s, true)
  else if p.saveBase = 0 then (s.saveFault part core 0 0 0, false)
  else
    match s.absentPage part (slotBase p.saveBase 0 core) (imageOffsets scratch) with
    | none => (s.updPart part fun p => { p with diverting := p.diverting.filter fun x => x.1 != core }, true)
    | some (off, va) =>
      let s := s.servicePage part core off va false
      if p.emergency.isNone then
        (s.updPart part fun p => { p with emergency := some core, diverting := p.diverting.filter fun x => x.1 != core }, true)
      else if p.diverting.any fun x => x.1 == core then (s, false)
      else ((s.updPart part fun p => { p with diverting := p.diverting ++ [(core, s.clock)] }).timer (s.clock + 2 ^ 24) (.saveDivertTimeout part), false)

/-- SAVE_DIVERT_TIMEOUT: a second diverted save has waited too long (R501). -/
def execSaveDivertTimeout (part : Nat) (s : State) : Host.Outcome State Fault Refusal :=
  let p := s.partn part
  match p.diverting.find? fun x => decide (x.2 + 2 ^ 24 ≤ s.clock) with
  | none => .next s
  | some (core, _) =>
    match s.absentPage part (slotBase p.saveBase 0 core) (imageOffsets false) with
    | some (off, va) => .next (s.saveFault part core off va 2)
    | none => .next s

/-- EMERGENCY_IMAGE_COPY: the pages of the diverted image are there, and the MMP copies it into place (R409). -/
def execEmergencyImageCopy (part : Nat) (s : State) : Host.Outcome State Fault Refusal :=
  let p := s.partn part
  match p.emergency with
  | none => .next s
  | some core =>
    match s.absentPage part (slotBase p.saveBase 0 core) (imageOffsets false) with
    | none => .next (s.updPart part fun p => { p with emergency := none })
    | some (off, va) => .next (s.servicePage part core off va false)

/-- The MMP services the pages of a diverted image one after the other, and copies it. -/
def State.settleEmergency (s : State) : State :=
  (List.range 16).foldl (fun s part =>
    match (s.partn part).emergency with
    | none => s
    | some core =>
      match s.absentPage part (slotBase (s.partn part).saveBase 0 core) (imageOffsets false) with
      | none => if s.isSet (.emergencyImageCopy part) then s else s.post (.emergencyImageCopy part)
      | some (off, va) => s.servicePage part core off va false) s

/-! ### Gangs that leave their slots, and return (R407) -/

/-- The live fibres of a gang. -/
def State.gangFibres (s : State) (g : GangId) : List Fibre := s.fibres.filter fun f => f.live && f.gang == g

/-- The gangs in slots all of whose fibres are SAVED with their pipeline; core migration keeps the gang slot (R28, R407). -/
def State.savedGangs (s : State) : List GangId :=
  let gs := (s.fibres.filter fun f => f.live && f.saved && decide (f.slot < 8) && !(s.pipeOf f).holds.isEmpty).foldl (fun l f => if l.contains f.gang then l else l ++ [f.gang]) []
  gs.filter fun g => (s.gangFibres g).all fun f => f.saved

/-- A gang gives up its slot, its windows and its contexts once its core's image is saved. A number from 8 up then names the gang. -/
def State.parkGang (s : State) (g : GangId) : State :=
  match s.gangFibres g with
  | [] => s
  | f :: _ =>
    let scratch := (s.pipeOf f).holds.contains 2 || (s.partn g.part).migrs.any fun m => m.src == g.lcore
    let (s, ok) := s.imageSaved g.part g.lcore scratch
    if !ok then s
    else
      let (n, s) := s.fresh
      (s.mapFibres fun f => if f.live && f.gang == g then { f with slot := 8 + n } else f).retryInstances g.part

/-- Gangs whose fibres are all SAVED leave their slots. -/
def State.parkGangs (s : State) : State := s.savedGangs.foldl (fun s g => if s.savedGangs.contains g then s.parkGang g else s) s

/-- The slot that a saved gang may take: one free slot of its quadrant, windows for all of its fibres, and contexts for its groups, at once. -/
def State.slotFor (s : State) (fs : List Fibre) : Option Nat :=
  match fs with
  | [] => none
  | f :: _ =>
    let here := s.residents f.part f.onCore
    let words := wordsIn here f.quad + fs.foldl (fun n g => n + g.win) 0
    let cluster := f.lcore / 4
    let held := s.groups.filter fun (g : Group) => g.part == f.part && g.repl == f.repl && handleCluster g.handle == cluster && s.holdsCtx g
    let new := fs.foldl (fun l g => if held.any (fun (x : Group) => x.handle == g.cur) then l else addOnce l g.cur) []
    if quadWords < words ∨ 128 < held.length + new.length then none
    else (List.range 8).find? fun k => here.all fun g => !(g.quad == f.quad && g.slot == k)

/-- No source and no migration holds a saved fibre. -/
def State.mayReturn (s : State) (f : Fibre) : Bool := (s.pipeOf f).holds.isEmpty && !s.saveRequested f &&
  !(s.partn f.part).migrs.any fun m => m.src == f.onCore

/-- The pages of the image that a restore reads; an absent one is serviced first (R409). -/
def State.restorePages (s : State) (f : Fibre) : Option State :=
  let p := s.partn f.part
  if p.emergency = some f.onCore then some s
  else
    match s.absentPage f.part (slotBase p.saveBase 0 f.onCore) (imageOffsets false) with
    | none => some s
    | some _ => none

/-- GANG_RESTORE: a saved gang returns whole. -/
def execGangRestore (gang : GangId) (s : State) : Host.Outcome State Fault Refusal :=
  let fs := s.gangFibres gang
  match fs with
  | [] => .next s
  | f :: _ =>
    if gang.slot < 8 ∨ !(fs.all fun g => g.saved && s.mayReturn g) then .next s
    else
      match s.slotFor fs with
      | none => .next s
      | some k =>
        match s.absentPage f.part (slotBase (s.partn f.part).saveBase 0 f.onCore) (imageOffsets false) with
        | some (off, va) =>
          if (s.partn f.part).emergency = some f.onCore then .next (back s k) else .next (s.servicePage f.part f.onCore off va true)
        | none => .next (back s k)
where
  /-- The gang in slot `k`. -/
  back (s : State) (k : Nat) : State := (s.gangFibres gang).foldl (fun s f => s.updFibre f.uid fun g =>
    { g with slot := k, saved := false, tiered := decide (physicalWords < s.wordsHeld f.part f.onCore f.quad false + f.win) }) s

/-- The least number, and so the highest, of the effective priorities of a pipeline's stages. -/
def State.pipePrio (s : State) (p : Pipe) : Nat := ((p.stages.map fun r => s.effPrio p r.prio).foldl min 3)

/-- An instance of higher effective priority than a pipeline's waits in its partition. -/
def State.higherPending (s : State) (p : Pipe) : Bool :=
  s.pipes.any fun (q : Pipe) => q.part == p.part && q.ended.isNone && q.pending.any fun x =>
    match q.stages[x.stage]? with
    | some r => decide (s.effPrio q r.prio < s.pipePrio p)
    | none => false

/-- Pipelines that the FSC or a boundary has saved resume by themselves (R407). -/
def State.selfResume (s : State) : State :=
  (s.pipes.filter fun (p : Pipe) => p.ended.isNone && p.holds.contains 3 && !s.higherPending p).foldl (fun s (p : Pipe) => s.dropHold p.part 3 [p.handle]) s

/-- Saved fibres that nothing holds return: at once where the gang has kept its slot, else with the whole gang. -/
def State.returnSaved (s : State) : State :=
  let s := s.mapFibres fun f => if f.live && f.saved && decide (f.slot < 8) && s.mayReturn f then { f with saved := false } else f
  let gs := (s.fibres.filter fun f => f.live && f.saved && decide (8 ≤ f.slot)).foldl (fun l f => if l.contains f.gang then l else l ++ [f.gang]) []
  gs.foldl (fun s g =>
    let fs := s.gangFibres g
    if fs.all (fun f => s.mayReturn f) && (s.slotFor fs).isSome && !s.agenda.contains (.gangRestore g) &&
        ((fs.head?.bind s.restorePages).isSome || (s.partn g.part).services.all fun x => x.save.isNone) then s.post (.gangRestore g) else s) s

/-! ### The tier (R39) -/

/-- The words of a gang's windows. -/
def State.gangWords (s : State) (g : GangId) (tiered : Bool) : Nat :=
  ((s.gangFibres g).filter fun f => f.tiered == tiered).foldl (fun n f => n + f.win) 0

/-- Physical storage has room for what a gang has in the tier. -/
def State.recallRoom (s : State) (g : GangId) : Bool :=
  decide (s.wordsHeld g.part g.lcore g.quad false + s.gangWords g true ≤ physicalWords)

/-- A gang in the tier whose primary wave would be ready. -/
def State.wantsRecall (s : State) (g : GangId) : Bool :=
  let t := s.mapFibres fun f => if f.live && f.gang == g then { f with tiered := false } else f
  (s.gangFibres g).any (fun f => f.tiered) && (t.gangView g).primary

/-- The gangs in slots of a gang's quadrant. -/
def State.neighbours (s : State) (g : GangId) : List GangId :=
  ((s.residents g.part g.lcore).filter fun f => f.quad == g.quad && f.gang != g && f.repl == g.repl).foldl (fun l f => if l.contains f.gang then l else l ++ [f.gang]) []

/-- A gang may move to the tier: no fibre of it has issued for 64 clocks, another gang of its quadrant whose primary wave is ready needs its physical
storage, and the tier holds it beside what it holds, or in that gang's place (R39). -/
def State.mayTier (s : State) (g : GangId) : Bool :=
  let fs := s.gangFibres g
  decide (g.slot < 8) && fs.any (fun f => !f.tiered) && fs.all (fun f => decide (f.lastIssue + 64 ≤ s.clock)) &&
  (s.neighbours g).any fun h => s.wantsRecall h && !s.recallRoom h &&
    decide (s.wordsHeld g.part g.lcore g.quad true + s.gangWords g false ≤ tierWords + s.gangWords h true)

/-- GANG_TIER: the windows of a whole gang move to the tier; a REP word of it issues again later (R187). -/
def execGangTier (gang : GangId) (s : State) : Host.Outcome State Fault Refusal :=
  .next (if s.mayTier gang then s.mapFibres fun f => if f.live && f.gang == gang then f.tier else f else s)

/-- GANG_RECALL: the windows are back in physical storage, where it has room for them. -/
def execGangRecall (gang : GangId) (s : State) : Host.Outcome State Fault Refusal :=
  .next (if s.recallRoom gang then s.mapFibres fun f => if f.live && f.gang == gang then { f with tiered := false } else f else s)

/-- Clocks of a recall. -/
def recallClocks : Nat := 40

/-- The gangs that have windows in the tier and would be RUNNABLE. -/
def State.tieredGangs (s : State) : List GangId :=
  (s.fibres.filter fun f => f.live && f.tiered && f.st == .runnable && !f.saved && decide (f.slot < 8)).foldl (fun l f => if l.contains f.gang then l else l ++ [f.gang]) []

/-- A tiered gang is recalled before it issues, where there is room; else, once its primary wave would be ready, the gang of its quadrant that has gone
longest without issuing moves to the tier, where it may (DESIGN CHOICE, notes/assumptions/51.md). -/
def State.recallGangs (s : State) : State :=
  s.tieredGangs.foldl (fun s g =>
    if s.isSet (.gangRecall g) then s
    else if s.recallRoom g then s.timer (s.coreClock ((s.partn g.part).phys g.lcore) recallClocks) (.gangRecall g)
    else if !s.wantsRecall g then s
    else
      match minBy (fun h => (s.gangRec h).lastIssue) ((s.neighbours g).filter s.mayTier) with
      | some h => if s.isSet (.gangTier h) then s else s.post (.gangTier h)
      | none => s) s

/-! ### Starvation (R32, R34) -/

/-- STARVATION_BREAK: the oldest ready secondary wave issues in the primary wave's place next. -/
def execStarvationBreak (gang : GangId) (s : State) : Host.Outcome State Fault Refusal :=
  .next (if s.liveGangs.contains gang then s.setGang { s.gangRec gang with breakNext := true, starve := 0 } else s)

/-- PRIMARY_WAVE_AGE_LIMIT: the gang's primary wave takes the first slot in the next clock. -/
def execPrimaryWaveAgeLimit (gang : GangId) (s : State) : Host.Outcome State Fault Refusal :=
  .next (if s.liveGangs.contains gang then s.setGang { s.gangRec gang with force := true } else s)

/-! ### The FSC (R404) -/

/-- The state with the gangs of some pipelines out of their slots. -/
def State.without (s : State) (part : Nat) (pipes : List Nat) : State :=
  s.mapFibres fun f => if f.part == part && pipes.contains f.pipe then { f with slot := 8 } else f

/-- The sublists of length `n`, those with earlier elements first. -/
def choose {α : Type} : Nat → List α → List (List α)
  | 0, _ => [[]]
  | _ + 1, [] => []
  | n + 1, x :: r => ((choose n r).map fun l => x :: l) ++ choose (n + 1) r

/-- The pipelines to which the FSC applies a request: an instance of the active contract finds no room, and these are the fewest of lower effective
priority that free enough of it, lowest priority first (R404). -/
def State.fscTargets (s : State) (part : Nat) : Option (List Nat) :=
  match s.activeContract part with
  | none => none
  | some k =>
    let waiting := (s.runningPipes part).findSome? fun (p : Pipe) =>
      if p.contract ≠ some k then none
      else (p.pending.find? fun x => (p.stages[x.stage]?).isSome && (s.startInstance p x).isNone).map fun x => (p, x)
    match waiting with
    | none => none
    | some (p, x) =>
      let prio := ((p.stages[x.stage]?).map fun r => s.effPrio p r.prio).getD 0
      let lower := (s.runningPipes part).filter fun (q : Pipe) => decide (prio < s.pipePrio q) && q.holds.isEmpty
      let order := (sortBy (fun (q : Pipe) => 3 - s.pipePrio q) lower).map fun q => q.handle
      let sets := (List.range (order.length + 1)).flatMap fun n => choose n order
      match sets.find? fun hs => ((s.without part hs).startInstance p x).isSome with
      | some (h :: hs) => some (h :: hs)
      | _ => none

/-- FSC_PREEMPT: a request goes to the pipelines that stand in the way (R404). -/
def execFscPreempt (part : Nat) (s : State) : Host.Outcome State Fault Refusal :=
  match s.fscTargets part with
  | some hs => .next (s.requestSave part 3 hs (s.partn part).preemptDl)
  | none => .next s

/-- An instance of the active contract that finds no room has the FSC act, whenever it comes to that (R404). -/
def State.settleFsc (s : State) (part : Nat) : State :=
  if (s.fscTargets part).isSome && !s.isSet (.fscPreempt part) then s.post (.fscPreempt part) else s

/-! ### Migration (R411 to R415) -/

/-- A spare core of a partition (R387): owned, and without a logical number. -/
def Partition.isSpare (p : Partition) (c : Nat) : Bool :=
  decide (c < 128) && p.clus.getLsbD (c / 4) && !(p.lmap.any fun b => b.getLsbD 7 && (b.extractLsb' 0 7).toNat == c)

/-- The valid partners of a logical core. -/
def Partition.partnersOf (p : Partition) (c : Nat) : List Nat :=
  let e := nth 0 p.replMap c
  (if e.getLsbD 7 then [(e.extractLsb' 0 7).toNat] else []) ++ (if e.getLsbD 15 then [(e.extractLsb' 8 7).toNat] else [])

/-- Two physical cores share neither a cluster nor a thermal zone (R17, R361). -/
def apart (a b : Nat) : Bool := a / 4 != b / 4 && a / 16 != b / 16

/-- The other members of the partner sets to which a mapped core belongs: its own partners, and the core whose partner it is with that core's other
partner (R361). -/
def Partition.mates (p : Partition) (src : Nat) : List Nat :=
  let sets := ((List.range 128).filter fun c => (p.phys? c).isSome).map fun c => c :: p.partnersOf c
  ((sets.filter fun l => l.contains src).flatten.eraseDups).filter fun c => c != src

/-- A target keeps the separation of R361 for a source: from where each mate lies, and from where a standing request takes it. -/
def Partition.keepsApart (p : Partition) (src dst : Nat) : Bool :=
  (p.mates src).all fun c =>
    (match p.phys? c with | some x => apart x dst | none => true) && (p.migrs.filter fun m => m.src == c).all fun m => apart m.dst dst

/-- Raise a migration request. -/
def State.requestMove (s : State) (part src dst : Nat) : State :=
  let due := s.clock + (s.partn part).preemptDl
  (s.updPart part fun p => { p with migrs := p.migrs ++ [{ src := src, dst := dst, state := 1, deadline := due }] }).timer due (.preemptDeadline part)

/-- Requests all of whose source's fibres are SAVED go on to the move (R413). -/
def State.settleMoves (s : State) : State :=
  (List.range 16).foldl (fun s part =>
    ((s.partn part).migrs.filter fun m => m.state == 1).foldl (fun s m =>
      if !s.fibres.all fun f => !(f.part == part && f.onCore == m.src && f.live) || f.saved then s
      else
        let (s, ok) := s.imageSaved part m.src true
        if !ok then s else
        (s.updPart part fun p => { p with migrs := mapIf (fun (x : Migr) => x.src == m.src) (fun (x : Migr) => { x with state := 2 }) p.migrs }).post
          (.migrationMove part m.src)) s) s

/-- The key of a byte after a move of the scratchpad and vault of physical core `a` to `b`. -/
def movedKey (a b key : Nat) : Nat :=
  if spdKey a 0 ≤ key ∧ key < spdKey a 0 + 2 ^ 18 then spdKey b (key - spdKey a 0)
  else if vltKey a 0 ≤ key ∧ key < vltKey a 0 + 2 ^ 20 then vltKey b (key - vltKey a 0) else key

/-- A key lies in the scratchpad or the vault of a physical core. -/
def onCoreKey (c key : Nat) : Bool :=
  (decide (spdKey c 0 ≤ key) && decide (key < spdKey c 0 + 2 ^ 18)) || (decide (vltKey c 0 ≤ key) && decide (key < vltKey c 0 + 2 ^ 20))

/-- Move the scratchpad and the vault of a core, with their poison marks (R413, R503). -/
def State.moveCore (s : State) (a b : Nat) : State :=
  let there := s.mem.filter fun x => onCoreKey b x.1
  let here := s.mem.filter fun x => onCoreKey a x.1
  let s := there.foldl (fun s x => s.setByte x.1 unwritten) s
  let s := here.foldl (fun s x => s.setByte (movedKey a b x.1) x.2) s
  let marks := s.poisoned.filter fun k => onCoreKey a (4 * k)
  { s with poisoned := marks.foldl (fun l k => addOnce l (movedKey a b (4 * k) / 4)) (s.poisoned.filter fun k => !onCoreKey b (4 * k)) }

/-- Work in flight follows the contents to where they now lie (R414). -/
def State.redirect (s : State) (part a b : Nat) : State :=
  let loc (l : Loc) : Loc := { l with key := movedKey a b l.key }
  let sec (x : CopySector) : CopySector := { x with src := loc x.src, dst := loc x.dst }
  { s with
    copies := mapIf (fun (c : Copy) => c.part == part) (fun (c : Copy) =>
      { c with left := c.left.map sec, all := c.all.map sec, txb := c.txb.map (movedKey a b) }) s.copies
    reducing := mapIf (fun (r : Reducing) => r.part == part) (fun (r : Reducing) => { r with left := r.left.map fun x => (loc x.1, x.2) }) s.reducing
    txbs := s.txbs.map (movedKey a b)
    loads := mapIf (fun (r : LoadReq) => (s.fibre r.uid).part == part) (fun (r : LoadReq) =>
      { r with core := if r.core = a then b else r.core, elems := r.elems.map fun x => { x with loc := loc x.loc } }) s.loads
    fibres := mapIf (fun (f : Fibre) => f.part == part) (fun (f : Fibre) =>
      match f.wait with
      | .txb k => { f with wait := .txb (movedKey a b k) }
      | _ => f) s.fibres }

/-- MIGRATION_MOVE: the four steps of R413. -/
def execMigrationMove (part core : Nat) (s : State) : Host.Outcome State Fault Refusal :=
  let p := s.partn part
  match p.migrs.find? fun m => m.src == core && m.state == 2, p.phys? core with
  | some m, some a =>
    let s := s.writeBack fun w => w.core == a
    let s := { s with l1 := s.l1.filter fun w => w.core != a, registry := s.registry.filter fun r => r.owner != a }
    let s := (s.moveCore a m.dst).redirect part a m.dst
    let s := s.updPart part fun p => { p with lmap := p.lmap.set core (BitVec.ofNat 8 (128 + m.dst)), migrs := p.migrs.filter fun x => x.src != core }
    .next (s.selfInval m.dst)
  | _, _ => .next s

/-! ### PREQ (R417, R418) -/

/-- The pipelines that PREQ names, and its status. -/
def State.preqNames (s : State) (part h : Nat) : Nat × List Nat :=
  if h = 0 then
    let ps := ((s.runningPipes part).filter fun (p : Pipe) => !p.supervisor).map fun (p : Pipe) => p.handle
    (if ps.isEmpty then 1 else 0, ps)
  else
    match (s.runningPipes part).find? fun (p : Pipe) => p.handle == h with
    | none => (1, [])
    | some p => if p.supervisor then (2, []) else (0, [h])

/-- The state of one pipeline: 0 running, 1 requested, 2 saved. -/
def State.preqState1 (s : State) (part h : Nat) : Nat :=
  let fs := s.fibres.filter fun f => f.part == part && f.pipe == h && f.live
  let p := s.pipe part h
  let stands := (s.partn part).preqs.any fun q => q.pipes.contains h && fs.any fun f => !f.saved
  if !stands && (if fs.isEmpty then !p.holds.isEmpty else fs.all fun f => f.saved) then 2
  else if !stands && fs.all (fun f => !f.saved) && p.holds.isEmpty then 0 else 1

/-- The state of the pipelines named. -/
def State.preqState (s : State) (part : Nat) (hs : List Nat) : Nat :=
  let st := hs.map (s.preqState1 part)
  if st.isEmpty then 0 else if st.all fun x => x == 2 then 2 else if st.all fun x => x == 0 then 0 else 1

/-- PREQ.RESUME: end the PREQ hold. -/
def State.preqResume (s : State) (part h : Nat) : Nat × State :=
  let (st, hs) := s.preqNames part h
  if st ≠ 0 then (st, s)
  else if hs.all fun x => !(s.pipe part x).holds.contains 0 then (3, s)
  else (0, s.dropHold part 0 hs)

/-- A mode of PREQ: `act` gives the status and the state after it. -/
def preq (act : State → Fibre → Nat → Nat → Except Stop (Nat × State)) (e : Ext) (s : State) : Host.Outcome State Fault Refusal :=
  s.issue { issueOf 6 8 e e.len with priv := true, compare := true, once := true } (oncePerWave fun s f _ =>
    let a := s.srcA f e true
    let b := s.srcB f e true .b64
    let h := a.val.toNat / 2 ^ 32
    match act s f h b.val.toNat with
    | .error x => .error x
    | .ok (st, s) =>
      let x := st + s.preqState f.part (s.preqNames f.part h).2 * 256
      .ok (s.setS f.groupId e.d.toNat ⟨BitVec.ofNat 64 x, a.poison || b.poison⟩, []))

/-- PREQ.SAVE. -/
def execPreqSave (e : Ext) (s : State) : Host.Outcome State Fault Refusal :=
  preq (fun s f h b =>
    if 4194240 < b then .error (.trap s.illegal)
    else
      let (st, hs) := s.preqNames f.part h
      .ok (st, if st = 0 then s.requestSave f.part 0 hs (if b = 0 then (s.partn f.part).preemptDl else b) else s)) e s

/-- PREQ.RESUME. -/
def execPreqResume (e : Ext) (s : State) : Host.Outcome State Fault Refusal := preq (fun s f h _ => .ok (s.preqResume f.part h)) e s

/-- PREQ.STAT. -/
def execPreqStat (e : Ext) (s : State) : Host.Outcome State Fault Refusal := preq (fun s f h _ => .ok ((s.preqNames f.part h).1, s)) e s

/-! ### MIGR (R417, R419) -/

/-- A mode of MIGR. -/
def migr (act : State → Nat → Nat → Nat → Nat × State) (e : Ext) (s : State) : Host.Outcome State Fault Refusal :=
  s.issue { issueOf 6 9 e e.len with priv := true, compare := true, once := true } (oncePerWave fun s f _ =>
    let a := s.srcA f e true
    let b := s.srcB f e true .b64
    let (x, s) := act s f.part (a.val.toNat % 128) (b.val.toNat % 128)
    .ok (s.setS f.groupId e.d.toNat ⟨BitVec.ofNat 64 x, a.poison || b.poison⟩, []))

/-- MIGR.REQ. -/
def execMigrReq (e : Ext) (s : State) : Host.Outcome State Fault Refusal :=
  migr (fun s part src dst =>
    let p := s.partn part
    if (p.phys? src).isNone || !p.isSpare dst then (1, s)
    else if p.migrs.any fun m => m.src == src then (2, s)
    else if !p.keepsApart src dst then (3, s)
    else (0, s.requestMove part src dst)) e s

/-- MIGR.STAT. The physical core of a source that is not mapped is a free value (notes/assumptions/18.md). -/
def execMigrStat (e : Ext) (s : State) : Host.Outcome State Fault Refusal :=
  migr (fun s part src _ =>
    let p := s.partn part
    let st := ((p.migrs.find? fun m => m.src == src).map fun m => m.state).getD 0
    match p.phys? src with
    | some c => (st * 256 + c * 2 ^ 16, s)
    | none => (st * 256 + Config.noCore s.free % 128 * 2 ^ 16, { s with free := s.free + 1 })) e s

/-! ### SETSR (R144, R147, R201) -/

/-- The bits of FTZ_CTL that are not reserved. -/
def ftzMask : DWord := 0x1F000000FF#64

/-- SETSR: ARITH_FLAGS, FTZ_CTL, PREQ and REPCNT. -/
def execSetsr (e : Ext) (s : State) : Host.Outcome State Fault Refusal :=
  let n := modLow e 4
  let val (s : State) (f : Fibre) : DWord := if specialWide n then (s.srcB f e true .b64).val else (s.srcB f e false .b32).val.setWidth 32 |>.setWidth 64
  s.issue { issueOf 6 1 e e.len with priv := n == 14 }
    (notPoisoned ((usesOf 6 1 e).filter fun u => u.rd)
      (match n with
       | 12 => eachFibre fun s f => .ok { f with flags := (val s f).extractLsb' 0 5 }
       | 13 => eachFibre fun s f => .ok { f with ftz := val s f &&& ftzMask }
       | _ => illegalIf (fun s f => val s f != 0) fun s us =>
         .ok (if n = 14 then (s.preqResume (s.fibre (us.headD 0)).part 0).2 else s, [])))

end Sys2Proof.Machine
end

