-- ==== Sys2Proof/Machine/Interval.lean ====
section
/-! DEFINITION. Intervals: boundaries and their captures (R380 to R384), the restoring of a capture, and the rollback to the last boundary
(R385, R386, R439). -/

namespace Sys2Proof.Machine

/-! ### Captures (R383) -/

/-- The participating pipelines of a partition: all but the supervisor pipeline. -/
def State.participants (s : State) (part : Nat) : List Nat :=
  ((s.runningPipes part).filter fun (p : Pipe) => !p.supervisor).map fun (p : Pipe) => p.handle

/-- The fibres of some pipelines, ended ones included. -/
def State.fibresOf (s : State) (part : Nat) (hs : List Nat) : List Fibre := s.fibres.filter fun f => f.part == part && hs.contains f.pipe

/-- Waits that end by an event outside the capture: a fibre in one issues its instruction again when it returns. -/
def Wait.reissued : Wait → Bool
  | .commit _ | .tagDone _ | .tagFree _ | .repack _ => true
  | .none | .pending | .port .. | .page .. | .acks | .loadsAndAcks | .commitHold .. | .pipe .. | .path .. | .txb .. | .barrier .. | .barrierNext ..
  | .round .. | .signNext .. | .mmaRound .. | .stepSet .. | .sleep .. | .ray | .held | .forward | .born .. | .compare | .slab .. | .hostLine ..
  | .jobs | .tmma .. | .prewalk .. | .tlb | .peer | .engine .. | .cvu => false

/-- The logical cores that run some pipelines, in every replica. -/
def State.coresOf (s : State) (part : Nat) (hs : List Nat) : List Nat :=
  (s.pipes.filter fun (p : Pipe) => p.part == part && hs.contains p.handle).foldl (fun l (p : Pipe) =>
    (p.cores ++ p.partners.flatten).foldl addOnce l) []

/-- The cells of a memory from a key up, by offset. -/
def State.cellsFrom (s : State) (key size : Nat) : List Host.Cell :=
  (s.mem.filter fun c => decide (key ≤ c.1) && decide (c.1 < key + size)).map fun c => (c.1 - key, c.2)

/-- The words from a key up that carry a memory-error mark, by word offset (R464). -/
def State.marksFrom (s : State) (key size : Nat) : List Nat :=
  (s.poisoned.filter fun k => decide (key ≤ 4 * k) && decide (4 * k < key + size)).map fun k => k - key / 4

/-- A group is one of some fibres'. -/
def Group.hasAny (g : Group) (uids : List Nat) : Bool := uids.contains g.creator || g.members.any fun m => uids.contains m.2

/-- What a capture of some pipelines holds; `vault` adds the vaults of their partition's cores, for a suspension (R383, R416). -/
def State.captureOf (s : State) (part : Nat) (hs : List Nat) (vault : Bool) : Capture :=
  let p := s.partn part
  let fs := s.fibresOf part hs
  let uids := fs.map fun f => f.uid
  let answers := s.tags.filterMap fun r => if r.part = part then r.answer else none
  let mapped := (List.range 128).filter fun c => (p.phys? c).isSome
  let cores := if vault then mapped else s.coresOf part hs
  { pipes := (s.pipes.filter fun (x : Pipe) => x.part == part && hs.contains x.handle).map fun (x : Pipe) => { x with savedSince := some (x.savedSince.getD s.clock) }
    fibres := (fs.filter Fibre.live).map fun f => if f.wait.reissued then f.retry else f
    groups := (s.groups.filter fun (g : Group) => g.part == part && g.hasAny uids).map fun (g : Group) =>
      { g with pend := g.pend.filter fun x => !(x.2.isNone && answers.any fun a => g.is a.1 && a.2 == x.1) }
    rays := s.rays.filter fun (r : Ray) => uids.contains r.uid
    gathers := s.gathers.filter fun (g : Gather) => uids.contains g.uid
    loads := s.loads.filter fun (r : LoadReq) => uids.contains r.uid && !r.cancelled
    pendV := s.pendV.filter fun x => uids.contains x.1
    copies := s.copies.filter fun (c : Copy) => c.part == part && hs.contains c.pipe
    beams := s.beams.filter fun (b : Beam) => b.part == part && hs.contains b.pipe
    jobs := s.jobs.filter fun (j : Job) => j.part == part && hs.contains j.pipe
    ports := (s.ports.filter fun (x : Port) => x.id.part == part).map fun (x : Port) => { x with window := x.window.filter fun e => hs.contains e.pipe, backoff := [] }
    vports := []
    scratch := cores.filterMap fun c => (p.phys? c).map fun k => (c, s.cellsFrom (spdKey k 0) (2 ^ 18), s.marksFrom (spdKey k 0) (2 ^ 18))
    vault := if vault then mapped.filterMap fun c => (p.phys? c).map fun k => (c, s.cellsFrom (vltKey k 0) (2 ^ 20), s.marksFrom (vltKey k 0) (2 ^ 20)) else []
    pending := ((List.range 20).filter fun k => p.res.getLsbD (32 + k)).map fun k => (k, (s.sink k).pending) }

/-! ### Restoring a capture -/

/-- Put cells and marks back into a range of memory that held others. -/
def State.putCells (s : State) (key size : Nat) (cells : List Host.Cell) (marks : List Nat) : State :=
  let s := (s.mem.filter fun c => decide (key ≤ c.1) && decide (c.1 < key + size)).foldl (fun s c => s.setByte c.1 unwritten) s
  let s := cells.foldl (fun s c => s.setByte (key + c.1) c.2) s
  { s with poisoned := s.poisoned.filter (fun k => !(decide (key ≤ 4 * k) && decide (4 * k < key + size))) ++ marks.map fun k => k + key / 4 }

/-- A pipeline as it returns: its ports send again, and it resumes by itself. -/
def Pipe.restored (p : Pipe) (holds : List Nat) (pins : List (Nat × Nat)) : Pipe :=
  { p with ended := none, holds := holds, pins := pins, queues := p.queues.map fun q => { q with dropping := [] } }

/-- Groups as they return: members that are fibres of other pipelines are as they are now. -/
def State.restoreGroups (s : State) (uids : List Nat) (gs : List Group) : State :=
  let now (g : Group) : List (Nat × Nat) := ((s.groups.find? fun (x : Group) => x.part == g.part && x.handle == g.handle && x.repl == g.repl).map
    fun (x : Group) => x.members.filter fun m => !uids.contains m.2).getD []
  let back := gs.map fun (g : Group) => { g with members := sortBy (fun m => m.1) (g.members.filter (fun m => uids.contains m.2) ++ now g) }
  let same (a b : Group) : Bool := a.part == b.part && a.handle == b.handle && a.repl == b.repl
  { s with groups := s.groups.filter (fun (x : Group) => !gs.any fun g => same g x) ++ back }

/-- Send the requests of a capture again: loads, copies, rays, texture requests, BEAMs and port entries (R385). -/
def State.sendAgain (s : State) (part : Nat) (c : Capture) : State :=
  let s := c.loads.foldl (fun s r => s.post (.loadResponse r.id)) s
  let s := c.rays.foldl (fun s r => if r.placed then s else s.sendDown r.part r.core 0 r.id) s
  let s := c.gathers.foldl (fun s g => if g.placed then s else s.sendDown g.part g.core 1 g.id) s
  let s := c.beams.foldl (fun s b => if b.placed then s else s.sendDown b.part (s.fibre b.uid).onCore 2 b.id) s
  let s := c.copies.foldl (fun s x => if x.started then s else s.sendDown x.part (s.fibre (x.uids.headD 0)).onCore 3 x.id) s
  let s := c.ports.foldl (fun s x =>
    let old := (s.ports.find? fun (y : Port) => y.id == x.id).getD { x with window := [] }
    let back := x.window.map fun e => { e with sent := false, waitFor := [] }
    ({ s with ports := { old with window := old.window ++ back } :: s.ports.filter fun (y : Port) => !(y.id == x.id) }).post (.queueEntryArrival x.id)) s
  c.fibres.foldl (fun s f => match f.wait with | .sleep (some d) => s.timer (max d s.clock) (.sleepExpire f.uid) | _ => s)
    ((List.range 128).foldl (fun s core => if (s.vport part core).window.isEmpty then s else s.post (.verticalEntryArrival part core)) s)

/-- The pins of a capture's rays and BEAMs (R316, R324). -/
def State.pinAgain (s : State) (c : Capture) : State :=
  let s := c.rays.foldl (fun s r => s.pinGen r.part r.ctx r.gen) s
  c.beams.foldl (fun s b => s.pinGen b.part b.ctx b.gen) s

/-- Restore a capture, every fibre of it saved and out of its slot; `holds` and `pins` say what holds and pins a pipeline has. A copy issues
its remaining sectors again, or all of them where `full` says so. -/
def State.restoreCapture (s : State) (part : Nat) (full : Bool) (c : Capture) (holds : Nat → List Nat) (pins : Nat → List (Nat × Nat)) : State :=
  let hs := c.pipes.map fun (p : Pipe) => p.handle
  let uids := c.fibres.map fun f => f.uid
  let acks := fun u => (s.fibre u).peerUnacked
  let fs := c.fibres.map fun f => { f.save with unacked := [], peerUnacked := acks f.uid }
  let s := { s with
    pipes := s.pipes.filter (fun (p : Pipe) => !(p.part == part && hs.contains p.handle)) ++ c.pipes.map fun (p : Pipe) => p.restored (holds p.handle) (pins p.handle)
    fibres := s.fibres.filter (fun (f : Fibre) => !(f.part == part && (hs.contains f.pipe || uids.contains f.uid))) ++ fs }
  let s := s.restoreGroups uids c.groups
  let s := { s with
    rays := s.rays ++ c.rays, gathers := s.gathers ++ c.gathers, loads := s.loads ++ c.loads, pendV := s.pendV ++ c.pendV
    copies := s.copies ++ c.copies.map (fun (x : Copy) => { x with left := if full then x.all.map (fun (y : CopySector) => { y with data := none }) else x.left, stuck := none })
    beams := s.beams ++ c.beams.map (fun (b : Beam) => { b with stuck := none }), jobs := s.jobs ++ c.jobs.map (fun (j : Job) => { j with growWait := false }) }
  let phys (k : Nat) : Nat := (s.partn part).phys k
  let s := c.scratch.foldl (fun s x => s.putCells (spdKey (phys x.1) 0) (2 ^ 18) x.2.1 x.2.2) s
  let s := c.vault.foldl (fun s x => s.putCells (vltKey (phys x.1) 0) (2 ^ 20) x.2.1 x.2.2) s
  (s.pinAgain c).sendAgain part c

/-! ### Generations at a rollback (R350, R385) -/

/-- Generations published since the boundary retire, and those they replaced are current again. -/
def StructCtx.rollback (c : StructCtx) : StructCtx :=
  let back (g : Gen) : Bool := !g.fresh && c.gens.any fun x => x.fresh && x.replaced == some g.num
  { c with gens := c.gens.map fun (g : Gen) =>
      if g.fresh then { g with state := if g.state = 1 then 2 else g.state, fresh := false, replaced := none }
      else if back g then { g with state := 1, tag := 0 } else g }

/-- A reclaimed generation that a restored ray, BEAM or top-level generation uses is RETIRED again. -/
def State.reviveGens (s : State) (part : Nat) : State :=
  { s with structs := mapIf (fun (c : StructCtx) => c.part == part && c.live) (fun (c : StructCtx) =>
      { c with gens := c.gens.map fun (g : Gen) => if 3 ≤ g.state ∧ g.pins + s.otherPins part c.idx g.num ≠ 0 then { g with state := 2 } else g }) s.structs }

/-- Restore the generations of a partition. -/
def State.rollbackGens (s : State) (part : Nat) : State :=
  let s := { s with structs := mapIf (fun (c : StructCtx) => c.part == part && c.live) StructCtx.rollback s.structs }
  let s := (s.reviveGens part).reviveGens part
  (s.structs.filter fun (c : StructCtx) => c.part == part && c.live).foldl (fun s c =>
    (c.gens.filter fun (g : Gen) => g.state == 2).foldl (fun s g => s.checkReclaim part c.idx g.num) s) s

/-! ### Tags -/

/-- The two tags of a partition's intervals (R381). -/
def intervalTag (part k : Nat) : Nat := 64 + 2 * part + k % 2

/-- Open the next interval tag. -/
def State.openNext (s : State) (part : Nat) : State :=
  s.updPart part fun p => { p with openInterval := some (intervalTag part p.nextIntervalTag), nextIntervalTag := (p.nextIntervalTag + 1) % 2, boundaryAt := s.clock }

/-- LEN of INT_CTL in clocks. -/
def Partition.intervalClocks (p : Partition) : Nat := bits p.intCtl.toNat 0 14 * clocksPerUs

/-- Set the next boundary by LEN, counted from the last one (R380). -/
def State.armBoundary (s : State) (part : Nat) : State :=
  let p := s.partn part
  if p.intervalClocks = 0 then s else s.timer (max s.clock (p.boundaryAt + p.intervalClocks)) (.intervalBoundary part)

/-! ### The boundary (R380 to R384) -/

/-- A boundary is due: LEN has elapsed, or one has been asked for. -/
def State.boundaryDue (s : State) (part : Nat) : Bool :=
  let p := s.partn part
  p.intCtl.getLsbD 33 && p.state == 2 && !p.boundary && !p.rollback &&
    (p.ickpt || (p.intervalClocks != 0 && decide (p.boundaryAt + p.intervalClocks ≤ s.clock)))

/-- INTERVAL_BOUNDARY: step 1 of R382. -/
def execIntervalBoundary (part : Nat) (s : State) : Host.Outcome State Fault Refusal :=
  if !s.boundaryDue part then .next s
  else
    let s := s.updPart part fun p => { p with boundary := true }
    .next (s.requestSave part 1 (s.participants part) (s.partn part).preemptDl)

/-- Every participating fibre is SAVED and out of its slot, and no reducing store of theirs is on its way. -/
def State.captureReady (s : State) (part : Nat) : Bool :=
  let hs := s.participants part
  (s.reducing.all fun r => !(r.part == part && hs.contains r.pipe)) && s.fibres.all fun f => !(f.part == part && hs.contains f.pipe && f.live) || (f.saved && decide (8 ≤ f.slot))

/-- A boundary in progress: pipelines launched since its request are asked too, and the capture follows when every fibre is SAVED. -/
def State.settleBoundary (s : State) (part : Nat) : State :=
  if !(s.partn part).boundary then s
  else
    let late := (s.participants part).filter fun h => !(s.pipe part h).holds.contains 1
    let s := if late = [] then s else s.requestSave part 1 late (s.partn part).preemptDl
    if s.captureReady part && !s.isSet (.intervalCapture part) && (s.partn part).services.all (fun x => x.save.isNone) then s.post (.intervalCapture part) else s

/-- Release an interval's commit point to DEVICE scope: RLS on the dirty words of the partition's cores (R80, R382). -/
def State.releasePart (s : State) (part : Nat) : State :=
  ((List.range 128).filterMap fun c => (s.partn part).phys? c).foldl (fun s c => s.setRls c) s

/-- Commit the closing interval and open the next: step 3 of R382. Split sets of the closing interval take the next as parent (R302). -/
def State.turnInterval (s : State) (part : Nat) : State :=
  let sets := s.tags.map fun r => r.interval
  let n := (s.partn part).intervals
  let s := if (s.interval part).isSome then s.closeInterval part else s.endEpoch part none
  let s := { s with tags := (s.tags.zip sets).map fun ((r, b) : TagRec × Bool) => if r.part = part then { r with interval := b } else r }
  ((s.updPart part fun p => { p with intervals := n + 1 }).openNext part).releasePart part

/-- Under PART_MODE bit 4 the host learns of a boundary that capture slot `k` has taken (R397). -/
def State.tellBoundary (s : State) (part k : Nat) : State :=
  let p := s.partn part
  if p.mode.getLsbD 4 then s.raiseHost part 5 (slotBase p.saveBase (1 + k) 0) 98304 0 (1 + k) none 0 else s

/-- INTERVAL_CAPTURE: steps 2 to 5 of R382. Every ICKPT up to here has asked for this boundary (R301). -/
def execIntervalCapture (part : Nat) (s : State) : Host.Outcome State Fault Refusal :=
  let p := s.partn part
  if !p.boundary || !s.captureReady part then .next s
  else
    let hs := s.participants part
    let k := 1 - p.lastCapture
    let cores := s.coresOf part hs
    if p.saveBase = 0 then .next (s.saveFault part 0 0 0 0)
    else
      match cores.findSome? fun c => (s.absentPage part (slotBase p.saveBase (1 + k) c) (imageOffsets true)).map fun x => (c, x) with
      | some (c, off, va) => .next (s.servicePage part c off va false)
      | none =>
        let cap := s.captureOf part hs false
        let s := s.updPart part fun p => { p with captures := [none, none].set k (some cap), lastCapture := k, boundary := false, ickpt := false }
        let s := (s.turnInterval part).armBoundary part
        let s := { s with pipes := mapIf (fun (x : Pipe) => x.part == part && hs.contains x.handle)
                                     (fun (x : Pipe) => { x with holds := addOnce (x.holds.filter fun h => h != 1) 3 }) s.pipes }
        .next (s.tellBoundary part k)

/-! ### Rollback (R385, R386) -/

/-- Remove the groups that only rolled-back fibres made or joined since the boundary; other members go home. -/
def State.dropGroups (s : State) (part : Nat) (uids : List Nat) (kept : List Group) : State :=
  let gone := s.groups.filter fun (g : Group) => g.part == part && g.hasAny uids && !kept.any fun (k : Group) => k.handle == g.handle && k.repl == g.repl
  let s := gone.foldl (fun s (g : Group) =>
    (g.members.filter fun m => !uids.contains m.2).foldl (fun s m =>
      let f := s.fibre m.2
      let home : GroupId := ⟨f.part, f.home, f.repl⟩
      if (s.group? home).isSome && f.home != g.handle then s.joinGroup m.2 home (s.group home).freeRank else s) s) s
  let ids := gone.map fun (g : Group) => (⟨g.part, g.handle, g.repl⟩ : GroupId)
  { s with groups := s.groups.filter fun (g : Group) => !ids.any fun i => g.is i }

/-- Remove the fibres of rolled-back pipelines with everything in flight for them. -/
def State.dropFibres (s : State) (part : Nat) (hs : List Nat) : State :=
  let uids := (s.fibresOf part hs).map fun f => f.uid
  { s with
    fibres := s.fibres.filter fun f => !uids.contains f.uid
    loads := s.loads.filter fun (r : LoadReq) => !uids.contains r.uid
    gathers := s.gathers.filter fun (g : Gather) => !uids.contains g.uid
    gfails := s.gfails.filter fun (g : GatherFail) => !uids.contains g.uid
    pendV := s.pendV.filter fun x => !uids.contains x.1
    collects := s.collects.filter fun (c : Collect) => !(c.part == part && hs.contains c.pipe) }

/-- The fibres of a restored capture that ran under a future tag end, and their entries with them: the tag is squashed (R129, R385). -/
def State.endTagged (s : State) (part : Nat) (hs : List Nat) : State :=
  let gone := (s.fibresOf part hs).filter fun f => f.tag != 0 && f.live
  let s := s.cancelWork fun p h t => p == part && hs.contains h && t != 0
  let s := (gone.foldl (fun l f => addOnce l f.tag) []).foldl (fun s t => s.dropEntries part t) s
  gone.foldl (fun s f => s.endFibre f.uid true) s

/-- The rollback itself, once no move is in progress (R385). A pipeline launched since the boundary ends; a participating one that has ended since
returns. -/
def State.rollbackNow (s : State) (part : Nat) (c : Capture) : State :=
  let before := s
  let hs := s.participants part
  let old := c.pipes.map fun (p : Pipe) => p.handle
  let all := hs ++ old.filter fun h => !hs.contains h
  let uids := (s.fibresOf part all).map fun f => f.uid
  let s := all.foldl (fun s h => (s.stopWork part h).dropPortEntries part h) s
  let s := s.cutReducing fun r => r.part == part && all.contains r.pipe
  let s := (hs.filter fun h => !old.contains h).foldl (fun s h => s.stopPipe part h 0x10 0) s
  let s := (s.squashInterval part).squashAll part
  let s := (s.dropGroups part uids c.groups).dropFibres part all
  let holds (h : Nat) : List Nat :=
    let p := if hs.contains h then before.pipe part h else (c.pipes.find? fun (x : Pipe) => x.handle == h).getD Pipe.blank
    addOnce (p.holds.filter fun x => x != 1) 3
  let pins (h : Nat) : List (Nat × Nat) := if hs.contains h then (before.pipe part h).pins else ((c.pipes.find? fun (x : Pipe) => x.handle == h).getD Pipe.blank).pins
  let s := (s.restoreCapture part true c holds pins).rollbackGens part
  let s := { s with
    mxe := before.mxe
    sinks := (s.sinks.zip (List.range s.sinks.length)).map fun ((x, k) : Sink × Nat) =>
      match c.pending.find? fun (y : Nat × Option FlipRec) => y.1 == k with
      | some y => { x with pending := y.2 }
      | none => x }
  let s := s.endTagged part old
  let s := (s.updPart part fun p => { p with boundary := false, rollback := false, preqs := p.preqs.map fun (q : Preq) =>
    if q.source = 1 then { q with pipes := [] } else q }).openNext part
  let s := old.foldl (fun s h => if s.isSet (.stageCoreRebalance part h) then s else s.timer (s.clock + rebalanceClocks) (.stageCoreRebalance part h)) s
  (s.armBoundary part).retryInstances part

/-- A rollback goes on once no move is in progress and the pages of its capture are there (R385, R409, R415). -/
def State.settleRollback (s : State) (part : Nat) : State :=
  let p := s.partn part
  if !p.rollback || p.migrs.any (fun m => m.state == 2) then s
  else
    match nth none p.captures p.lastCapture with
    | none => s
    | some c =>
      let cores := c.scratch.map fun x => x.1
      match cores.findSome? fun k => (s.absentPage part (slotBase p.saveBase (1 + p.lastCapture) k) (imageOffsets true)).map fun x => (k, x) with
      | some (k, off, va) => s.servicePage part k off va true
      | none => s.rollbackNow part c

/-- Ask for a rollback: every participating fibre stops; without an open interval the participating pipelines are terminated (R385, R443). -/
def State.rollback (s : State) (part cause : Nat) : State :=
  if (s.interval part).isNone then (s.participants part).foldl (fun s h => s.terminate part h cause) s
  else
    let hs := s.participants part
    let s := s.updPart part fun p => { p with rollback := true, boundary := false, migrs := p.migrs.filter fun m => m.state == 2 }
    let s := { s with pipes := mapIf (fun (x : Pipe) => x.part == part && hs.contains x.handle) (fun (x : Pipe) => { x with holds := addOnce x.holds 1 }) s.pipes }
    s.mapFibres fun f => if f.part == part && hs.contains f.pipe && f.live then f.save else f

/-- An uncorrectable error in state of one partition: a rollback where an interval is open, else a reset (R439, R467). -/
def State.partitionError (s : State) (part : Nat) (r : Rec) : State :=
  if (s.interval part).isSome then (s.report { r with rung := 2 }).rollback part r.cause
  else (s.report { r with rung := 4 }).resetPart part

end Sys2Proof.Machine
end

