-- ==== Sys2Proof/Machine/Service.lean ====
section
/-! DEFINITION. The services of the MMP: the frame pool and the insertion of page entries (R75), the service of an absent page (R73, R397,
R458, R459), and the events sent to the host with their answers (R395, R396, R441). -/

namespace Sys2Proof.Machine

/-! ### The frame pool (R75) -/

/-- BASE of FPOOL as a frame number, and the frames of the pool. -/
def Partition.poolBase (p : Partition) : Nat := bits p.fpool.toNat 21 31 * 512
def Partition.poolSize (p : Partition) : Nat := bits p.fpool.toNat 0 16 * 512

/-- FPOOL_FREE. -/
def Partition.poolFree (p : Partition) : Nat := p.poolSize - p.framesOut.foldl (fun n x => n + x.2) 0

/-- A run of `n` frames from frame `k` is free and lies in the pool. -/
def Partition.runFree (p : Partition) (k n : Nat) : Bool :=
  decide (p.poolBase ≤ k) && decide (k + n ≤ p.poolBase + p.poolSize) && p.framesOut.all fun x => decide (k + n ≤ x.1) || decide (x.1 + x.2 ≤ k)

/-- The lowest free run of `n` frames, aligned to its size. -/
def Partition.freeRun (p : Partition) (n : Nat) : Option Nat :=
  let up (x : Nat) : Nat := (x + n - 1) / n * n
  minBy (fun k => k) ((up p.poolBase :: p.framesOut.map fun x => up (x.1 + x.2)).filter fun k => p.runFree k n)

/-- Hand out the lowest free run of `n` frames. -/
def State.takeFrames (s : State) (part n : Nat) : Option (Nat × State) :=
  ((s.partn part).freeRun n).map fun k => (k, s.updPart part fun p => { p with framesOut := p.framesOut ++ [(k, n)] })

/-- A run returns to the pool. -/
def State.returnFrames (s : State) (part k : Nat) : State := s.updPart part fun p => { p with framesOut := p.framesOut.filter fun x => x.1 != k }

/-! ### Insertion (R75) -/

/-- Frames of a page of a size code. -/
def pageFrames (sz : Nat) : Nat := 2 ^ (pageBits sz - 12)

/-- The entry that maps a page to a run of frames with the attributes of a region. -/
def entryOf (p : Partition) (region va frame : Nat) : Nat :=
  let sz := bits region 10 2
  1 + sz * 2 + va % 2 ^ 57 / 2 ^ pageBits sz * 2 ^ pageBits sz + p.asid * 2 ^ 57 +
  bits region 3 3 * 2 ^ 65 + bits region 8 2 * 2 ^ 68 + bits region 7 1 * 2 ^ 70 + bits region 6 1 * 2 ^ 71 +
  (if bits region 0 2 = 2 then 2 ^ 73 else 0) + frame * 2 ^ 76

/-- The places of the eight buckets of a probe sequence: device addresses. -/
def probePlaces (p : Partition) (log va : Nat) : List Nat :=
  (List.range 8).flatMap fun k => (List.range 8).map fun e => p.ptBase + 128 * ((ptHash va p.asid log + k) % 2 ^ log) + 16 * e

/-- The place an insertion takes: the first never-used one, else the first tombstone. -/
def State.insertPlace (s : State) (part va : Nat) : Option Nat :=
  let p := s.partn part
  match p.ptLog? with
  | none => none
  | some log =>
    let entry (a : Nat) : Nat := ofLeBytes (s.devRead a 16)
    let ps := probePlaces p log va
    match ps.find? fun a => !pteV (entry a) && !pteTomb (entry a) with
    | some a => some a
    | none => ps.find? fun a => !pteV (entry a)

/-- The first bucket of a probe sequence whose read is uncorrectable. -/
def State.badBucket (s : State) (part va : Nat) : Option Nat :=
  let p := s.partn part
  match p.ptLog? with
  | none => none
  | some log => ((List.range 8).find? fun k => s.bucketBad p log (ptHash va p.asid log) k).map fun k => p.ptBase + 128 * ((ptHash va p.asid log + k) % 2 ^ log)

/-! ### The end of a service -/

/-- A service is over; accesses that waited for it issue again. -/
def State.dropService (s : State) (part page : Nat) : State := s.updPart part fun p => { p with services := p.services.filter fun x => x.va != page }

/-- Note a failed service with whatever waited for the page (R459). -/
def State.failWaiters (s : State) (part page reason : Nat) : State :=
  let fail (mine : Bool) (w : EngineWait) : EngineWait := if mine && w.wait == .page page then { wait := .none, pageFail := some (page, reason) } else w
  { s with
    fibres := mapIf (fun (f : Fibre) => f.part == part && f.wait == .page page) (fun (f : Fibre) => { f with pageFail := some (page, reason) }) s.fibres
    rays := s.rays.map fun (r : Ray) => { r with eng := fail (r.part == part) r.eng }
    gathers := s.gathers.map fun (g : Gather) => { g with eng := fail (g.part == part) g.eng }
    beams := s.beams.map fun (b : Beam) => { b with eng := fail (b.part == part) b.eng }
    jobs := s.jobs.map fun (j : Job) => { j with eng := fail (j.part == part) j.eng }
    parts := (s.parts.zip (List.range s.parts.length)).map fun ((p, i) : Partition × Nat) =>
      { p with launchWait := p.launchWait.map fun x => (x.1, fail (i == part) x.2) } }

/-- A service fails with a reason of R458: its frames return to the pool, whatever waits traps, and a save area's fault is SAVE_FAULT (R501). -/
def State.serviceFails (s : State) (part : Nat) (x : PageSvc) (reason : Nat) : State :=
  let s := match x.frame with | some k => s.returnFrames part k | none => s
  let s := (s.failWaiters part x.va reason).dropService part x.va
  match x.save with
  | none => s
  | some (core, off, restore) => s.saveFault part core off x.va (if restore then 3 else if reason = 2 then 1 else 0)

/-- Insert the entry of a service that has its frames; a place must be there (R75, R458). -/
def State.insertEntry (s : State) (part : Nat) (x : PageSvc) (region frame : Nat) : State :=
  match s.badBucket part x.va with
  | some a =>
    let s := s.report { cause := 0x0105, addr := a, detail := gddrController a, part := some part, pcore := vacSlice (devKey a) }
    s.serviceFails part { x with frame := some frame } 4
  | none =>
    match s.insertPlace part x.va with
    | none => s.serviceFails part { x with frame := some frame } 3
    | some a => (s.devWrite a (leBytes 16 (entryOf (s.partn part) region x.va frame))).dropService part x.va

/-- Change a service. -/
def State.updService (s : State) (part page : Nat) (g : PageSvc → PageSvc) : State :=
  s.updPart part fun p => { p with services := mapIf (fun (x : PageSvc) => x.va == page) g p.services }

/-- Zero a run of frames, and the marks in it. -/
def State.zeroFrames (s : State) (frame n : Nat) : State :=
  let k := devKey (frame * 4096)
  let s := s.writeBack fun w => w.tag == 0 && decide (k ≤ w.key) && decide (w.key < k + n * 4096)
  let s := { s with l1 := s.l1.filter fun w => !(w.tag == 0 && decide (k ≤ w.key) && decide (w.key < k + n * 4096)) }
  s.putCells k (n * 4096) [] []

/-- Ask the host for a service: kind 1, 2 or 6. -/
def State.askHost (s : State) (part : Nat) (x : PageSvc) (kind arg : Nat) : State :=
  let p := s.partn part
  let len := pageFrames ((x.region.map fun r => bits r 10 2).getD 0)
  (s.raiseHost part kind x.va len (if kind = 2 then 0 else x.acc) arg none 0).updService part x.va fun y => { y with hostSeq := some p.nextEvent }

/-- MMP_FAULT_SERVICE (R73): a page already there ends the service; else the function's mode and the region, as they stood when the fault was
raised, decide (R75, R397). -/
def State.servicePageNow (s : State) (part : Nat) (x : PageSvc) : State :=
  let p := s.partn part
  let hosted := x.mode.getLsbD (if x.save.isSome then 1 else 0)
  if (s.walk part x.va).isSome then s.dropService part x.va
  else if p.ptLog?.isNone then s.serviceFails part x 5
  else if hosted then s.askHost part x (if x.save.isSome then 2 else 1) ((x.save.map fun y => y.1).getD 0)
  else
    match x.region with
    | none => s.serviceFails part x 0
    | some r =>
      match s.takeFrames part (pageFrames (bits r 10 2)) with
      | none => s.serviceFails part x 1
      | some (k, s) =>
        let s := s.updService part x.va fun y => { y with frame := some k }
        if bits r 0 2 = 2 then s.askHost part { x with frame := some k } 6 (k * 4096)
        else (s.zeroFrames k (pageFrames (bits r 10 2))).insertEntry part x r k

/-- MMP_FAULT_SERVICE. -/
def execMmpFaultService (part : Nat) (va : BitVec 64) (s : State) : Host.Outcome State Fault Refusal :=
  match (s.partn part).services.find? fun x => x.va == va.toNat && x.hostSeq.isNone with
  | none => .next s
  | some x => .next (s.servicePageNow part x)

/-! ### Events to the host (R395, R396) -/

/-- HOST_EVENT_POST: the next event is written into its slot, once that slot's earlier event is answered, and MSI-X is raised. -/
def State.postEvent (s : State) (part : Nat) : State :=
  let p := s.partn part
  match p.hostEvents.find? fun e => !e.written with
  | none => s
  | some e =>
    if p.hostEvents.any fun x => x.written && x.seq + 63 == e.seq then s
    else
      let base := p.hsvcBase.toNat
      let s := s.hostWrite (base + 64 * (1 + (e.seq - 1) % 63)) (e.record part)
      let s := s.hostWrite base (leBytes 8 e.seq)
      let limited := e.kind = 1 ∨ e.kind = 2 ∨ e.kind = 3 ∨ e.kind = 6
      let due := s.clock + 50 * clocksPerMs
      let put (x : HostEvent) : HostEvent := { x with written := true, due := if limited then some due else none }
      let s := s.updPart part fun q => { q with hostCount := e.seq, hostEvents := mapIf (fun (x : HostEvent) => x.seq == e.seq) put q.hostEvents }
      let s := if limited then s.timer due (.hostEventTimeout part e.seq) else s
      let s := { s with msix := s.msix ++ [part] }
      if (s.partn part).hostEvents.any fun x => !x.written then s.post (.hostEventPost part) else s

/-- HOST_EVENT_POST. -/
def execHostEventPost (part : Nat) (s : State) : Host.Outcome State Fault Refusal := .next (s.postEvent part)

/-- The cause of a record of the partition log by its sequence number. -/
def State.recordCause (s : State) (part seq : Nat) : Nat :=
  let p := s.partn part
  match p.awaited.find? fun a => a.seq == seq with
  | some a => a.cause
  | none =>
    match p.logSize? with
    | some n => ofLeBytes (s.devRead (p.logBase + 64 * (1 + seq % 2 ^ n)) 2)
    | none => 0

/-- Resume the fibres of the supervisor wave that a trap holds: RETRY, and SKIP with value 0 after SYSCALL (R441). -/
def State.hostResumes (s : State) (uid : Nat) : State :=
  let f := s.fibre uid
  s.mapFibres fun g =>
    if g.live && g.part == f.part && g.pipe == f.pipe && g.gang == f.gang && g.pc == f.pc && g.cur == f.cur && g.tag == f.tag && g.hold == f.hold then
      g.resume (match g.hold with | some h => if h.answer.isSome then 1 else 0 | none => 0) 0
    else g

/-- The effect of an answer to an error event (R441). -/
def State.escalated (s : State) (part : Nat) (e : HostEvent) (served : Bool) : State :=
  match e.uid with
  | some u =>
    let f := s.fibre u
    if !f.live || f.hold.isNone then s
    else if served then s.hostResumes u else s.resetPart part
  | none => if served then s.wakeSupervisor part else s.terminate part e.pipe (s.recordCause part e.arg)

/-- The page service that an event is for. -/
def Partition.serviceOf (p : Partition) (seq : Nat) : Option PageSvc := p.services.find? fun x => x.hostSeq == some seq

/-- The effect of an answer, or of the lack of one in time (R396). -/
def State.answered (s : State) (part : Nat) (e : HostEvent) (served : Bool) : Host.Outcome State Fault Refusal :=
  match e.kind with
  | 3 =>
    match s.jobs.find? fun (j : Job) => j.part == part && j.growWait && ((s.structCtx part j.ctx).map fun c => c.handle == e.arg).getD false with
    | some j => execArenaExtensionService j.id served s
    | none => .next s
  | 4 => .next (s.escalated part e served)
  | 5 => .next s
  | _ =>
    match (s.partn part).serviceOf e.seq with
    | none => .next s
    | some x =>
      if !served then .next (s.serviceFails part x 2)
      else if (s.walk part x.va).isSome then
        .next ((match x.frame with | some k => s.returnFrames part k | none => s).dropService part x.va)
      else
        match x.frame, x.region with
        | some k, some r => .next (s.insertEntry part x r k)
        | _, _ => .next (s.serviceFails part x 2)

/-- An event counts as answered: DONE advances, and its slot is free (R396). -/
def State.closeEvent (s : State) (part : Nat) (e : HostEvent) : State :=
  let n := (s.partn part).hostDone + 1
  let s := s.updPart part fun q => { q with hostDone := n, hostEvents := q.hostEvents.filter fun x => x.seq != e.seq }
  (s.hostWrite ((s.partn part).hsvcBase.toNat + 8) (leBytes 8 n)).post (.hostEventPost part)

/-- HSVC_ANS: an answer to an unanswered event; any other is ignored. -/
def execHsvcAns (part : Nat) (word : BitVec 64) (s : State) : Host.Outcome State Fault Refusal :=
  match (s.partn part).hostEvents.find? fun e => e.written && e.seq == word.toNat / 2 ^ 16 with
  | none => .next s
  | some e => (s.closeEvent part e).answered part e (word.toNat % 256 == 0)

/-- HOST_EVENT_TIMEOUT: an event without an answer within 50 ms counts as refused. -/
def execHostEventTimeout (part seq : Nat) (s : State) : Host.Outcome State Fault Refusal :=
  match (s.partn part).hostEvents.find? fun e => e.written && e.seq == seq && (match e.due with | some d => decide (d ≤ s.clock) | none => false) with
  | none => .next s
  | some e => (s.closeEvent part e).answered part e false

end Sys2Proof.Machine
end

