-- ==== Sys2Proof/Machine/Coherence.lean ====
section
/-! DEFINITION. The home slices towards the host and the peers, and the links: CXL.mem requests (R109, R422), CXL.cache completions, snoops
and evictions (R107, R431), completions that fail (R472), peer acknowledgements (R110), the bond and GDDR 7 links (R464, R465, R469 to R471),
and the loss of the host link (R443, R472); and the errors that the checks of
memories meet (R464 to R471). -/

namespace Sys2Proof.Machine

/-! ### Stopping the device -/

/-- Stop the device (R443): nothing is saved, READY reads 0, MSI-X vector 16 is raised, and only PERST# leaves this state. -/
def State.stopDevice (s : State) : State := { s with ready := false, agenda := [], timers := [], slots := [], plan := none, cur := [], msix := s.msix ++ [16] }

/-- A shared structure fails: cause 0x01C0 (R439, R467). -/
def State.deviceError (s : State) (structure_ : Nat) : State := (s.report { cause := 0x01C0, detail := structure_, rung := 5 }).stopDevice

/-! ### Frames and their owners (R465) -/

/-- The device areas that belong to a partition: pool, overflow area, page table, emergency area, log; (base, bytes). -/
def Partition.areas (p : Partition) : List (Nat × Nat) :=
  [(p.poolBase * 4096, p.poolSize * 4096), (bits p.voaCtl.toNat 26 26 * 2 ^ 26, if p.voaSlots = 0 then 0 else 2 ^ bits p.voaCtl.toNat 0 5),
   (p.ptBase, match p.ptLog? with | some n => 128 * 2 ^ n | none => 0), (p.emergBase.toNat, 3 * 2 ^ 20),
   (p.logBase, match p.logSize? with | some n => 64 * (1 + 2 ^ n) | none => 0)]

/-- The partition that owns the frame of a device address. -/
def State.frameOwner (s : State) (pa : Nat) : Option Nat :=
  (List.range 16).find? fun k => (s.partn k).state != 0 && (s.partn k).areas.any fun a => decide (a.1 ≤ pa) && decide (pa < a.1 + a.2)

/-! ### Host lines (R431) -/

/-- The first byte of a host line. -/
def hostLineKey (line : Nat) : Nat := line * 128

/-- Forget the poison marks of a host line: they last while the VAC holds it (R472). -/
def State.clearLineMarks (s : State) (line : Nat) : State := s.clearMarks (hostLineKey line) 128

/-- The VAC holds a host line no longer. -/
def State.dropHostLine (s : State) (line : Nat) : State :=
  { s with hostLines := s.hostLines.filter fun (h : HostLine) => h.line != line }.clearLineMarks line

/-- Change a host line. -/
def State.updHostLine (s : State) (line : Nat) (g : HostLine → HostLine) : State :=
  { s with hostLines := mapIf (fun (h : HostLine) => h.line == line) g s.hostLines }

/-- A record names the fibre whose access met an error; the tag is that of a versioned access (R465, R509). -/
def State.metBy (s : State) (r : Rec) (uid : Option Nat) (vers : Bool) : Rec :=
  match uid with
  | none => r
  | some u =>
    let f := s.fibre u
    { r with pc := f.pc.toNat, pipe := f.pipe, fid := f.fid, rpl := (s.pipeOf f).repl != 0, repl := f.repl
             tag := if vers then s.writeTag f.part f.tag else 0, part := some f.part }

/-- A record 0x0107: it names the fibre that a request serves, or no partition (R465, R472, R473). -/
def State.linkRec (s : State) (line : Nat) (uid : Option Nat) (detail : Nat) : Rec :=
  s.metBy { cause := 0x0107, addr := hostLineKey line % spaceSize, detail := detail, pcore := vacSlice (hostLineKey line) } uid true

/-- Mark the sectors of a host line (R464, R472). -/
def State.poisonLine (s : State) (line : Nat) : State := (List.range 4).foldl (fun s i => s.markGranules (hostLineKey line + 32 * i)) s

/-- Loads whose request may now be answered, or asked afresh. -/
def State.wakeLoads (s : State) (line : Nat) : State :=
  (s.loads.filter fun r => r.elems.any fun x => x.loc.cached && x.loc.key / 128 == line && !s.isSet (.loadResponse r.id)).foldl (fun s r => s.post (.loadResponse r.id)) s

/-- The VAC holds a host line no longer; requests for it are made afresh. -/
def State.loseHostLine (s : State) (line : Nat) : State := (s.dropHostLine line).wakeLoads line

/-- A line that a snoop has invalidated while its fill was in flight: every load that waits takes its data from the fill once, and neither the VAC
nor an L1 keeps the line (R107). -/
def State.passHostLine (s : State) (line : Nat) : State :=
  let s := (s.loads.filter fun r => r.elems.any fun x => x.loc.cached && x.loc.key / 128 == line).foldl (fun s r =>
    s.answerLoad r (r.elems.filter fun x => x.loc.cached && x.loc.key / 128 == line) false) s
  s.dropHostLine line

/-- A fill of a host line ends: the line is installed, poisoned where the fill failed, with what a PREFETCH brings into an L1; the loads that wait
take it, and the snoops that met the fill follow, an invalidation at once (R107, R246, R431, R472). -/
def State.fillHostLine (s : State) (h : HostLine) (mesi : Nat) (failed : Option Nat) : State :=
  let s := s.updHostLine h.line fun x => { x with mesi := mesi, request := none, uid := none, snoops := [], into := [] }
  let s := match failed with
    | some d => (s.poisonLine h.line).report (s.linkRec h.line h.uid d)
    | none => s
  if h.snoops.contains 0 then s.passHostLine h.line
  else
    let s := h.into.foldl (fun s (core, t, grain) => (List.range 4).foldl (fun s i => s.fillSector core t (hostLineKey h.line + 32 * i) grain) s) s
    (h.snoops.foldl (fun s k => s.timer (s.clock + 1) (if k = 1 then .snpData h.line else .snpCur h.line)) s).wakeLoads h.line

/-- What the host has written to one of its lines, as its answer gives it (R109). -/
def State.hostWrote (s : State) (line : Nat) (data : List Byte) : State :=
  if data.length = 128 then (s.setBytes (hostLineKey line) data).clearLineMarks line else s

/-- CXL_CACHE_COMPLETION: of RdShared, RdOwn or DirtyEvict. The answer of a read gives the line as the host has it. -/
def execCxlCacheCompletion (line : Nat) (own grantE : Bool) (answer : HostAnswer) (s : State) : Host.Outcome State Fault Refusal :=
  match s.hostLines.find? fun (h : HostLine) => h.line == line && h.request.isSome with
  | none => .next s
  | some h =>
    if h.request = some 2 then .next (s.loseHostLine line)
    else if (h.request = some 1) ≠ (own = true) then .next s
    else .next ((s.hostWrote line answer.data).fillHostLine h (if own || grantE then 2 else 1) (if answer.poisoned then h.request else none))

/-- The words of a line as the home slice serves them to the host: released words are promoted, and a Written-Unreleased word is poisoned
(R79, R109). -/
def State.serveHost (s : State) (key n : Nat) : List PWord × State :=
  (List.range n).foldl (fun (acc : List PWord × State) i =>
    let k := key + 4 * i
    let (d, p, s) := acc.2.serveWord 128 0 k (acc.2.knownGrain 0 k) false false
    (acc.1 ++ [if p then ⟨0, true⟩ else ⟨d, false⟩], s)) ([], s)

/-- A snoop of a host line: it waits for a fill in flight; data return where the line is in M (R107, R431). -/
def State.snoop (s : State) (line kind : Nat) : State :=
  match s.hostLines.find? fun (h : HostLine) => h.line == line with
  | none => s
  | some h =>
    if h.request = some 0 ∨ h.request = some 1 then s.updHostLine line fun x => { x with snoops := x.snoops ++ [kind] }
    else if h.mesi = 0 then s
    else
      let (ws, s) := s.serveHost (hostLineKey line) 32
      let dirty := s.hostLines.any fun (x : HostLine) => x.line == line && x.mesi == 3
      let s := if dirty then { s with hostData := ws } else s
      match kind with
      | 0 => s.dropHostLine line
      | 1 => s.updHostLine line fun x => { x with mesi := 1, backup := [] }
      | _ => s

/-- SNP_INV. -/
def execSnpInv (line : Nat) (s : State) : Host.Outcome State Fault Refusal := .next (s.snoop line 0)
/-- SNP_DATA. -/
def execSnpData (line : Nat) (s : State) : Host.Outcome State Fault Refusal := .next (s.snoop line 1)
/-- SNP_CUR. -/
def execSnpCur (line : Nat) (s : State) : Host.Outcome State Fault Refusal := .next (s.snoop line 2)

/-- Evict a host line: DirtyEvict from M, CleanEvict from E or S (R431). -/
def State.evictHostLine (s : State) (h : HostLine) : State :=
  if h.mesi = 3 then
    let s := s.updHostLine h.line fun x => { x with mesi := 0, request := some 2, uid := none, since := s.clock }
    (s.timer (s.clock + 10 * clocksPerMs) (.cxlCompletionTimeout 2 h.line)).post (.cxlCacheCompletion h.line false false ⟨false, []⟩)
  else s.dropHostLine h.line

/-- VAC_FILL: a way is chosen for a fill, a new version or a fetch-back, of whichever tag; where its set is full of versions, one spills to its
partition's area, else a host line of the set makes room (R121, R124, R431). -/
def execVacFill (_tag line : Nat) (s : State) : Host.Outcome State Fault Refusal :=
  if 16 ≤ (s.unslotted line).length + s.leasedWays line then .next ((s.roomIn line).getD s)
  else
    match s.hostLines.find? fun (h : HostLine) => h.mesi != 0 && h.request.isNone && h.line != line / 128 &&
        vacSlice (hostLineKey h.line) == vacSlice line && vacSet (hostLineKey h.line) == vacSet line with
    | some h => .next (s.evictHostLine h)
    | none => .next s

/-- A write to a peer is over, for every fibre in whose program order it stands (R110, R240). -/
def State.peerDone (s : State) (w : PeerWrite) : State :=
  { s with peerWrites := s.peerWrites.erase w }.updAll (w.uid :: w.also) fun f => { f with peerUnacked := f.peerUnacked - 1 }

/-- CXL_COMPLETION_TIMEOUT (R472): a request of code `req` (R473) has been out for 10 ms. -/
def execCxlCompletionTimeout (req line : Nat) (s : State) : Host.Outcome State Fault Refusal :=
  let late (t : Nat) : Bool := decide (t + 10 * clocksPerMs ≤ s.clock)
  if req = 4 then
    match s.peerWrites.find? fun (w : PeerWrite) => w.key / 128 == line && late w.since with
    | none => .next s
    | some w =>
      let s := (s.peerDone w).setBytes w.key w.old
      .next (s.report (s.linkRec line (some w.uid) 4))
  else
    match s.hostLines.find? fun (h : HostLine) => h.line == line && h.request == some req && late h.since with
    | none => .next s
    | some h =>
      if req = 2 then
        let s := (s.setBytes (hostLineKey line) h.backup).loseHostLine line
        .next (s.report (s.linkRec line none 2))
      else .next (s.fillHostLine h (if req = 1 then 2 else 1) (some 5))

/-- PEER_WRITE_ACK: the oldest write of the fibre is acknowledged (R110). -/
def execPeerWriteAck (fibre : Nat) (s : State) : Host.Outcome State Fault Refusal :=
  match s.peerWrites.find? fun (w : PeerWrite) => w.uid == fibre with
  | none => .next s
  | some w => .next (s.peerDone w)

/-! ### CXL.mem (R109, R422) -/

/-- The device lines of a range of addresses. -/
def deviceLines (addr n : Nat) : List Nat := (List.range ((addr + n + 127) / 128 - addr / 128)).map fun i => addr / 128 + i

/-- CXL_MEM_READ: `count` words from a device address; before READY they are poisoned. -/
def execCxlMemRead (addr count : Nat) (s : State) : Host.Outcome State Fault Refusal :=
  if deviceSize < addr + 4 * count ∨ addr % 4 ≠ 0 then .next s
  else if !s.ready then .next { s with hostData := List.replicate count ⟨0, true⟩ }
  else
    let (ws, s) := s.serveHost (devKey addr) count
    .next { s with hostData := ws
                   hostHeld := (deviceLines addr (4 * count)).foldl (fun l k => addOnce l k) s.hostHeld }

/-- Write bytes at home copies from a device key up, each sector apart. -/
def State.hostStores (s : State) (key : Nat) (d : List Byte) : Nat → State
  | 0 => s
  | n + 1 =>
    if d = [] then s
    else
      let k := 32 - key % 32
      (s.homeWriteAs 0 0 { key := key, vers := false, cached := true, grain := s.knownGrain 0 key } (d.take k)).hostStores (key + k) (d.drop k) n

/-- CXL_MEM_WRITE: bytes at a device address; before READY they are discarded. -/
def execCxlMemWrite (addr : Nat) (data : List Byte) (s : State) : Host.Outcome State Fault Refusal :=
  if deviceSize < addr + data.length ∨ !s.ready then .next s
  else .next (s.hostStores (devKey addr) data (data.length / 32 + 2))

/-- BACK_INVALIDATION_COMPLETE: the host caches the line no longer, and the home slice may accept a write-back (R109). -/
def execBackInvalidationComplete (line : Nat) (s : State) : Host.Outcome State Fault Refusal :=
  .next { s with hostHeld := s.hostHeld.filter fun x => x != line }

/-! ### The bond (R468 to R470, R473) -/

/-- Spare lanes used on a channel. -/
def State.sparesUsed (s : State) (core channel : Nat) : Nat :=
  ((s.spares.find? fun x => x.1 == core && x.2.1 == channel).map fun x => x.2.2).getD 0

/-- Use one more spare lane on a channel. -/
def State.useSpare (s : State) (core channel : Nat) : State :=
  { s with spares := s.spares.filter (fun x => !(x.1 == core && x.2.1 == channel)) ++ [(core, channel, s.sparesUsed core channel + 1)] }

/-- The partition to which a physical core belongs, and its logical core. -/
def State.coreOwner (s : State) (core : Nat) : Option Nat := (List.range 16).find? fun k => (s.partn k).state != 0 && (s.partn k).clus.getLsbD (core / 4)
def State.logicalOf (s : State) (part core : Nat) : Option Nat := (List.range 128).find? fun c => (s.partn part).phys? c == some core

/-- A record of a vault's core (R473, R509). -/
def State.vaultRec (s : State) (core : Nat) (r : Rec) : Rec :=
  let p := s.coreOwner core
  { r with pcore := core, part := p, lcore := p.bind fun k => s.logicalOf k core }

/-- The array that a vault offset lies in (R18, R473). -/
def vaultArray (offset : Nat) : Nat := if offset < 2 ^ 20 then 0 else if offset < 2 ^ 21 then 1 else 2

/-- BOND_LANE_TEST: four sends of a sector have failed, and its channel's lanes have been tested; `failing` are the lanes that failed, and
`resent` says that a send after the swap passed (R470). -/
def execBondLaneTest (core channel offset : Nat) (failing : List Nat) (resent : Bool) (s : State) : Host.Outcome State Fault Refusal :=
  if 128 ≤ core ∨ 16 ≤ channel ∨ 2 ^ 22 ≤ offset then .next s
  else
    let o := offset / 32 * 32
    let lanes := sortBy (fun n => n) (failing.foldl addOnce [])
    let swap := !lanes.isEmpty && decide (lanes.length + s.sparesUsed core channel ≤ 4)
    let s := if !swap then s else lanes.foldl (fun s lane =>
      let beat := if lane < 231 then lane / 33 else 0
      let r := s.vaultRec core { cause := 0x0103, addr := o, detail := channel + lane * 2 ^ 8 + s.sparesUsed core channel * 2 ^ 16 + beat * 2 ^ 24, rung := 6 }
      (s.report r).useSpare core channel) s
    if swap && resent then .next s
    else
      let s := s.report (s.vaultRec core { cause := 0x0101, addr := o, detail := vaultArray o * 2 ^ 8 + 2 ^ 12 + channel * 2 ^ 13 })
      .next (if vaultArray o = 1 then s.markGranules (vltKey core (o - 2 ^ 20)) else s)

/-! ### GDDR 7 (R464, R471) -/

/-- Marked sectors of device memory whose home is a slice. -/
def State.poisonList (s : State) (slice : Nat) : List Nat :=
  (s.poisoned.filter fun k => 4 * k / spaceSize == 0 && vacSlice (4 * k) == slice).foldl (fun l k => addOnce l (k / 8)) []

/-- A record of the GDDR 7 device that holds a sector (R465, R473). -/
def State.gddrRec (s : State) (pa : Nat) : Rec :=
  { cause := 0x0106, addr := pa, detail := gddrController pa, part := s.frameOwner pa, pcore := vacSlice (devKey pa) }

/-- The home copy of a sector is marked; a poison list that would hold more than 1,024 sectors is an error of its own (R464). -/
def State.markHome (s : State) (pa : Nat) : State :=
  let s := s.markGranules (devKey pa)
  if (s.poisonList (vacSlice (devKey pa))).length ≤ 1024 then s
  else
    match s.frameOwner pa with
    | some p => s.partitionError p { cause := 0x0180, detail := 12, part := some p, pcore := vacSlice (devKey pa) }
    | none => s.deviceError 12

/-- GDDR7_RETRAIN: the resends after a retrain passed, or the burst is uncorrectable (R471). -/
def execGddr7Retrain (sector resends : Nat) (passed isWrite : Bool) (s : State) : Host.Outcome State Fault Refusal :=
  let pa := 32 * sector
  if deviceSize ≤ pa then .next s
  else
    let r := s.gddrRec pa
    if passed then .next (s.report { r with detail := r.detail + max 5 (min resends 8) * 2 ^ 16 + 2 ^ 20, rung := 1 })
    else
      let s := s.report { r with cause := 0x0105, detail := r.detail + 2 ^ 8 }
      .next ((if isWrite then s.dropClean 0 (devKey pa) else s).markHome pa)

/-! ### Errors that the checks of the stores meet (R466 to R471) -/

/-- The partition that owns a sector in a VAC slice: that of its tag, or of its frame. -/
def State.sectorOwner (s : State) (tag key : Nat) : Option Nat :=
  if tag = 0 then (if key / spaceSize = 0 then s.frameOwner (key % spaceSize) else none)
  else (List.range 16).find? fun k => s.interval k == some tag || s.tagState k tag != tagFree

/-- A deferred error in an array starts a rollback: an interval is open, PART_MODE bit 3 is 0, and the granule is a register of a participating
fibre, a word of the scratchpad of a core that runs a participating replica, or a version that a rollback or a squash drops (R466). -/
def State.rollsBack (s : State) (part core array : Nat) (regs : List (Nat × Nat)) (sector : Option (Nat × Nat)) : Bool :=
  let hs := s.participants part
  !(s.partn part).mode.getLsbD 3 && (s.interval part).isSome &&
    (if array = 2 then sector.any fun x => x.1 != 0 && (s.interval part == some x.1 || s.tagState part x.1 == tagLive || s.tagState part x.1 == tagCommitting)
     else if array = 3 then (s.logicalOf part core).any fun c => (s.coresOf part hs).contains c
     else if array = 1 then false
     else regs.any fun x => (s.fibre x.1).part == part && hs.contains (s.fibre x.1).pipe)

/-- Mark the word of an array: registers take poison, memory takes a mark (R464). -/
def State.markCell (s : State) (core array offset : Nat) (regs : List (Nat × Nat)) (sector : Option (Nat × Nat)) : State :=
  if array = 1 then s.markGranule (vltKey core (offset - 2 ^ 20))
  else if array = 2 then (match sector with | some (t, key) => s.markGranules (copyKey t (key / 32 * 32)) | none => s)
  else if array = 3 then s.markGranule (spdKey core offset)
  else regs.foldl (fun s (u, r) => s.updFibre u fun f => f.setV r ⟨(f.v r).val, true⟩) s

/-- An error in a word of an array of SRAM (R468). -/
def State.cellError (s : State) (core array offset : Nat) (bit : Option Nat) (regs : List (Nat × Nat)) (sector : Option (Nat × Nat)) (uid : Option Nat) : State :=
  let r := match if array = 2 then sector else none with
    | some (t, key) => { cause := 0x0101, addr := offset, detail := array * 2 ^ 8, pcore := core, tag := t, part := s.sectorOwner t key : Rec }
    | none => s.vaultRec core { cause := 0x0101, addr := offset, detail := array * 2 ^ 8 }
  let r := s.metBy r uid (array == 2)
  match bit with
  | some b => s.report { r with cause := 0x0100, detail := r.detail + b, rung := 6 }
  | none =>
    match r.part with
    | some p =>
      if s.rollsBack p core array regs sector then (s.report { r with rung := 2 }).rollback p 0x0101
      else (s.report r).markCell core array offset regs sector
    | none => (s.report r).markCell core array offset regs sector

/-- An error in state that cannot carry poison (R439, R467): a saved image or a capture is never rolled back to. -/
def State.structureError (s : State) (code core : Nat) (part : Option Nat) : State :=
  match part with
  | none => s.deviceError code
  | some p =>
    let r : Rec := { cause := 0x0180, detail := code, part := some p, pcore := core }
    if code = 7 then (s.report { r with rung := 4 }).resetPart p else s.partitionError p r

/-- One error is served; one of a log's writes stays until a write meets it. -/
def State.serveError (s : State) (e : MemError) (uid : Option Nat) : State :=
  match e with
  | .cell core array offset bit regs sector => s.cellError core array (offset / 8 * 8) bit regs sector uid
  | .bond core channel offset beat resends =>
    s.report (s.metBy (s.vaultRec core { cause := 0x0102, addr := offset / 32 * 32, detail := channel + beat * 2 ^ 8 + resends * 2 ^ 16, rung := 1 }) uid
      (vaultArray offset == 2))
  | .burst sector resends =>
    let r := s.metBy (s.gddrRec (32 * sector)) uid true
    s.report { r with detail := r.detail + resends * 2 ^ 16, rung := 1 }
  | .device sector corrected =>
    let r := s.metBy (s.gddrRec (32 * sector)) uid true
    if corrected then s.report { r with cause := 0x0104, rung := 6 }
    else (s.report { r with cause := 0x0105 }).markHome (32 * sector)
  | .ofStructure code core part => s.structureError code core part
  | .logWrite p g => { s with errors := s.errors ++ [(.logWrite p g, uid)] }

/-- Every error met so far is served. -/
def State.settleErrors (s : State) : State :=
  s.errors.foldl (fun s x => s.serveError x.1 x.2) { s with errors := [] }

/-! ### The host link (R472) -/

/-- HOST_LINK_LOSS: the device stops. -/
def execHostLinkLoss (s : State) : Host.Outcome State Fault Refusal := .next ({ s with linkLost := true }.deviceError 11)

end Sys2Proof.Machine
end

