-- ==== Sys2Proof/Machine/Limits.lean ====
section
/-! DEFINITION. The limits that a configuration keeps (R75, R113, R361, R387, R399): checked when CREATE is served and, for a partition that is
IDLE, at each write of its page (R388). -/

namespace Sys2Proof.Machine

/-- Two ranges (base, size) share an address. -/
def overlap (a b : Nat × Nat) : Bool := decide (a.1 < b.1 + b.2) && decide (b.1 < a.1 + a.2) && a.2 != 0 && b.2 != 0

/-- The frame pool as a range of device addresses. -/
def Partition.pool (p : Partition) : Nat × Nat := (p.poolBase * 4096, p.poolSize * 4096)

/-- The areas that no pool may overlap: an overflow area that the host named, the page table, the emergency area (R75). -/
def Partition.fixedAreas (p : Partition) (voa : DWord) (taken : Bool) : List (Nat × Nat) :=
  let sz := bits voa.toNat 0 5
  (if taken ∨ sz < 26 ∨ 32 < sz then [] else [(bits voa.toNat 26 26 * 2 ^ 26, 2 ^ sz)]) ++
  [(p.ptBase, match p.ptLog? with | some n => 128 * 2 ^ n | none => 0), (p.emergBase.toNat, 3 * 2 ^ 20)]

/-- The valid entries of a logical map: (logical core, physical core). -/
def mapEntries (l : List (BitVec 8)) : List (Nat × Nat) :=
  (List.range 128).filterMap fun c => if (nth 0 l c).getLsbD 7 then some (c, ((nth 0 l c).extractLsb' 0 7).toNat) else none

/-- A logical map names cores 0 to n − 1, each on a core of its own in a cluster the partition owns (R387). -/
def Partition.mapOk (p : Partition) (lm : List (BitVec 8)) : Bool :=
  let es := mapEntries lm
  !es.isEmpty && (es.map fun e => e.1) == List.range es.length && es.all fun e =>
    p.clus.getLsbD (e.2 / 4) && (es.filter fun f => f.2 == e.2).length == 1

/-- The partners of the logical cores are there, apart from one another, and each partner of one core alone (R361). -/
def Partition.partnersOk (p : Partition) (lm : List (BitVec 8)) : Bool :=
  let es := mapEntries lm
  let phys (c : Nat) : Option Nat := (es.find? fun e => e.1 == c).map fun e => e.2
  let all := es.flatMap fun e => p.partnersOf e.1
  (es.all fun e =>
    let set := e.1 :: p.partnersOf e.1
    (set.all fun c => (phys c).isSome) &&
    (List.range set.length).all fun i => (List.range i).all fun j => apart ((phys (set.getD i 0)).getD 0) ((phys (set.getD j 0)).getD 0)) &&
  all.all fun c => (all.filter fun d => d == c).length == 1

/-- The partitions that are not DOWN, but for one. -/
def State.others (s : State) (part : Nat) : List Partition :=
  ((List.range 16).filter fun k => k != part && (s.partn k).state != 0).map s.partn

/-- Shares of a partition: BW, BDE, SINKS. -/
def Partition.bw (p : Partition) : Nat := bits p.res.toNat 8 7
def Partition.bde (p : Partition) : Nat := bits p.res.toNat 16 5
def Partition.sinkMask (p : Partition) : Nat := bits p.res.toNat 32 20

/-- The limits of R387, R113, R361 and R75 hold with `p` as partition `part`, its logical map `lm` and its overflow area `voa`. -/
def State.limitsOk (s : State) (part : Nat) (p : Partition) (lm : List (BitVec 8)) (voa : DWord) (taken : Bool) : Bool :=
  let os := s.others part
  let sum (f : Partition → Nat) : Nat := os.foldl (fun n q => n + f q) (f p)
  let pools := p.pool :: os.map Partition.pool
  let fixed := p.fixedAreas voa taken ++ os.flatMap fun q => q.fixedAreas q.voaCtl q.voaTaken
  (os.all fun q => q.clus &&& p.clus == 0 && q.sinkMask &&& p.sinkMask == 0 && !overlap q.pool p.pool) &&
  p.mapOk lm && p.partnersOk lm && decide (p.allow ≤ 8) && decide (sum Partition.allow ≤ 63) && decide (sum Partition.bw ≤ 64) && decide (sum Partition.bde ≤ 16) &&
  pools.all fun a => fixed.all fun b => !overlap a b

/-- A partition's page passes the checks of CREATE. -/
def State.mayCreate (s : State) (part : Nat) : Bool := s.limitsOk part (s.partn part) (s.partn part).lmapPage (s.partn part).voaPage false

/-- The sinks of a partition: a sink that its mask no longer holds loses its records (R399). -/
def State.claimSinks (s : State) (part : Nat) : State :=
  let mask := (s.partn part).sinkMask
  { s with sinks := (s.sinks.zip (List.range s.sinks.length)).map fun ((x, k) : Sink × Nat) =>
      if mask.testBit k then { x with owner := some part }
      else if x.owner = some part then { x with owner := none, current := none, pending := none } else x }

/-- A write of a register D (R388): free while the partition is DOWN; while it is IDLE the management controller refuses one that would break
the limits of what is in force, and the register keeps its value (notes/assumptions/62.md). -/
def State.writeD (s : State) (part : Nat) (g : Partition → Partition) : State :=
  let p := g (s.partn part)
  if (s.partn part).state = 0 then s.updPart part g
  else if (s.partn part).state = 1 ∧ s.limitsOk part p p.lmap p.voaCtl p.voaTaken then (s.updPart part g).claimSinks part
  else s

end Sys2Proof.Machine
end

