-- ==== Sys2Proof/Machine/Pages.lean ====
section
/-! DEFINITION. The management registers as the host reads and writes them (R7, R388): the registers of a partition page, frame contracts and their admission
(R400, R401), the frame pool (R75), sinks (R399), vault slabs (R427, R428), debug (R429, R430); and the request record of the supervisor
(R391). -/

namespace Sys2Proof.Machine

/-- Keep the bits of a register that a mask names. -/
def kept (mask : Nat) (v : DWord) : DWord := v &&& BitVec.ofNat 64 mask

/-- A mask of bits `lo` up, `n` of them. -/
def maskAt (lo n : Nat) : Nat := (2 ^ n - 1) * 2 ^ lo

/-! ### Frame contracts (R400, R401) -/

/-- The sum of fractions of positive denominators is at most one. -/
def sumAtMostOne (fs : List (Nat × Nat)) : Bool :=
  let t := fs.foldl (fun (a : Nat × Nat) f => (a.1 * f.2 + f.1 * a.2, a.2 * f.2)) (0, 1)
  decide (t.1 ≤ t.2)

/-- (C + B) / D of a contract, in clocks (R401). -/
def Contract.share (c : Contract) (deadline : Nat) : Nat × Nat := ((c.c + 9) * clocksPerUs + deadline, c.d * clocksPerUs)

/-- A contract is admitted in a partition beside those already admitted (R401). -/
def Partition.admits (p : Partition) (c : Contract) : Bool :=
  decide (0 < c.c) && decide (c.c ≤ c.d) && decide (c.d ≤ c.p) && p.res.getLsbD (32 + c.sink) && decide (c.sink < 20) &&
  sumAtMostOne (c.share p.preemptDl :: (p.contracts.filter fun x => x.adm).map fun x => x.share p.preemptDl)

/-- Bits of FSC_CONTRACT that a write gives: all but ADM and the reserved ones. -/
def contractBits : Nat := 2 ^ 63 + 2 ^ 61 + maskAt 56 5 + maskAt 0 54

/-- Write FSC_CONTRACT[k]; whether the write was applied. EN = 1 asks for admission, clearing EN withdraws, and while EN is 1 nothing else changes. -/
def State.writeContract (s : State) (part k : Nat) (v : DWord) : State × Bool :=
  let c := s.contract part k
  let w := kept contractBits v
  let fields (x : DWord) : DWord := kept (contractBits - 2 ^ 63) x
  if c.en then
    if w.getLsbD 63 then (s, fields w == fields c.reg)
    else
      (s.updContract part k fun c => { c with reg := fields c.reg, adm := false, start := none, spent := 0, delivered := false, overrun := false }, fields w == fields c.reg)
  else if !w.getLsbD 63 then (s.updContract part k fun c => { c with reg := w }, true)
  else
    let c' := { Contract.blank with reg := w }
    if !(s.partn part).admits c' then (s.updContract part k fun c => { c with reg := fields w }, false)
    else
      let s := s.updContract part k fun _ => { c' with reg := w ||| BitVec.ofNat 64 (2 ^ 62), adm := true }
      (if c'.sync then s else (s.beginPeriod part k s.clock).timer (s.clock + c'.p * clocksPerUs) (.fscPeriodStart part k), true)

/-- FSC_CONTRACT_WRITE. -/
def execFscContractWrite (part k : Nat) (value : BitVec 64) (s : State) : Host.Outcome State Fault Refusal :=
  .next (if s.ready && decide (part < 16) && decide (k < 16) then (s.writeContract part k value).1 else s)

/-! ### The other registers of a page (R388) -/

/-- INT_CTL as written; the MMP refuses EN = 1 without a length, or with one above 16,000 (R380). -/
def State.writeIntCtl (s : State) (part : Nat) (v : DWord) : State × Bool :=
  let w := kept (2 ^ 33 + 2 ^ 32 + maskAt 16 4 + maskAt 0 14) v
  let len := bits w.toNat 0 14
  if w.getLsbD 33 && ((len == 0 && !w.getLsbD 32) || decide (16000 < len)) then (s, false)
  else
    let was := (s.partn part).intCtl.getLsbD 33
    let s := s.updPart part fun p => { p with intCtl := w, boundaryAt := if was then p.boundaryAt else s.clock }
    (if w.getLsbD 33 && (s.partn part).state == 2 then s.armBoundary part else s, true)

/-- PREEMPT_DL as written: 1 to 4,194,240. -/
def State.writePreemptDl (s : State) (part : Nat) (v : DWord) : State × Bool :=
  let n := v.toNat
  if n = 0 ∨ 4194240 < n then (s, false) else (s.updPart part fun p => { p with preemptDl := n }, true)

/-- Replace eight bytes of LMAP. -/
def putLmap (l : List (BitVec 8)) (at_ : Nat) (v : DWord) : List (BitVec 8) := (List.range 8).foldl (fun l i => l.set (at_ + i) (v.extractLsb' (8 * i) 8)) l

/-- A write of a partition's register by its offset; offsets of registers with a row of their own are not here (R388). -/
def State.writePage (s : State) (part off : Nat) (v : DWord) : State :=
  let d (g : Partition → Partition) : State := s.writeD part g
  if off % 8 ≠ 0 then s
  else if off = 0x010 then d fun p => { p with clus := v.extractLsb' 0 32 }
  else if off = 0x018 then s.updPart part fun p => { p with mode := v.extractLsb' 0 5 }
  else if off = 0x020 then d fun p => { p with res := kept (maskAt 0 4 + maskAt 8 7 + maskAt 16 5 + maskAt 32 20) v }
  else if off = 0x028 then d fun p => { p with reqva := kept (maskAt 6 58) v }
  else if off = 0x030 then (s.writePreemptDl part v).1
  else if off = 0x038 then d fun p => { p with saveCtl := kept (maskAt 21 36) v }
  else if off = 0x040 then d fun p => { p with emergBase := kept (maskAt 16 48) v }
  else if off = 0x048 then d fun p => { p with hsvcBase := v }
  else if off = 0x060 then d fun p => { p with ptRoot := kept (maskAt 16 36 + maskAt 8 5 + maskAt 0 7) v }
  else if off = 0x068 then d fun p => { p with prvBase := kept (maskAt 50 7) v }
  else if off = 0x070 then d fun p => { p with voaPage := kept (maskAt 26 26 + maskAt 0 5) v }
  else if off = 0x078 then (s.writeIntCtl part v).1
  else if 0x100 ≤ off ∧ off < 0x180 then d fun p => { p with lmapPage := putLmap p.lmapPage (off - 0x100) v }
  else if 0x180 ≤ off ∧ off < 0x380 then
    let k := (off - 0x180) / 4
    d fun p => { p with replMap := (p.replMap.set k (v.extractLsb' 0 32 &&& 0xFFFF#32)).set (k + 1) (v.extractLsb' 32 32 &&& 0xFFFF#32) }
  else if off = 0x400 then d fun p => { p with errlog := kept (maskAt 16 36 + maskAt 0 4) v }
  else if 0x600 ≤ off ∧ off < 0x700 then
    let k := (off - 0x600) / 16
    s.updPart part fun p => { p with regions := p.regions.modify k fun r =>
      if off % 16 = 0 then r.extractLsb' 64 64 ++ kept (maskAt 21 36 + maskAt 3 9 + 3) v else kept (maskAt 0 32) v ++ r.extractLsb' 0 64 }
  else s

/-- A write of a register of the device page (R388, R429, R437). -/
def State.writeDevicePage (s : State) (off : Nat) (v : DWord) : State :=
  if off = 0x508 then { s with dlogSel := v }
  else if off = 0x020 then { s with dbgDark := s.dbgDark && !v.getLsbD 0 }
  else s

/-- REGISTER_WRITE: before READY writes to partition pages are ignored (R422). -/
def execRegisterWrite (part : Option Nat) (offset : Nat) (value : BitVec 64) (s : State) : Host.Outcome State Fault Refusal :=
  match part with
  | none => .next (s.writeDevicePage offset value)
  | some p => .next (if s.ready && decide (p < 16) then s.writePage p offset value else s)

/-- FPOOL_WRITE: the pool is refilled (R75). -/
def execFpoolWrite (part : Nat) (value : BitVec 64) (s : State) : Host.Outcome State Fault Refusal :=
  .next (if s.ready then s.writeD part fun p => { p with fpool := kept (maskAt 21 31 + maskAt 0 16) value, framesOut := [] } else s)

/-! ### What a read of the registers returns (R7) -/

/-- PART_STAT (R389). -/
def Partition.partStat (p : Partition) : Nat := p.state + p.lstat * 2 ^ 24 + min 65535 p.ovrcnt * 2 ^ 32
/-- SYS_STAT (R423). -/
def State.sysStat (s : State) : Nat :=
  (if s.ready then 1 else 0) + (if s.failed then 2 else 0) + (if s.trip then 4 else 0) + s.step * 2 ^ 8 + s.fwver.toNat * 2 ^ 16 + s.table * 2 ^ 40
/-- DLOG_DATA (R437). -/
def State.dlogData (s : State) : BitVec 512 := ((s.dlog.find? fun x => x.1 == s.dlogSel.toNat).map fun x => x.2).getD 0
/-- THERM_STAT (R425). -/
def State.thermStat (s : State) (c : Nat) : Nat :=
  let t := nth (0, false, false) s.therm c
  t.1.toNat + (if t.2.1 then 2 ^ 16 else 0) + (if t.2.2 then 2 ^ 17 else 0)
/-- BRING_STAT (R506). -/
def State.bringStat (s : State) : Nat := s.bringStep.toNat + s.bringReason.toNat * 2 ^ 8 + s.bringDetail.toNat * 2 ^ 16

/-- Eight bytes of a table of byte registers. -/
def eightOf (l : List (BitVec 8)) (k : Nat) : DWord := (List.range 8).foldl (fun w i => w ||| (nth 0 l (k + i)).setWidth 64 <<< (8 * i)) 0

/-- A read of eight bytes of a partition page (R388): a register WO and an offset without a register read as zero (R7). -/
def State.readPage (s : State) (part off : Nat) : DWord :=
  let p := s.partn part
  if off % 8 ≠ 0 then 0
  else if off = 0x000 then BitVec.ofNat 64 p.partStat
  else if off = 0x010 then p.clus.setWidth 64
  else if off = 0x018 then p.mode.setWidth 64
  else if off = 0x020 then p.res
  else if off = 0x028 then p.reqva
  else if off = 0x030 then BitVec.ofNat 64 p.preemptDl
  else if off = 0x038 then p.saveCtl
  else if off = 0x040 then p.emergBase
  else if off = 0x048 then p.hsvcBase
  else if off = 0x060 then p.ptRoot
  else if off = 0x068 then p.prvBase
  else if off = 0x070 then p.voaPage
  else if off = 0x078 then p.intCtl
  else if 0x080 ≤ off ∧ off < 0x100 then (s.contract part ((off - 0x080) / 8)).reg
  else if 0x100 ≤ off ∧ off < 0x180 then eightOf p.lmapPage (off - 0x100)
  else if 0x180 ≤ off ∧ off < 0x380 then (nth 0 p.replMap ((off - 0x180) / 4 + 1)) ++ nth 0 p.replMap ((off - 0x180) / 4)
  else if 0x380 ≤ off ∧ off < 0x400 then eightOf p.vltPwr (off - 0x380)
  else if off = 0x400 then p.errlog
  else if off = 0x410 then p.fpool
  else if off = 0x418 then BitVec.ofNat 64 p.poolFree
  else if 0x600 ≤ off ∧ off < 0x700 then
    let r := nth 0 p.regions ((off - 0x600) / 16)
    if off % 16 = 0 then r.extractLsb' 0 64 else r.extractLsb' 64 64
  else 0

/-! ### Sinks (R399) -/

/-- A register of a sink by its offset in the device page: the sink, and 0 mode, 1 time, 2 timing, 3 pixel clock. -/
def sinkRegister (off : Nat) : Option (Nat × Nat) :=
  if off % 8 ≠ 0 then none
  else if 0x600 ≤ off ∧ off < 0x740 then some ((off - 0x600) / 16, off % 16 / 8)
  else if 0x740 ≤ off ∧ off < 0x780 then some ((off - 0x740) / 16, 2 + off % 16 / 8)
  else none

/-- The bits of a sink's register that hold a value. -/
def sinkMask (r : Nat) : Nat :=
  if r = 0 then 2 ^ 63 + maskAt 52 4 + maskAt 16 32 else if r = 1 then maskAt 8 56 else if r = 2 then maskAt 24 32 + maskAt 0 8 else maskAt 0 32

/-- A register as a write that waits for the next slot leaves it. -/
def Sink.put (x : Sink) (r : Nat) (v : DWord) : Sink :=
  if r = 0 then { x with nextMode := some v } else if r = 1 then { x with nextTime := some v }
  else if r = 2 then { x with nextTiming := some v } else { x with nextPclk := some v }

/-- SINK_MODE_WRITE: at once while EN reads 0, else at the next slot; setting EN starts the slots. -/
def execSinkModeWrite (offset : Nat) (value : BitVec 64) (s : State) : Host.Outcome State Fault Refusal :=
  match sinkRegister offset with
  | none => .next s
  | some (k, r) =>
    let v := kept (sinkMask r) value
    let was := (s.sink k).mode.getLsbD 63
    let s := s.updSink k fun x => if was then x.put r v else (x.put r v).latch
    let x := s.sink k
    if !was && x.mode.getLsbD 63 then
      let due := s.clock + x.firstSlot k
      .next ((s.updSink k fun x => { x with slotAt := due }).timer due (.sinkSlotStart k))
    else .next s

/-- A read of eight bytes of the device page: PART_CMD and DBG_RESUME are WO (R390, R430). -/
def State.readDevicePage (s : State) (off : Nat) : DWord :=
  if off % 8 ≠ 0 then 0
  else if off = 0x008 then BitVec.ofNat 64 s.cmdStat
  else if off = 0x010 then BitVec.ofNat 64 s.sysStat
  else if off = 0x018 then BitVec.ofNat 64 s.bringStat
  else if off = 0x020 then if s.dbgDark then 1 else 0
  else if off = 0x028 then s.dbgEn.setWidth 64
  else if 0x100 ≤ off ∧ off < 0x500 then BitVec.ofNat 64 (s.thermStat ((off - 0x100) / 8))
  else if off = 0x500 then BitVec.ofNat 64 s.dlogHead
  else if off = 0x508 then s.dlogSel
  else if 0x540 ≤ off ∧ off < 0x580 then s.dlogData.extractLsb' (8 * (off - 0x540)) 64
  else
    match sinkRegister off with
    | some (k, 0) => (s.sink k).mode
    | some (k, 1) => (s.sink k).time
    | some (k, 2) => (s.sink k).timing
    | some (k, _) => (s.sink k).pclk
    | none => 0

/-! ### Vault slabs (R427, R428) -/

/-- The wake time of a slab that leaves OFF: 2 µs. -/
def slabFromOff : Nat := 3600

/-- The bytes of a slab whose contents are lost (notes/assumptions/20.md). -/
def lostSlab (n key : Nat) : List Host.Cell :=
  (List.range (2 ^ 18)).filterMap fun i => if Config.lostByte n (key + i) = 0 then none else some (i, Config.lostByte n (key + i))

/-- One slab of a vault goes to a state. -/
def State.setSlab (s : State) (part core k code : Nat) : State :=
  let p := s.partn part
  let old := p.slab core k
  let key := vltKey (p.phys core) (k * 2 ^ 18)
  let field (p : Partition) : Partition := { p with vltPwr := p.vltPwr.modify core fun b => (b &&& ~~~(3#8 <<< (2 * k))) ||| (BitVec.ofNat 8 code <<< (2 * k)) }
  if code = 3 ∨ code = old then s
  else if (p.phys? core).isNone then s.updPart part field
  else if code = 0 then
    let s := if old = 2 then s.putCells key (2 ^ 18) [] [] else s
    (s.updPart part fun p => { field p with waking := p.waking ++ [(core, k)] }).timer
      (s.clock + if old = 2 then slabFromOff else slabWakeClocks) (.vaultSlabWakeDone part core k)
  else
    let s := if old = 2 then { s with free := s.free + 1 }.putCells key (2 ^ 18) (lostSlab s.free key) [] else s
    s.updPart part fun p => { field p with waking := p.waking.filter fun x => x != (core, k) }

/-- `n` bytes from a key up meet the slab that begins at a key. -/
def onSlab (slab key n : Nat) : Bool := decide (key < slab + 2 ^ 18) && decide (slab < key + n)

/-- The bytes of a matrix operand meet slab `k` of its vault. -/
def MatOp.onSlab (o : MatOp) (rows chunks n k : Nat) : Bool :=
  o.vault && (List.range rows).any fun m => (List.range chunks).any fun c => Machine.onSlab (k * 2 ^ 18) (o.at m c) n

/-- An access has begun on a slab: a load that waits for its response, a copy whose pre-walk is done, a reducing store, a bound step set, or a tile
(R428, R461). -/
def State.begunOn (s : State) (part core k : Nat) : Bool :=
  let slab := vltKey ((s.partn part).phys core) (k * 2 ^ 18)
  (s.loads.any fun r => r.elems.any fun x => onSlab slab x.loc.key x.n) ||
  (s.copies.any fun c => c.part == part && c.started && c.left.any fun x => onSlab slab x.src.key 32 || onSlab slab x.dst.key 32) ||
  (s.reducing.any fun r => r.left.any fun x => onSlab slab x.1.key x.2.length) ||
  (s.stepSets.any fun x => x.part == part && x.core == core && x.bound.isSome && (signerOf x.signers 0).any fun z =>
    (fromMemA z.e && z.opA.onSlab 16 1 (fragBytes z.e) k) || (fromMemB z.e && z.opB.onSlab 16 1 (fragBytes z.e) k)) ||
  s.tmmas.any fun t => t.part == part && t.core == core &&
    ((matOp t.descA.1 t.descA.2).onSlab (16 * tileMB t.shape) (tileKS t.shape) (fragBytes t.e) k ||
     (matOp t.descB.1 t.descB.2).onSlab (16 * tileNB t.shape) (tileKS t.shape) (fragBytes t.e) k ||
     (tileOpC t.descC).onSlab (16 * tileMB t.shape) 1 (64 * tileNB t.shape) k)

/-- The state that a value of VLT_PWR gives slab `k`. -/
def slabCode (value : BitVec 8) (k : Nat) : Nat := (value.extractLsb' (2 * k) 2).toNat

/-- A write of VLT_PWR waits: it takes a slab from ON on which an access has begun (R428). -/
def State.slabBusy (s : State) (part core : Nat) (value : BitVec 8) : Bool :=
  (List.range 4).any fun k => (s.partn part).slab core k == 0 && (slabCode value k == 1 || slabCode value k == 2) && s.begunOn part core k

/-- A write of VLT_PWR takes effect, slab by slab. -/
def State.setSlabs (s : State) (part core : Nat) (value : BitVec 8) : State :=
  (List.range 4).foldl (fun s k => s.setSlab part core k (slabCode value k)) s

/-- VLT_PWR_WRITE: a write that leaves ON waits until the accesses begun on the slab have completed, and a later one of the core behind it; an access
that arrives while it waits meets the old state (R428; DEDUCED, notes/assumptions/91.md). -/
def execVltPwrWrite (part core : Nat) (value : BitVec 8) (s : State) : Host.Outcome State Fault Refusal :=
  if !s.ready ∨ 128 ≤ core then .next s
  else if ((s.partn part).slabWrites.any fun x => x.1 == core) || s.slabBusy part core value then
    .next (s.updPart part fun p => { p with slabWrites := p.slabWrites ++ [(core, value)] })
  else .next (s.setSlabs part core value)

/-- The writes of VLT_PWR that need wait no longer take effect. -/
def State.settleSlabs (s : State) (part : Nat) : State :=
  (s.partn part).slabWrites.foldl (fun s x =>
    if ((s.partn part).slabWrites.find? fun y => y.1 == x.1) != some x || s.slabBusy part x.1 x.2 then s
    else (s.updPart part fun p => { p with slabWrites := p.slabWrites.erase x }).setSlabs part x.1 x.2) s

/-- VAULT_SLAB_WAKE_DONE. -/
def execVaultSlabWakeDone (part core slab : Nat) (s : State) : Host.Outcome State Fault Refusal :=
  if s.isSet (.vaultSlabWakeDone part core slab) then .next s
  else .next (s.updPart part fun p => { p with waking := p.waking.filter fun x => x != (core, slab) })

/-! ### Debug (R429, R430) -/

/-- The fibres that BKPT holds. -/
def Fibre.atBreak (f : Fibre) : Bool := f.live && (match f.hold with | some h => h.debugger | none => false)

/-- DBG_CTL_WRITE: clearing EN[p] resumes as SKIP what BKPT holds in partition p. -/
def execDbgCtlWrite (value : BitVec 64) (s : State) : Host.Outcome State Fault Refusal :=
  let new := value.extractLsb' 0 16
  .next ({ s with dbgEn := new }.mapFibres fun f => if f.atBreak && s.dbgEn.getLsbD f.part && !new.getLsbD f.part then f.resume 1 0 else f)

/-- DBG_RESUME: mode 0 RETRY, 1 SKIP, 2 END, 3 ignored. -/
def execDbgResume (value : BitVec 64) (s : State) : Host.Outcome State Fault Refusal :=
  let v := value.toNat
  let mode := bits v 40 2
  let held := (s.fibres.filter fun f => f.atBreak && f.fid == bits v 0 32 && f.part == bits v 32 4).map fun f => f.uid
  if mode = 3 then .next s
  else if mode = 2 then .next (held.foldl (fun s u => s.endFibre u false) s)
  else .next (s.updAll held fun f => f.resume mode 0)

/-- A core counts as halted: debug is enabled, and every fibre on it is held at BKPT or waits. -/
def State.halted (s : State) (part core : Nat) : Bool :=
  s.dbgEn.getLsbD part && s.fibres.all fun f => !(f.part == part && f.onCore == core && f.live) || f.atBreak || f.st != .runnable

/-- DEBUG_MEMORY_READ: eight bytes of array 0 the vault, 1 the scratchpad, of a logical core; or two v-registers (array 2, by FIBRE_ID × 512 and
number), or an s-register (array 3, by handle × 192 and number). -/
def execDebugMemoryRead (part core array offset : Nat) (s : State) : Host.Outcome State Fault Refusal :=
  let p := s.partn part
  if !s.halted part core ∨ (p.phys? core).isNone then .next s
  else
    match array with
    | 0 =>
      if p.slab core (offset % 2 ^ 20 / 2 ^ 18) = 2 then .next { s with dbgData := [BitVec.allOnes 64], dbgDark := true }
      else .next { s with dbgData := [BitVec.ofNat 64 (s.readNat (vltKey (p.phys core) (offset % 2 ^ 20 / 8 * 8)) 8)] }
    | 1 => .next { s with dbgData := [BitVec.ofNat 64 (s.readNat (spdKey (p.phys core) (offset % 2 ^ 18 / 8 * 8)) 8)] }
    | 2 =>
      match s.fibres.find? fun f => f.part == part && f.onCore == core && f.live && f.fid == offset / 512 with
      | some f => .next { s with dbgData := [(f.vPair (offset % 512)).val] }
      | none => .next s
    | _ =>
      match s.groups.find? fun (g : Group) => g.part == part && g.handle == offset / 192 with
      | some g => .next { s with dbgData := [(g.sreg (offset % 192)).val] }
      | none => .next s

/-! ### The request record (R391) -/

/-- The place of a byte of the partition's own memory, where its page has an entry. -/
def State.partLoc (s : State) (part va : Nat) : Option Loc := (s.walk part va).map fun e => (pteOf e).loc va

/-- Eight bytes that the MMP acquires at DEVICE scope, from the home copy: an access of the hardware on its own behalf (R117). The owner of the line
writes back first (R79, R391). -/
def State.mmpRead (s : State) (part va : Nat) : Option (Nat × State) :=
  (s.partLoc part va).map fun l =>
    let s := match s.owner 0 l.key l.grain with | some o => s.promote o | none => s
    (ofLeBytes (s.engineRead part 0 { l with vers := false } 8).1, s)

/-- Eight bytes that the MMP writes with a release at DEVICE scope. -/
def State.mmpWrite (s : State) (part va x : Nat) : State :=
  match s.partLoc part va with
  | some l => s.homeWrite part 0 l (leBytes 8 x)
  | none => s

/-- A register write that the supervisor asks for: the state and the status (R391). -/
def State.requestWrite (s : State) (part off : Nat) (v : DWord) : State × Nat :=
  let st (r : State × Bool) : State × Nat := (r.1, if r.2 then 0 else 1)
  if off = 0x078 then st (s.writeIntCtl part v)
  else if off = 0x030 then st (s.writePreemptDl part v)
  else if 0x080 ≤ off ∧ off < 0x100 ∧ off % 8 = 0 then st (s.writeContract part ((off - 0x80) / 8) v)
  else (s, 2)

/-- The sequence number that stands in the request record. -/
def State.requestSeq (s : State) (part : Nat) : Option Nat := (s.mmpRead part ((s.partn part).reqva.toNat + 16)).map fun x => x.1

/-- REQUEST_RECORD_SERVICE: a new sequence number is served. -/
def execRequestRecordService (part : Nat) (s : State) : Host.Outcome State Fault Refusal :=
  let a := (s.partn part).reqva.toNat
  match if (s.partn part).state = 2 then s.mmpRead part (a + 16) else none with
  | none => .next s
  | some (seq, s) =>
    if seq = (s.partn part).reqSeq then .next s
    else
      match s.mmpRead part a with
      | none => .next s
      | some (off, s) =>
        match s.mmpRead part (a + 8) with
        | none => .next s
        | some (v, s) =>
          let (s, status) := s.requestWrite part off (BitVec.ofNat 64 v)
          .next ((s.updPart part fun p => { p with reqSeq := seq }).mmpWrite part (a + 32) (seq * 256 % 2 ^ 64 + status))

end Sys2Proof.Machine
end

