-- ==== Sys2Proof/Machine/Partn.lean ====
section
/-! DEFINITION. The commands to partitions (R387, R390, R392, R416): CREATE with its checks, SUSPEND, RESUME, DESTROY, an unknown command,
and the launch of a supervisor pipeline. -/

namespace Sys2Proof.Machine

/-! ### CREATE (R390) -/

/-- A command waits for the one that is served (R390). -/
def State.whenIdle (s : State) (e : Event) (k : State → Host.Outcome State Fault Refusal) : Host.Outcome State Fault Refusal :=
  if !s.ready then .next s else if s.cmdStat = 0xFF then .next (s.timer (s.clock + 1) e) else k s

/-- The overflow area of a partition to be created: its own choice, or 256 MiB of its pool (R122); none where the pool cannot supply it. -/
def State.takeOverflow (s : State) (part : Nat) : Option State :=
  let sz := bits (s.partn part).voaPage.toNat 0 5
  if 26 ≤ sz ∧ sz ≤ 32 then some s
  else (s.takeFrames part 65536).map fun (k, s) => s.updPart part fun p => { p with voaPage := BitVec.ofNat 64 (k * 4096 + 28), voaTaken := true }

/-- The log and the ring of host events begin afresh: HEAD, COUNT and DONE are zero (R396, R437). -/
def State.clearRings (s : State) (part : Nat) : State :=
  let s := s.updPart part fun p => { p with logHead := 0, ovrcnt := 0, intervals := 0, hostCount := 0, hostDone := 0, hostEvents := [], ansSeen := 0, reqSeq := 0 }
  let s := s.hostWrite (s.partn part).hsvcBase.toNat (leBytes 64 0)
  if (s.partn part).logSize?.isSome then s.devWrite (s.partn part).logBase (leBytes 64 0) else s

/-- CREATE: the page is checked and applied. -/
def execCreate (part : Nat) (s : State) : Host.Outcome State Fault Refusal :=
  s.whenIdle (.create part) fun s =>
    if (s.partn part).state ≠ 0 then .next { s with cmdStat := 2 }
    else if !s.mayCreate part then .next { s with cmdStat := 1 }
    else
      match s.takeOverflow part with
      | none => .next { s with cmdStat := 1 }
      | some s =>
        let s := (s.claimSinks part).updPart part fun p => { p with state := 1, lmap := p.lmapPage, voaCtl := p.voaPage }
        .next { s.clearRings part with cmdStat := 0 }

/-- PART_CMD_UNKNOWN: a command of no row of R390. -/
def execPartCmdUnknown (part cmd : Nat) (s : State) : Host.Outcome State Fault Refusal :=
  s.whenIdle (.partCmdUnknown part cmd) fun s => .next (if 1 ≤ cmd ∧ cmd ≤ 5 then s else { s with cmdStat := 3 })

/-! ### DESTROY (R390) -/

/-- DESTROY: the wait for the partition's tags begins. -/
def execDestroy (part : Nat) (s : State) : Host.Outcome State Fault Refusal :=
  s.whenIdle (.destroy part) fun s =>
    if (s.partn part).state ≠ 1 then .next { s with cmdStat := 2 } else .next { s with cmdStat := 0xFF, destroyWait := some part }

/-- Every tag of a partition is FREE (R113). -/
def State.tagsFree (s : State) (part : Nat) : Bool := s.tags.all fun r => r.state == 0 || r.part != part

/-- DESTROY_COMPLETE: clusters, sinks and an overflow area that the MMP took are free, and the partition is DOWN. -/
def execDestroyComplete (part : Nat) (s : State) : Host.Outcome State Fault Refusal :=
  if s.destroyWait ≠ some part ∨ !s.tagsFree part then .next s
  else
    let p := s.partn part
    let s := if p.voaTaken then s.returnFrames part (bits p.voaCtl.toNat 26 26 * 2 ^ 14) else s
    let s := s.updPart part fun q => { q with state := 0, lmap := List.replicate 128 0, voaTaken := false, launchWait := none
                                              voaPage := if q.voaTaken then 0 else q.voaPage, voaCtl := if q.voaTaken then 0 else q.voaCtl }
    .next { s with destroyWait := none, cmdStat := 0
                   pipes := s.pipes.filter fun (x : Pipe) => x.part != part
                   structs := s.structs.filter fun (c : StructCtx) => c.part != part
                   tlb := s.tlb.filter fun x => x.part != part
                   sinks := s.sinks.map fun (x : Sink) => if x.owner = some part then { x with owner := none, current := none, pending := none } else x }

/-! ### PART_LAUNCH (R392) -/

/-- The reader of the descriptor: no fibre, on logical core 0 under tag 0. -/
def State.launchReader (s : State) (part : Nat) (word : DWord) : Fibre :=
  { Fibre.blank with part := part
                     pageFail := match (s.partn part).launchWait with | some (w, e) => if w = word then e.pageFail else none | none => none }

/-- A launch word has its status. -/
def State.launched (s : State) (part status : Nat) : State := s.updPart part fun p => { p with lstat := status, launchWait := none }

/-- The launch waits for the service of a page of its descriptor, or for a host line. -/
def State.launchWaits (s : State) (part : Nat) (word : DWord) (w : Wait) : State := s.updPart part fun p => { p with launchWait := some (word, ⟨w, none⟩) }

/-- PART_LAUNCH: the supervisor pipeline on every logical core under tag 0. -/
def execPartLaunch (part : Nat) (word : BitVec 64) (s : State) : Host.Outcome State Fault Refusal :=
  let p := s.partn part
  if !s.ready then .next s
  else if p.state ≠ 1 then .next (s.updPart part fun p => { p with lstat := 6 })
  else if word.toNat % 64 ≠ 0 then .next (s.launched part 1)
  else
    let f := s.launchReader part word
    -- the host's write of the descriptor happens before the launch (the host row of R99): the reader's core acquires it
    let s := s.selfInval (s.coreOf f)
    match s.readDescriptor f word.toNat with
    | .error (.trap _) => .next (s.launched part 5)
    | .error (.service va acc) => .next ((s.raiseService part va acc false).launchWaits part word (.page (p.servicePage va)))
    | .error (.hostLine line own) => .next ((s.askHostLine 0 line own).launchWaits part word (.hostLine line))
    | .error (.wake core k) => .next ((s.startWake part core k).launchWaits part word (.slab core k))
    | .error (.wait _ w) => .next (s.launchWaits part word w)
    | .error (.fault x) => .fault x
    | .ok (d, poison, walks) =>
      if poison then .next (s.launched part 5)
      else
        let (_, st, s) := (s.keepWalks f walks).launch part 0 (mapEntries p.lmap).length 0 d true true
        let s := s.launched part st
        if st ≠ 0 then .next s
        else
          let s := s.updPart part fun p => { p with state := 2, boundaryAt := s.clock }
          .next (if (s.partn part).intCtl.getLsbD 33 then s.armBoundary part else s)

/-! ### SUSPEND and RESUME (R390, R416) -/

/-- SUSPEND: every pipeline is to be saved, and migrations not yet moving are abandoned (R415). -/
def execSuspend (part : Nat) (s : State) : Host.Outcome State Fault Refusal :=
  s.whenIdle (.suspend part) fun s =>
    if (s.partn part).state ≠ 2 then .next { s with cmdStat := 2 }
    else
      let s := s.updPart part fun p => { p with suspending := true, migrs := p.migrs.filter fun m => m.state == 2 }
      .next { s.requestSave part 2 ((s.runningPipes part).map fun (p : Pipe) => p.handle) (s.partn part).preemptDl with cmdStat := 0xFF }

/-- Every fibre of the partition is SAVED and out of its slot, with no boundary, rollback or move in progress. -/
def State.suspendReady (s : State) (part : Nat) : Bool :=
  let p := s.partn part
  p.suspending && p.state == 2 && !p.boundary && !p.rollback && p.migrs.isEmpty && p.emergency.isNone && (s.reducing.all fun r => r.part != part) &&
  s.fibres.all fun f => f.part != part || !f.live || (f.saved && decide (8 ≤ f.slot))

/-- The pages of the area that a suspension writes or a restore from IDLE reads, for some cores: the first absent one, with its core. -/
def State.areaAbsent (s : State) (part base : Nat) (cores : List Nat) : Option (Nat × Nat × Nat) :=
  cores.findSome? fun c =>
    match s.absentPage part (slotBase base 0 c) (imageOffsets true) with
    | some x => some (c, x)
    | none => (s.absentPage part (vaultSlot base c) ((List.range 256).map fun i => i * 4096)).map fun x => (c, x)

/-- The engine work and the requests of a partition leave the machine: they stand in its image. -/
def State.dropWork (s : State) (part : Nat) : State :=
  let uids := (s.fibres.filter fun f => f.part == part).map fun f => f.uid
  { s with
    rays := s.rays.filter fun (r : Ray) => r.part != part
    gathers := s.gathers.filter fun (g : Gather) => g.part != part
    loads := s.loads.filter fun (r : LoadReq) => !uids.contains r.uid
    copies := s.copies.filter fun (c : Copy) => c.part != part
    beams := s.beams.filter fun (b : Beam) => b.part != part
    jobs := s.jobs.filter fun (j : Job) => j.part != part
    ports := s.ports.map fun (x : Port) => if x.id.part = part then { x with window := [], backoff := [] } else x
    vports := s.vports.filter fun (x : VPort) => x.part != part }

/-- The dirty words of a partition's cores go home, and their L1s are empty (R416). -/
def State.flushCores (s : State) (part : Nat) : State :=
  let cores := (mapEntries (s.partn part).lmap).map fun e => e.2
  let s := s.writeBack fun w => cores.contains w.core
  { s with l1 := s.l1.filter fun w => !cores.contains w.core, registry := s.registry.filter fun r => !cores.contains r.owner }

/-- The boundary that a suspension takes: the capture, and the next interval (R382, R416). -/
def State.suspendBoundary (s : State) (part : Nat) : State :=
  let p := s.partn part
  if !p.intCtl.getLsbD 33 then s
  else
    let k := 1 - p.lastCapture
    let cap := s.captureOf part (s.participants part) false
    (s.updPart part fun p => { p with captures := [none, none].set k (some cap), lastCapture := k, ickpt := false }).turnInterval part |>.tellBoundary part k

/-- SUSPEND_COMPLETE: the boundary, the squash of the tags, the write-back, the image, and STATE (R416). -/
def execSuspendComplete (part : Nat) (s : State) : Host.Outcome State Fault Refusal :=
  let p := s.partn part
  if !s.suspendReady part then .next s
  else if p.saveBase = 0 then .next (s.saveFault part 0 0 0 0)
  else
    match s.areaAbsent part p.saveBase ((mapEntries p.lmap).map fun e => e.1) with
    | some (c, off, va) => .next (s.servicePage part c off va false)
    | none =>
      let s := ((s.suspendBoundary part).squashAll part).flushCores part
      let cap := s.captureOf part ((s.runningPipes part).map fun (x : Pipe) => x.handle) true
      let s := (s.dropWork part).updPart part fun p => { p with state := 3, suspending := false, image := some (p.saveBase, cap) }
      .next { s with cmdStat := 0 }

/-- The partition runs again: no suspension holds its pipelines. -/
def State.runAgain (s : State) (part : Nat) : State :=
  let s := s.dropHold part 2 ((s.runningPipes part).map fun (p : Pipe) => p.handle)
  let s := s.updPart part fun p => { p with state := 2, resuming := none, boundaryAt := s.clock }
  let s := if (s.partn part).intCtl.getLsbD 33 then s.armBoundary part else s
  { s with cmdStat := 0 }

/-- What a save area holds whose images this device did not write (R390, R410, R416): the layout inside a record is not architected, so that an
accepted image is a free value; none where the firmware does not accept it (DESIGN CHOICE, notes/assumptions/85.md). -/
opaque Config.foreignImage (part base free : Nat) : Option Capture

/-- An image is of one partition. -/
def Capture.forPart (c : Capture) (part : Nat) : Capture :=
  { c with
    pipes := c.pipes.map fun (x : Pipe) => { x with part := part }
    fibres := c.fibres.map fun f => { f with part := part }
    groups := c.groups.map fun (g : Group) => { g with part := part }
    rays := c.rays.map fun (r : Ray) => { r with part := part }
    gathers := c.gathers.map fun (g : Gather) => { g with part := part }
    copies := c.copies.map fun (x : Copy) => { x with part := part }
    beams := c.beams.map fun (b : Beam) => { b with part := part }
    jobs := c.jobs.map fun (j : Job) => { j with part := part }
    ports := c.ports.map fun (x : Port) => { x with id := { x.id with part := part } } }

/-- The partition's own last suspension, where it stands in an area. -/
def Partition.imageAt (p : Partition) (base : Nat) : Option Capture := p.image.bind fun (b, c) => if b = base then some c else none

/-- The cores whose images a RESUME reads from an area: those of the partition's own last suspension, else every mapped one. -/
def Partition.imageCores (p : Partition) (base : Nat) : List Nat :=
  match p.imageAt base with
  | some c => (c.vault ++ c.scratch).foldl (fun l x => addOnce l x.1) []
  | none => (mapEntries p.lmap).map fun e => e.1

/-- Bring an image back into the machine, its vaults only from IDLE. -/
def State.restoreImage (s : State) (part : Nat) (c : Capture) : State :=
  let old (h : Nat) : Pipe := (c.pipes.find? fun (x : Pipe) => x.handle == h).getD Pipe.blank
  let c := if (s.partn part).state = 3 then { c with vault := [] } else c
  (s.restoreCapture part false c (fun h => (old h).holds) fun h => (old h).pins).runAgain part

/-- RESUME: from SUSPENDED the vaults are in place; from IDLE images and vaults return from the area that ARG names (R390, R416). -/
def execResume (part : Nat) (arg : BitVec 48) (s : State) : Host.Outcome State Fault Refusal :=
  let p := s.partn part
  let base := if arg = 0 then p.saveBase else arg.toNat * 2 ^ 16
  let act (s : State) : Host.Outcome State Fault Refusal :=
    if p.state ≠ 3 ∧ p.state ≠ 1 then .next { s with cmdStat := 2 }
    else
      match if p.state = 3 then p.imageAt base else none with
      | some c => .next (((s.restoreWork c).sendAgain part c).runAgain part)
      | none =>
        if base = 0 then .next (s.saveFault part 0 0 0 0) else
        match s.areaAbsent part base (p.imageCores base) with
        | some (k, off, va) => .next { (s.updPart part fun p => { p with resuming := some base }).servicePage part k off va true with cmdStat := 0xFF }
        | none =>
          match p.imageAt base with
          | some c => .next (s.restoreImage part c)
          | none =>
            let s := { s with free := s.free + 1 }
            match Config.foreignImage part base (s.free - 1) with
            | none => .next { s.updPart part fun p => { p with resuming := none } with cmdStat := 1 }
            | some c => .next (s.restoreImage part (c.forPart part))
  if p.resuming = some base then act s else s.whenIdle (.resume part arg) act

end Sys2Proof.Machine
end

