-- ==== Sys2Proof/Machine/Device.lean ====
section
/-! DEFINITION. What happens to the whole device: thermal sensors (R411, R425, R426, R503, R505), cooling loops and operating tables (R424,
R505), bring-up and the reload of firmware (R420, R421, R506); and the answers of the supervisor to error records (R442, R443, R498). -/

namespace Sys2Proof.Machine

/-! ### Thermal sensors -/

/-- The thresholds in units of 0.0625 °C: 95, 100, 105 and 115 °C (R426). -/
def migrateAt : Nat := 1520
def coolAt : Nat := 1600
def throttleAt : Nat := 1680
def tripAt : Nat := 1840

/-- The last reading of a core's sensor. -/
def State.temp (s : State) (core : Nat) : Nat := (nth (0, false, false) s.therm core).1.toNat

/-- The device trips: the record, TRIP and TABLE 3 (R426, R505). -/
def State.tripDevice (s : State) (detail : Nat) : State :=
  { (s.report { cause := 0x01C1, detail := detail, rung := 5 }).stopDevice with trip := true, table := 3 }

/-- The spare that a hot core moves to: the lowest one in another thermal zone, cooler than 95 °C, that keeps the separation (R411). -/
def State.coolSpare (s : State) (part src core : Nat) : Option Nat :=
  let p := s.partn part
  (List.range 128).find? fun d => p.isSpare d && d / 16 != core / 16 && decide (s.temp d < migrateAt) && p.keepsApart src d &&
    !(p.migrs.any fun m => m.dst == d)

/-- A mapped core has reached 95 °C: a migration request, or a record where no spare is eligible; a standing request takes the new one in
(R411, R503). -/
def State.hotCore (s : State) (core : Nat) (reading : Nat) : State :=
  match s.coreOwner core with
  | none => s
  | some part =>
    match s.logicalOf part core with
    | none => s
    | some src =>
      let p := s.partn part
      if (p.migrs.any fun m => m.src == src) || !(p.state == 1 || p.state == 2) then s
      else
        match s.coolSpare part src core with
        | some d => s.requestMove part src d
        | none => s.report { cause := 0x0109, detail := reading, pcore := core, part := some part }

/-- THERMAL_SENSOR_SAMPLE. -/
def execThermalSensorSample (core : Nat) (reading : BitVec 12) (s : State) : Host.Outcome State Fault Refusal :=
  let t := reading.toNat
  if 128 ≤ core ∨ s.trip then .next s
  else
    let throttled := decide (throttleAt ≤ t) || ((nth (0, false, false) s.therm core).2.1 && decide (coolAt ≤ t))
    let s := { s with therm := s.therm.set core (reading, throttled, decide (tripAt ≤ t)) }
    if tripAt ≤ t then .next (s.tripDevice core)
    else .next (if s.ready && decide (migrateAt ≤ t) then s.hotCore core t else s)

/-! ### Cooling loops (R424, R505) -/

/-- A table comes into force; a change raises MSI-X vector 17. -/
def State.useTable (s : State) (t : Nat) : State := if s.table = t then s else { s with table := t, msix := s.msix ++ [17] }

/-- A zone reads the top loop, or the bottom loop, as lost (R17). -/
def State.loopTop (s : State) : Bool := s.loops.any fun x => x.1
def State.loopBottom (s : State) : Bool := s.loops.any fun x => x.2

/-- COOLING_LOOP_LOSS: a zone reads the top or the bottom loop, or both, as lost; the reduced table of the lost loop, or a trip where both are lost. DEDUCED
(notes/assumptions/89.md): the reading of any one zone counts as the loss of the loop (R17, R424). -/
def execCoolingLoopLoss (zone : Nat) (lost : Bool × Bool) (s : State) : Host.Outcome State Fault Refusal :=
  if s.trip then .next s
  else
    let s := { s with loops := s.loops.modify zone fun x => (x.1 || lost.1, x.2 || lost.2) }
    .next (if s.loopTop && s.loopBottom then s.tripDevice (2 ^ 8)
           else if s.loopTop then s.useTable 1 else if s.loopBottom then s.useTable 2 else s)

/-- NOMINAL_TABLE_RETURN: the lost loop has read good for 10 s, in every zone. -/
def execNominalTableReturn (s : State) : Host.Outcome State Fault Refusal :=
  .next (if s.trip then s else { s with loops := List.replicate 8 (false, false) }.useTable 0)

/-! ### Bring-up (R420, R421, R506) -/

/-- The state in which bring-up begins: that after reset, with host memory and the image as they are. -/
def State.atBringUp (s : State) : State := { State.reset with mem := s.mem.filter fun c => isHostKey c.1, fwver := s.fwver }

/-- Bring-up runs its steps; a failing one withholds READY. -/
def State.bringUp (s : State) (fail : Option BringFail) : State :=
  match fail with
  | none => s.atBringUp
  | some x =>
    { s.atBringUp with ready := false, failed := true, step := x.step - 1, bringStep := BitVec.ofNat 3 x.step, bringReason := BitVec.ofNat 4 x.reason
                       bringDetail := BitVec.ofNat 16 x.detail }

/-- PERST_DEASSERT. -/
def execPerstDeassert (fail : Option BringFail) (s : State) : Host.Outcome State Fault Refusal := .next (s.bringUp fail)

/-- FIRMWARE_RELOAD: the image is verified and written, and bring-up starts again; a stopped device waits for PERST# (R443). An image whose
signature fails is not run, and the version stays. -/
def execFirmwareReload (version : BitVec 16) (fail : Option BringFail) (s : State) : Host.Outcome State Fault Refusal :=
  if !s.ready ∧ !s.failed then .next s
  else
    let bad := match fail with | some x => x.step == 1 | none => false
    .next ({ s with fwver := if bad then s.fwver else version }.bringUp fail)

/-! ### Answers to records (R442, R443, R498) -/

/-- ANS as it stands in a partition's log. -/
def State.ansWord (s : State) (part : Nat) : Option DWord :=
  let p := s.partn part
  if p.logSize?.isNone ∨ p.state = 0 then none else some (BitVec.ofNat 64 (ofLeBytes (s.devRead (p.logBase + 32) 8)))

/-- The pending record that an answer names: a fibre is still held for it. -/
def State.answered? (s : State) (part : Nat) (ans : DWord) : Option Awaited :=
  (s.partn part).awaited.find? fun a => a.seq % 2 ^ 32 == ans.toNat / 2 ^ 32 &&
    a.held.any fun u => (s.fibre u).live && match (s.fibre u).hold with | some h => h.cause == a.cause | none => false

/-- A released word of ANS stands unread in an L1: it has been written since the MMP acquired it last. -/
def State.ansRewritten (s : State) (part : Nat) : Bool :=
  s.l1.any fun (w : L1Word) => w.tag == 0 && w.key / 8 * 8 == devKey ((s.partn part).logBase + 32) && w.dirty != 0 && w.rls

/-- A new ANS stands in a partition's log. -/
def State.ansNew (s : State) (part : Nat) (ans : DWord) : Bool := ans != (s.partn part).ansSeen || s.ansRewritten part

/-- The MMP acquires ANS: its owner writes back what it has released (R79). -/
def State.acquireAns (s : State) (part : Nat) (ans : DWord) : State :=
  let k := devKey ((s.partn part).logBase + 32)
  let s := match s.owner 0 k (s.knownGrain 0 k) with | some o => s.promote o | none => s
  s.updPart part fun q => { q with ansSeen := ans }

/-- ACK: the sequence number and a code, 0 done, 1 no such record, 2 not applicable. -/
def State.acknowledgeAns (s : State) (part : Nat) (ans : DWord) (code : Nat) : State :=
  if (s.partn part).logSize?.isNone then s
  else s.devWrite ((s.partn part).logBase + 40) (leBytes 8 (ans.toNat / 2 ^ 32 * 2 ^ 32 + code))

/-- The MMP acquires a new ANS of an action and acts on the record it names; `f` says what it does, or that it does not apply. -/
def State.serveAns (s : State) (part action : Nat) (f : State → Awaited → Option State) : State :=
  match s.ansWord part with
  | none => s
  | some ans =>
    if !s.ansNew part ans ∨ ans.toNat % 256 ≠ action then s
    else
      let s := s.acquireAns part ans
      match s.answered? part ans with
      | none => s.acknowledgeAns part ans 1
      | some a =>
        match f s a with
        | none => s.acknowledgeAns part ans 2
        | some t => (t.updPart part fun q => { q with awaited := q.awaited.filter fun x => x.seq != a.seq }).acknowledgeAns part ans 0

/-- ANS_ROLLBACK (R385, R443). -/
def execAnsRollback (part : Nat) (s : State) : Host.Outcome State Fault Refusal := .next (s.serveAns part 1 fun s a => some (s.rollback part a.cause))
/-- ANS_TERMINATE. -/
def execAnsTerminate (part : Nat) (s : State) : Host.Outcome State Fault Refusal := .next (s.serveAns part 2 fun s a => some (s.terminate part a.pipe a.cause))
/-- ANS_RESET. -/
def execAnsReset (part : Nat) (s : State) : Host.Outcome State Fault Refusal := .next (s.serveAns part 3 fun s _ => some (s.resetPart part))

/-- A replica stands held at its comparison point by a mismatch. -/
def Fibre.mismatched (f : Fibre) : Bool := match f.hold with | some h => h.cause == cReplMismatch | none => false

/-- RELEASE of a mismatch: every follower that disagrees is fenced, with its record, and the leader's point proceeds (R498). -/
def State.releasePoint (s : State) (a : Awaited) : State :=
  let l := s.fibre a.uid
  let fs := s.replicaSet l
  let cls := s.pointClass l
  let same (g : Fibre) : Bool := g.mismatched && g.sig == l.sig && g.pc == l.pc && s.pointOperands g == s.pointOperands l
  let out := fs.filter fun g => g.repl != l.repl && !same g
  let rest := fs.filter fun g => g.repl == l.repl || same g
  let s := out.foldl (fun s g => (s.fence g.part g.pipe g.repl).voteRecord l g l.repl cls) s
  (s.updAll (rest.map fun f => f.uid) fun f => f.resume 0 0).agreed rest l.repl

/-- ANS_RELEASE: it applies to a mismatch alone. -/
def execAnsRelease (part : Nat) (s : State) : Host.Outcome State Fault Refusal :=
  .next (s.serveAns part 4 fun s a => if a.cause = cReplMismatch ∧ (s.fibre a.uid).live then some (s.releasePoint a) else none)

/-- REPL_MISMATCH_TIMEOUT: no answer within 2 ms is taken as TERMINATE. -/
def execReplMismatchTimeout (part : Nat) (s : State) : Host.Outcome State Fault Refusal :=
  let p := s.partn part
  match p.awaited.find? fun a => a.cause == cReplMismatch && match a.due with | some d => decide (d ≤ s.clock) | none => false with
  | none => .next s
  | some a => .next ((s.updPart part fun q => { q with awaited := q.awaited.filter fun x => x.seq != a.seq }).terminate part a.pipe a.cause)

end Sys2Proof.Machine
end

