-- ==== Sys2Proof/Machine/Dispatch.lean ====
section
/-! DEFINITION. The dispatch: for each instruction and event, one call of its meaning. -/

namespace Sys2Proof.Machine

/-- What an instruction of the current wave, or an event, makes of the machine. -/
def exec (i : Instr) (s : State) : Host.Outcome State Fault Refusal :=
  match i with
  | .nop stall => Sys2Proof.Machine.execNop stall s
  | .rep r => Sys2Proof.Machine.execRep r s
  | .braBase b => Sys2Proof.Machine.execBraBase b s
  | .braExt x => Sys2Proof.Machine.execBraExt x s
  | .callBase b => Sys2Proof.Machine.execCallBase b s
  | .callExt x => Sys2Proof.Machine.execCallExt x s
  | .brx e => Sys2Proof.Machine.execBrx e s
  | .callx e => Sys2Proof.Machine.execCallx e s
  | .ret e => Sys2Proof.Machine.execRet e s
  | .fendBase b => Sys2Proof.Machine.execFendBase b s
  | .fendExt e => Sys2Proof.Machine.execFendExt e s
  | .yieldBase b => Sys2Proof.Machine.execYieldBase b s
  | .yieldExt e => Sys2Proof.Machine.execYieldExt e s
  | .yieldp e => Sys2Proof.Machine.execYieldp e s
  | .sleep e => Sys2Proof.Machine.execSleep e s
  | .wake e => Sys2Proof.Machine.execWake e s
  | .spawn e => Sys2Proof.Machine.execSpawn e s
  | .repack e => Sys2Proof.Machine.execRepack e s
  | .gnew e => Sys2Proof.Machine.execGnew e s
  | .gjoin e => Sys2Proof.Machine.execGjoin e s
  | .gleave e => Sys2Proof.Machine.execGleave e s
  | .gfree e => Sys2Proof.Machine.execGfree e s
  | .gbar e => Sys2Proof.Machine.execGbar e s
  | .garrive e => Sys2Proof.Machine.execGarrive e s
  | .gwait e => Sys2Proof.Machine.execGwait e s
  | .cvset e => Sys2Proof.Machine.execCvset e s
  | .cvsign e => Sys2Proof.Machine.execCvsign e s
  | .cvwait e => Sys2Proof.Machine.execCvwait e s
  | .qpush e => Sys2Proof.Machine.execQpush e s
  | .qpop e => Sys2Proof.Machine.execQpop e s
  | .qpeek e => Sys2Proof.Machine.execQpeek e s
  | .qclose e => Sys2Proof.Machine.execQclose e s
  | .launch e => Sys2Proof.Machine.execLaunch e s
  | .lwait e => Sys2Proof.Machine.execLwait e s
  | .getsr e => Sys2Proof.Machine.execGetsr e s
  | .setsr e => Sys2Proof.Machine.execSetsr e s
  | .trap e => Sys2Proof.Machine.execTrap e s
  | .syscall e => Sys2Proof.Machine.execSyscall e s
  | .eretRetry e => Sys2Proof.Machine.execEretRetry e s
  | .eretSkip e => Sys2Proof.Machine.execEretSkip e s
  | .eretEnd e => Sys2Proof.Machine.execEretEnd e s
  | .bkpt e => Sys2Proof.Machine.execBkpt e s
  | .halt e => Sys2Proof.Machine.execHalt e s
  | .tfence e => Sys2Proof.Machine.execTfence e s
  | .preqSave e => Sys2Proof.Machine.execPreqSave e s
  | .preqResume e => Sys2Proof.Machine.execPreqResume e s
  | .preqStat e => Sys2Proof.Machine.execPreqStat e s
  | .migrReq e => Sys2Proof.Machine.execMigrReq e s
  | .migrStat e => Sys2Proof.Machine.execMigrStat e s
  | .iaddBase b => Sys2Proof.Machine.execIaddBase b s
  | .iaddExt x => Sys2Proof.Machine.execIaddExt x s
  | .isubBase b => Sys2Proof.Machine.execIsubBase b s
  | .isubExt x => Sys2Proof.Machine.execIsubExt x s
  | .iminBase b => Sys2Proof.Machine.execIminBase b s
  | .iminExt x => Sys2Proof.Machine.execIminExt x s
  | .imaxBase b => Sys2Proof.Machine.execImaxBase b s
  | .imaxExt x => Sys2Proof.Machine.execImaxExt x s
  | .iabsBase b => Sys2Proof.Machine.execIabsBase b s
  | .iabsExt x => Sys2Proof.Machine.execIabsExt x s
  | .inegBase b => Sys2Proof.Machine.execInegBase b s
  | .inegExt x => Sys2Proof.Machine.execInegExt x s
  | .movBase b => Sys2Proof.Machine.execMovBase b s
  | .movExt x => Sys2Proof.Machine.execMovExt x s
  | .movi e => Sys2Proof.Machine.execMovi e s
  | .iadd3 e => Sys2Proof.Machine.execIadd3 e s
  | .lea e => Sys2Proof.Machine.execLea e s
  | .sel e => Sys2Proof.Machine.execSel e s
  | .isetp e => Sys2Proof.Machine.execIsetp e s
  | .imulBase b => Sys2Proof.Machine.execImulBase b s
  | .imulExt x => Sys2Proof.Machine.execImulExt x s
  | .imulhBase b => Sys2Proof.Machine.execImulhBase b s
  | .imulhExt x => Sys2Proof.Machine.execImulhExt x s
  | .imad e => Sys2Proof.Machine.execImad e s
  | .imadw e => Sys2Proof.Machine.execImadw e s
  | .dp4 e => Sys2Proof.Machine.execDp4 e s
  | .andBase b => Sys2Proof.Machine.execAndBase b s
  | .andExt x => Sys2Proof.Machine.execAndExt x s
  | .orBase b => Sys2Proof.Machine.execOrBase b s
  | .orExt x => Sys2Proof.Machine.execOrExt x s
  | .xorBase b => Sys2Proof.Machine.execXorBase b s
  | .xorExt x => Sys2Proof.Machine.execXorExt x s
  | .notBase b => Sys2Proof.Machine.execNotBase b s
  | .notExt x => Sys2Proof.Machine.execNotExt x s
  | .blut e => Sys2Proof.Machine.execBlut e s
  | .shlBase b => Sys2Proof.Machine.execShlBase b s
  | .shlExt x => Sys2Proof.Machine.execShlExt x s
  | .shrBase b => Sys2Proof.Machine.execShrBase b s
  | .shrExt x => Sys2Proof.Machine.execShrExt x s
  | .sarBase b => Sys2Proof.Machine.execSarBase b s
  | .sarExt x => Sys2Proof.Machine.execSarExt x s
  | .rolBase b => Sys2Proof.Machine.execRolBase b s
  | .rolExt x => Sys2Proof.Machine.execRolExt x s
  | .fshl e => Sys2Proof.Machine.execFshl e s
  | .clzBase b => Sys2Proof.Machine.execClzBase b s
  | .clzExt x => Sys2Proof.Machine.execClzExt x s
  | .ctzBase b => Sys2Proof.Machine.execCtzBase b s
  | .ctzExt x => Sys2Proof.Machine.execCtzExt x s
  | .ffsBase b => Sys2Proof.Machine.execFfsBase b s
  | .ffsExt x => Sys2Proof.Machine.execFfsExt x s
  | .popcBase b => Sys2Proof.Machine.execPopcBase b s
  | .popcExt x => Sys2Proof.Machine.execPopcExt x s
  | .brevBase b => Sys2Proof.Machine.execBrevBase b s
  | .brevExt x => Sys2Proof.Machine.execBrevExt x s
  | .bfe e => Sys2Proof.Machine.execBfe e s
  | .bfi e => Sys2Proof.Machine.execBfi e s
  | .prmt e => Sys2Proof.Machine.execPrmt e s
  | .saddBase b => Sys2Proof.Machine.execSaddBase b s
  | .saddExt x => Sys2Proof.Machine.execSaddExt x s
  | .ssubBase b => Sys2Proof.Machine.execSsubBase b s
  | .ssubExt x => Sys2Proof.Machine.execSsubExt x s
  | .smulBase b => Sys2Proof.Machine.execSmulBase b s
  | .smulExt x => Sys2Proof.Machine.execSmulExt x s
  | .sminBase b => Sys2Proof.Machine.execSminBase b s
  | .sminExt x => Sys2Proof.Machine.execSminExt x s
  | .smaxBase b => Sys2Proof.Machine.execSmaxBase b s
  | .smaxExt x => Sys2Proof.Machine.execSmaxExt x s
  | .smovBase b => Sys2Proof.Machine.execSmovBase b s
  | .smovExt x => Sys2Proof.Machine.execSmovExt x s
  | .smad e => Sys2Proof.Machine.execSmad e s
  | .smovi e => Sys2Proof.Machine.execSmovi e s
  | .ssetp e => Sys2Proof.Machine.execSsetp e s
  | .ssel e => Sys2Proof.Machine.execSsel e s
  | .slea e => Sys2Proof.Machine.execSlea e s
  | .sandBase b => Sys2Proof.Machine.execSandBase b s
  | .sandExt x => Sys2Proof.Machine.execSandExt x s
  | .sorBase b => Sys2Proof.Machine.execSorBase b s
  | .sorExt x => Sys2Proof.Machine.execSorExt x s
  | .sxorBase b => Sys2Proof.Machine.execSxorBase b s
  | .sxorExt x => Sys2Proof.Machine.execSxorExt x s
  | .sshlBase b => Sys2Proof.Machine.execSshlBase b s
  | .sshlExt x => Sys2Proof.Machine.execSshlExt x s
  | .sshrBase b => Sys2Proof.Machine.execSshrBase b s
  | .sshrExt x => Sys2Proof.Machine.execSshrExt x s
  | .ssarBase b => Sys2Proof.Machine.execSsarBase b s
  | .ssarExt x => Sys2Proof.Machine.execSsarExt x s
  | .sld e => Sys2Proof.Machine.execSld e s
  | .sst e => Sys2Proof.Machine.execSst e s
  | .shfl e => Sys2Proof.Machine.execShfl e s
  | .vote e => Sys2Proof.Machine.execVote e s
  | .ballot e => Sys2Proof.Machine.execBallot e s
  | .matchLanes e => Sys2Proof.Machine.execMatchLanes e s
  | .rdlane e => Sys2Proof.Machine.execRdlane e s
  | .wrlane e => Sys2Proof.Machine.execWrlane e s
  | .reduce e => Sys2Proof.Machine.execReduce e s
  | .scan e => Sys2Proof.Machine.execScan e s
  | .faddBase b => Sys2Proof.Machine.execFaddBase b s
  | .faddExt x => Sys2Proof.Machine.execFaddExt x s
  | .fsubBase b => Sys2Proof.Machine.execFsubBase b s
  | .fsubExt x => Sys2Proof.Machine.execFsubExt x s
  | .fmulBase b => Sys2Proof.Machine.execFmulBase b s
  | .fmulExt x => Sys2Proof.Machine.execFmulExt x s
  | .fminBase b => Sys2Proof.Machine.execFminBase b s
  | .fminExt x => Sys2Proof.Machine.execFminExt x s
  | .fmaxBase b => Sys2Proof.Machine.execFmaxBase b s
  | .fmaxExt x => Sys2Proof.Machine.execFmaxExt x s
  | .ffma e => Sys2Proof.Machine.execFfma e s
  | .fsetp e => Sys2Proof.Machine.execFsetp e s
  | .fclass e => Sys2Proof.Machine.execFclass e s
  | .frnd e => Sys2Proof.Machine.execFrnd e s
  | .fscale e => Sys2Proof.Machine.execFscale e s
  | .hadd2Base b => Sys2Proof.Machine.execHadd2Base b s
  | .hadd2Ext x => Sys2Proof.Machine.execHadd2Ext x s
  | .hmul2Base b => Sys2Proof.Machine.execHmul2Base b s
  | .hmul2Ext x => Sys2Proof.Machine.execHmul2Ext x s
  | .hmin2Base b => Sys2Proof.Machine.execHmin2Base b s
  | .hmin2Ext x => Sys2Proof.Machine.execHmin2Ext x s
  | .hmax2Base b => Sys2Proof.Machine.execHmax2Base b s
  | .hmax2Ext x => Sys2Proof.Machine.execHmax2Ext x s
  | .hfma2 e => Sys2Proof.Machine.execHfma2 e s
  | .fdot2 e => Sys2Proof.Machine.execFdot2 e s
  | .rcpBase b => Sys2Proof.Machine.execRcpBase b s
  | .rcpExt x => Sys2Proof.Machine.execRcpExt x s
  | .rsqBase b => Sys2Proof.Machine.execRsqBase b s
  | .rsqExt x => Sys2Proof.Machine.execRsqExt x s
  | .sqrtBase b => Sys2Proof.Machine.execSqrtBase b s
  | .sqrtExt x => Sys2Proof.Machine.execSqrtExt x s
  | .ex2Base b => Sys2Proof.Machine.execEx2Base b s
  | .ex2Ext x => Sys2Proof.Machine.execEx2Ext x s
  | .lg2Base b => Sys2Proof.Machine.execLg2Base b s
  | .lg2Ext x => Sys2Proof.Machine.execLg2Ext x s
  | .sinBase b => Sys2Proof.Machine.execSinBase b s
  | .sinExt x => Sys2Proof.Machine.execSinExt x s
  | .cosBase b => Sys2Proof.Machine.execCosBase b s
  | .cosExt x => Sys2Proof.Machine.execCosExt x s
  | .tanhBase b => Sys2Proof.Machine.execTanhBase b s
  | .tanhExt x => Sys2Proof.Machine.execTanhExt x s
  | .fcvt e => Sys2Proof.Machine.execFcvt e s
  | .f2i e => Sys2Proof.Machine.execF2i e s
  | .i2f e => Sys2Proof.Machine.execI2f e s
  | .fpack e => Sys2Proof.Machine.execFpack e s
  | .ld e => Sys2Proof.Machine.execLd e s
  | .ldp e => Sys2Proof.Machine.execLdp e s
  | .st e => Sys2Proof.Machine.execSt e s
  | .mst e => Sys2Proof.Machine.execMst e s
  | .rst e => Sys2Proof.Machine.execRst e s
  | .pagereq e => Sys2Proof.Machine.execPagereq e s
  | .prefetch e => Sys2Proof.Machine.execPrefetch e s
  | .atomAdd e => Sys2Proof.Machine.execAtomAdd e s
  | .atomMin e => Sys2Proof.Machine.execAtomMin e s
  | .atomMax e => Sys2Proof.Machine.execAtomMax e s
  | .atomAnd e => Sys2Proof.Machine.execAtomAnd e s
  | .atomOr e => Sys2Proof.Machine.execAtomOr e s
  | .atomXor e => Sys2Proof.Machine.execAtomXor e s
  | .atomExch e => Sys2Proof.Machine.execAtomExch e s
  | .cas e => Sys2Proof.Machine.execCas e s
  | .redAdd e => Sys2Proof.Machine.execRedAdd e s
  | .redMin e => Sys2Proof.Machine.execRedMin e s
  | .redMax e => Sys2Proof.Machine.execRedMax e s
  | .redAnd e => Sys2Proof.Machine.execRedAnd e s
  | .redOr e => Sys2Proof.Machine.execRedOr e s
  | .redXor e => Sys2Proof.Machine.execRedXor e s
  | .fence e => Sys2Proof.Machine.execFence e s
  | .cpfence e => Sys2Proof.Machine.execCpfence e s
  | .cpy e => Sys2Proof.Machine.execCpy e s
  | .cpyt e => Sys2Proof.Machine.execCpyt e s
  | .copyPrewalkDone job => Sys2Proof.Machine.execCopyPrewalkDone job s
  | .copySectorLand job sector => Sys2Proof.Machine.execCopySectorLand job sector s
  | .lease e => Sys2Proof.Machine.execLease e s
  | .lrel e => Sys2Proof.Machine.execLrel e s
  | .txbinit e => Sys2Proof.Machine.execTxbinit e s
  | .txbexp e => Sys2Proof.Machine.execTxbexp e s
  | .txbarr e => Sys2Proof.Machine.execTxbarr e s
  | .txbwait e => Sys2Proof.Machine.execTxbwait e s
  | .cinv e => Sys2Proof.Machine.execCinv e s
  | .cwb e => Sys2Proof.Machine.execCwb e s
  | .tlbinv e => Sys2Proof.Machine.execTlbinv e s
  | .tlbinvAll e => Sys2Proof.Machine.execTlbinvAll e s
  | .mma e => Sys2Proof.Machine.execMma e s
  | .mmas e => Sys2Proof.Machine.execMmas e s
  | .matrixStep part core engine => Sys2Proof.Machine.execMatrixStep part core engine s
  | .tmma e => Sys2Proof.Machine.execTmma e s
  | .tsqStep part core engine => Sys2Proof.Machine.execTsqStep part core engine s
  | .mzero e => Sys2Proof.Machine.execMzero e s
  | .mslot e => Sys2Proof.Machine.execMslot e s
  | .mstat e => Sys2Proof.Machine.execMstat e s
  | .mxeSlotBoundary => Sys2Proof.Machine.execMxeSlotBoundary s
  | .futSplit e => Sys2Proof.Machine.execFutSplit e s
  | .futEnter e => Sys2Proof.Machine.execFutEnter e s
  | .futCommit e => Sys2Proof.Machine.execFutCommit e s
  | .futureCommitPoint tag => Sys2Proof.Machine.execFutureCommitPoint tag s
  | .futSquash e => Sys2Proof.Machine.execFutSquash e s
  | .futStat e => Sys2Proof.Machine.execFutStat e s
  | .futWaitDone e => Sys2Proof.Machine.execFutWaitDone e s
  | .futWaitFree e => Sys2Proof.Machine.execFutWaitFree e s
  | .squashDrainComplete tag => Sys2Proof.Machine.execSquashDrainComplete tag s
  | .tagReclaimComplete tag => Sys2Proof.Machine.execTagReclaimComplete tag s
  | .flip e => Sys2Proof.Machine.execFlip e s
  | .ickpt e => Sys2Proof.Machine.execIckpt e s
  | .sinkSlotStart sink => Sys2Proof.Machine.execSinkSlotStart sink s
  | .trace e => Sys2Proof.Machine.execTrace e s
  | .traceAh e => Sys2Proof.Machine.execTraceAh e s
  | .rayTraversalEnd ray => Sys2Proof.Machine.execRayTraversalEnd ray s
  | .rayCandidateReady ray => Sys2Proof.Machine.execRayCandidateReady ray s
  | .rayget e => Sys2Proof.Machine.execRayget e s
  | .hitacc e => Sys2Proof.Machine.execHitacc e s
  | .hitrej e => Sys2Proof.Machine.execHitrej e s
  | .hitend e => Sys2Proof.Machine.execHitend e s
  | .beam e => Sys2Proof.Machine.execBeam e s
  | .beamComplete beam => Sys2Proof.Machine.execBeamComplete beam s
  | .tex e => Sys2Proof.Machine.execTex e s
  | .texg e => Sys2Proof.Machine.execTexg e s
  | .texq e => Sys2Proof.Machine.execTexq e s
  | .gatherResultReturn req => Sys2Proof.Machine.execGatherResultReturn req s
  | .atlreq e => Sys2Proof.Machine.execAtlreq e s
  | .atlmap e => Sys2Proof.Machine.execAtlmap e s
  | .bldBuild e => Sys2Proof.Machine.execBldBuild e s
  | .bldRefit e => Sys2Proof.Machine.execBldRefit e s
  | .bldRebal e => Sys2Proof.Machine.execBldRebal e s
  | .buildJobComplete job => Sys2Proof.Machine.execBuildJobComplete job s
  | .arenaExtensionService job granted => Sys2Proof.Machine.execArenaExtensionService job granted s
  | .bldPub e => Sys2Proof.Machine.execBldPub e s
  | .bldPin e => Sys2Proof.Machine.execBldPin e s
  | .bldUnpin e => Sys2Proof.Machine.execBldUnpin e s
  | .bldGen e => Sys2Proof.Machine.execBldGen e s
  | .bldQual e => Sys2Proof.Machine.execBldQual e s
  | .generationReclaimComplete part ctx gen => Sys2Proof.Machine.execGenerationReclaimComplete part ctx gen s
  | .sigrd e => Sys2Proof.Machine.execSigrd e s
  | .sigchk e => Sys2Proof.Machine.execSigchk e s
  | .replComparison fibre => Sys2Proof.Machine.execReplComparison fibre s
  | .replCompareTimeout fibre => Sys2Proof.Machine.execReplCompareTimeout fibre s
  | .intervalBoundary part => Sys2Proof.Machine.execIntervalBoundary part s
  | .intervalCapture part => Sys2Proof.Machine.execIntervalCapture part s
  | .starvationBreak gang => Sys2Proof.Machine.execStarvationBreak gang s
  | .primaryWaveAgeLimit gang => Sys2Proof.Machine.execPrimaryWaveAgeLimit gang s
  | .gangTier gang => Sys2Proof.Machine.execGangTier gang s
  | .gangRecall gang => Sys2Proof.Machine.execGangRecall gang s
  | .templateInstanceStart part pipe stage => Sys2Proof.Machine.execTemplateInstanceStart part pipe stage s
  | .queueEntryArrival port => Sys2Proof.Machine.execQueueEntryArrival port s
  | .queuePortResend port pipe queue => Sys2Proof.Machine.execQueuePortResend port pipe queue s
  | .verticalEntryArrival part core => Sys2Proof.Machine.execVerticalEntryArrival part core s
  | .verticalPortResend part core engine => Sys2Proof.Machine.execVerticalPortResend part core engine s
  | .queueCloseArrival part pipe queue => Sys2Proof.Machine.execQueueCloseArrival part pipe queue s
  | .stageCoreRebalance part pipe => Sys2Proof.Machine.execStageCoreRebalance part pipe s
  | .barrierTimeout group barrier => Sys2Proof.Machine.execBarrierTimeout group barrier s
  | .convergeTimeout group reg => Sys2Proof.Machine.execConvergeTimeout group reg s
  | .sleepExpire fibre => Sys2Proof.Machine.execSleepExpire fibre s
  | .repackBudgetExpire collection => Sys2Proof.Machine.execRepackBudgetExpire collection s
  | .loadResponse req => Sys2Proof.Machine.execLoadResponse req s
  | .registrationRequest core tag block => Sys2Proof.Machine.execRegistrationRequest core tag block s
  | .registryAck core tag block => Sys2Proof.Machine.execRegistryAck core tag block s
  | .forwardedRequest owner tag word acquire => Sys2Proof.Machine.execForwardedRequest owner tag word acquire s
  | .l1Fill core tag line met victim => Sys2Proof.Machine.execL1Fill core tag line met victim s
  | .vacFill tag line => Sys2Proof.Machine.execVacFill tag line s
  | .pageWalk part core va => Sys2Proof.Machine.execPageWalk part core va s
  | .mmpFaultService part va => Sys2Proof.Machine.execMmpFaultService part va s
  | .leaseExpire part handle => Sys2Proof.Machine.execLeaseExpire part handle s
  | .engineWayTimeout job => Sys2Proof.Machine.execEngineWayTimeout job s
  | .cxlMemRead addr count => Sys2Proof.Machine.execCxlMemRead addr count s
  | .cxlMemWrite addr data => Sys2Proof.Machine.execCxlMemWrite addr data s
  | .snpInv line => Sys2Proof.Machine.execSnpInv line s
  | .snpData line => Sys2Proof.Machine.execSnpData line s
  | .snpCur line => Sys2Proof.Machine.execSnpCur line s
  | .cxlCacheCompletion line own grantE answer => Sys2Proof.Machine.execCxlCacheCompletion line own grantE answer s
  | .cxlCompletionTimeout req line => Sys2Proof.Machine.execCxlCompletionTimeout req line s
  | .peerWriteAck fibre => Sys2Proof.Machine.execPeerWriteAck fibre s
  | .create part => Sys2Proof.Machine.execCreate part s
  | .reset part => Sys2Proof.Machine.execReset part s
  | .resetComplete part => Sys2Proof.Machine.execResetComplete part s
  | .suspend part => Sys2Proof.Machine.execSuspend part s
  | .resume part arg => Sys2Proof.Machine.execResume part arg s
  | .destroy part => Sys2Proof.Machine.execDestroy part s
  | .destroyComplete part => Sys2Proof.Machine.execDestroyComplete part s
  | .partCmdUnknown part cmd => Sys2Proof.Machine.execPartCmdUnknown part cmd s
  | .partLaunch part word => Sys2Proof.Machine.execPartLaunch part word s
  | .requestRecordService part => Sys2Proof.Machine.execRequestRecordService part s
  | .hostEventPost part => Sys2Proof.Machine.execHostEventPost part s
  | .hsvcAns part word => Sys2Proof.Machine.execHsvcAns part word s
  | .hostEventTimeout part seq => Sys2Proof.Machine.execHostEventTimeout part seq s
  | .fpoolWrite part value => Sys2Proof.Machine.execFpoolWrite part value s
  | .fscContractWrite part k value => Sys2Proof.Machine.execFscContractWrite part k value s
  | .sinkModeWrite offset value => Sys2Proof.Machine.execSinkModeWrite offset value s
  | .vltPwrWrite part core value => Sys2Proof.Machine.execVltPwrWrite part core value s
  | .vaultSlabWakeDone part core slab => Sys2Proof.Machine.execVaultSlabWakeDone part core slab s
  | .dbgCtlWrite value => Sys2Proof.Machine.execDbgCtlWrite value s
  | .dbgResume value => Sys2Proof.Machine.execDbgResume value s
  | .debugMemoryRead part core array offset => Sys2Proof.Machine.execDebugMemoryRead part core array offset s
  | .registerWrite part offset value => Sys2Proof.Machine.execRegisterWrite part offset value s
  | .fscPeriodStart part k => Sys2Proof.Machine.execFscPeriodStart part k s
  | .fscBudgetExhausted part k => Sys2Proof.Machine.execFscBudgetExhausted part k s
  | .fscPreempt part => Sys2Proof.Machine.execFscPreempt part s
  | .preemptDeadline part => Sys2Proof.Machine.execPreemptDeadline part s
  | .gangRestore gang => Sys2Proof.Machine.execGangRestore gang s
  | .emergencyImageCopy part => Sys2Proof.Machine.execEmergencyImageCopy part s
  | .saveDivertTimeout part => Sys2Proof.Machine.execSaveDivertTimeout part s
  | .thermalSensorSample core reading => Sys2Proof.Machine.execThermalSensorSample core reading s
  | .migrationMove part core => Sys2Proof.Machine.execMigrationMove part core s
  | .coolingLoopLoss zone lost => Sys2Proof.Machine.execCoolingLoopLoss zone lost s
  | .nominalTableReturn => Sys2Proof.Machine.execNominalTableReturn s
  | .perstDeassert fail => Sys2Proof.Machine.execPerstDeassert fail s
  | .firmwareReload version fail => Sys2Proof.Machine.execFirmwareReload version fail s
  | .ansRollback part => Sys2Proof.Machine.execAnsRollback part s
  | .ansTerminate part => Sys2Proof.Machine.execAnsTerminate part s
  | .ansReset part => Sys2Proof.Machine.execAnsReset part s
  | .ansRelease part => Sys2Proof.Machine.execAnsRelease part s
  | .replMismatchTimeout part => Sys2Proof.Machine.execReplMismatchTimeout part s
  | .bondLaneTest core channel offset failing resent => Sys2Proof.Machine.execBondLaneTest core channel offset failing resent s
  | .gddr7Retrain sector resends passed isWrite => Sys2Proof.Machine.execGddr7Retrain sector resends passed isWrite s
  | .hostLinkLoss => Sys2Proof.Machine.execHostLinkLoss s
  | .suspendComplete part => Sys2Proof.Machine.execSuspendComplete part s
  | .backInvalidationComplete line => Sys2Proof.Machine.execBackInvalidationComplete line s

end Sys2Proof.Machine
end

