-- ==== Sys2Proof/Machine/Settle.lean ====
section
/-! DEFINITION. What comes about by itself between two steps: the end of waits (R61), the next events of engines and of the MMP, saves and
returns of gangs, boundaries, rollbacks, suspensions and answers. -/

namespace Sys2Proof.Machine

/-! ### The end of waits -/

/-- A request for a host line is out. -/
def State.lineOut (s : State) (line : Nat) : Bool := s.hostLines.any fun (h : HostLine) => h.line == line && h.request.isSome

/-- A fibre that waits for a forwarded result or for room may go on (R370, R372). -/
def State.forwardOver (s : State) (f : Fibre) : Bool :=
  let p := s.pipeOf f
  !p.replicated || (if f.repl = p.leader then !f.forwarded.isEmpty || (s.followers f).all fun g => decide (g.forwarded.length < 64)
                    else !f.forwarded.isEmpty)

/-- A child of a follower may be born: its parent has executed its n-th SPAWN, or is gone (R370). -/
def State.bornOver (s : State) (f : Fibre) (n : Nat) : Bool :=
  match s.fibres.find? fun g => g.uid == f.parent && g.live with
  | some g => decide (n ≤ g.spawns)
  | none => true

/-- What a fibre waits for has come about, where the state alone shows it; the other waits end by an event. DESIGN CHOICE (notes/assumptions/80.md):
of several QPUSHes that wait for room in a window none goes first: each issues again and competes with the others (R56). -/
def State.waitOver (s : State) (f : Fibre) : Bool :=
  match f.wait with
  | .page va => (s.partn f.part).services.all fun x => x.va != va
  | .acks => f.acked
  | .loadsAndAcks => f.acked && !s.loadsOut f.uid
  | .slab core k => !(s.partn f.part).waking.contains (core, k)
  | .hostLine line => !s.lineOut line
  | .peer => f.peerUnacked == 0
  | .port vertical => if vertical then !(s.vport f.part f.onCore).full else !s.portFull f.port
  | .engine g => !((s.vport f.part f.onCore).window.any fun x => x.1 == g)
  | .cvu => !s.portFull f.cvuPort
  | .commitHold t => (s.tagRec t).state != 2
  | .pipe h => (s.pipe f.part h).ended.isSome
  | .path code scope => s.pathDone f code scope
  | .forward => s.forwardOver f
  | .born n => s.bornOver f n
  | .compare => !(s.pipeOf f).replicated
  | .prewalk job => (s.copy? job).isNone
  | .tlb | .jobs => true
  | .none | .pending | .commit .. | .tagDone .. | .tagFree .. | .txb .. | .barrier .. | .barrierNext ..
  | .round .. | .signNext .. | .mmaRound .. | .stepSet .. | .repack .. | .sleep .. | .ray | .held | .tmma .. => false

/-- Every fibre whose wait is over is RUNNABLE again. -/
def State.endWaits (s : State) : State := s.mapFibres fun f => if f.st != .ended && s.waitOver f then f.retry else f

/-- A fibre whose next instruction needs a result that has not returned is WAITING-MEMORY (R61). -/
def State.settlePending (s : State) : State :=
  s.mapFibres fun f => if f.runs && s.needsResult f then f.waits .waitMemory .pending else f

/-- What a request of an engine waits for has come about. -/
def State.engineOver (s : State) (part : Nat) (w : Wait) : Bool :=
  match w with
  | .page va => (s.partn part).services.all fun x => x.va != va
  | .slab core k => !(s.partn part).waking.contains (core, k)
  | .hostLine line => !s.lineOut line
  | _ => false

/-- A request of an engine whose wait is over goes on. -/
def State.engineGoes (s : State) (part : Nat) (e : EngineWait) : EngineWait := if s.engineOver part e.wait then { e with wait := .none } else e

/-- Requests of engines whose waits are over go on. -/
def State.endEngineWaits (s : State) : State :=
  { s with
    rays := s.rays.map fun (r : Ray) => { r with eng := s.engineGoes r.part r.eng }
    gathers := s.gathers.map fun (g : Gather) => { g with eng := s.engineGoes g.part g.eng }
    beams := s.beams.map fun (b : Beam) => { b with eng := s.engineGoes b.part b.eng }
    jobs := s.jobs.map fun (j : Job) => { j with eng := s.engineGoes j.part j.eng } }

/-- A replica set all of whose fibres have come to wait at their point is compared: a vote may have fenced the one that was missing (R366, R373). -/
def State.settlePoints (s : State) : State :=
  (s.fibres.filter fun f => f.live && f.wait == .compare).foldl (fun s f =>
    if (s.followers f).all (fun g => g.wait == .compare) && !((f :: s.followers f).any fun g => s.isSet (.replComparison g.uid))
    then s.post (.replComparison f.uid) else s) s

/-! ### The MMP -/

/-- A launch of the host goes on once the page of its descriptor is there, or failed (R392). -/
def State.settleLaunch (s : State) (part : Nat) : State :=
  match (s.partn part).launchWait with
  | none => s
  | some (w, e) => if (e.wait == .none || s.engineOver part e.wait) && !s.isSet (.partLaunch part w) then s.post (.partLaunch part w) else s

/-- A restore of a save area goes on once its page is there (R409). -/
def State.settleResume (s : State) (part : Nat) : State :=
  match (s.partn part).resuming with
  | none => s
  | some base =>
    let e : Event := .resume part (BitVec.ofNat 48 (base / 2 ^ 16))
    if (s.partn part).services.all (fun x => x.save.isNone) && !s.isSet e then s.post e else s

/-- A suspension goes on once everything of the partition is saved (R416). -/
def State.settleSuspend (s : State) (part : Nat) : State :=
  if !(s.partn part).suspending then s
  else
    let late := ((s.runningPipes part).filter fun (x : Pipe) => !x.holds.contains 2).map fun (x : Pipe) => x.handle
    let s := if late = [] then s else s.requestSave part 2 late (s.partn part).preemptDl
    if s.suspendReady part && (s.partn part).services.all (fun x => x.save.isNone) && !s.isSet (.suspendComplete part) then s.post (.suspendComplete part) else s

/-- A new request of the supervisor is served (R391). -/
def State.settleRequest (s : State) (part : Nat) : State :=
  if (s.partn part).state = 2 ∧ !s.isSet (.requestRecordService part) then
    match s.requestSeq part with
    | some n => if n = (s.partn part).reqSeq then s else s.post (.requestRecordService part)
    | none => s
  else s

/-- The event that serves an answer of some action. -/
def ansEvent (part action : Nat) : Event :=
  if action = 1 then .ansRollback part else if action = 2 then .ansTerminate part else if action = 3 then .ansReset part else .ansRelease part

/-- A new answer of the supervisor is served; one of no action of R442 does not apply. -/
def State.settleAnswer (s : State) (part : Nat) : State :=
  match s.ansWord part with
  | none => s
  | some ans =>
    if !s.ansNew part ans then s
    else
      let action := ans.toNat % 256
      if 1 ≤ action ∧ action ≤ 4 then (if s.isSet (ansEvent part action) then s else s.post (ansEvent part action))
      else (s.acquireAns part ans).acknowledgeAns part ans (if (s.answered? part ans).isSome then 2 else 1)

/-- What a partition's firmware does next. -/
def State.settlePart (s : State) (part : Nat) : State :=
  if (s.partn part).state = 0 then s
  else (((((((((s.settleSlabs part).settleLaunch part).settleBoundary part).settleRollback part).settleSuspend part).settleResume part).settleRequest part).settleAnswer part).settleFsc part)

/-- Every tag of a partition that is destroyed is FREE (R390). -/
def State.settleDestroy (s : State) : State :=
  match s.destroyWait with
  | none => s
  | some part => if s.tagsFree part && !s.isSet (.destroyComplete part) then s.post (.destroyComplete part) else s

/-! ### All of it -/

/-- The engines' next events. -/
def State.settleEngines (s : State) : State :=
  (((((((s.trimL1.endEngineWaits.settleSets).settleReducing).settleCopies).settleRays).settleGathers).settleBeams).settleFails).settleJobs

/-- Saves, and the return of what nothing holds. -/
def State.settleSaves (s : State) : State :=
  ((((((s.settleCollects.saveWaiting.parkGangs).settleEmergency).endRequests).settleMoves).selfResume).returnSaved).recallGangs

/-- What comes about by itself between two steps. -/
def State.settle (s : State) : State :=
  let s := ((s.settleSaves.endWaits).settleEngines).settlePoints
  let s := (s.settleCommits.settleSupervisors).settleWatches
  (((List.range 16).foldl State.settlePart s).settleDestroy.settleErrors).settlePending

end Sys2Proof.Machine
end

