-- ==== Sys2Proof/Machine/Load.lean ====
section
/-! DEFINITION. A program loaded from outside the machine: the smallest running partition, with one supervisor fibre
(notes/assumptions/15.md). -/

namespace Sys2Proof.Machine

/-- The virtual and the physical address of the loaded words. -/
def loadBase : Nat := 0x10000

/-- The page entry of the loaded words: readable, writable and executable device memory, cacheable, DIRECT (R69). -/
def loadPte : Nat := 1 + loadBase + 7 * 2 ^ 65 + loadBase / 2 ^ 12 * 2 ^ 76

/-- The handle of the loaded program's group: SEQ 1, cluster 0, context 0 (R40). -/
def loadGroup : Nat := 2 ^ 12

/-- The stage of the loaded program. -/
def loadStage : StageRec :=
  { arg := 0, coreMax := 0, coreMin := 0, inq := none, crEn := false, crGrp := 0, elastic := false, shape := 0, gcount := 0
    gsize := 1, prio := 0, win := 32, entry := BitVec.ofNat 64 loadBase, cores := [0, 1, 2, 3], nacked := false }

/-- The pipeline of the loaded program: the partition's supervisor pipeline on the cores of cluster 0. -/
def loadPipe : Pipe :=
  { Pipe.blank with handle := 1, supervisor := true, cores := [0, 1, 2, 3], stages := [loadStage], ended := none }

/-- The words of a program in memory, with one supervisor fibre of partition 0 at the first of them. -/
def State.loadProgram (s : State) (ws : List Word) : State :=
  let f : Fibre := { Fibre.blank with uid := s.nextUid, setId := s.nextUid, pipe := 1, fid := 1, pc := BitVec.ofNat 64 loadBase, win := 512
                                      cur := loadGroup, home := loadGroup, st := .runnable, readyAt := s.clock }
  let g : Group := { Group.blank with handle := loadGroup, everJoined := true, members := [(0, s.nextUid)] }
  let s := s.setBytes (devKey loadBase) (ws.flatMap fun w => leBytes 4 w.toNat)
  let s := s.updPart 0 fun q => { q with state := 2, clus := 1, lmap := [0x80, 0x81, 0x82, 0x83] ++ q.lmap.drop 4, pipeCount := 1, fidCount := 1 }
  { s with ready := true, pipes := [loadPipe], groups := [g], fibres := [f], nextUid := s.nextUid + 1, agenda := [], timers := [], slots := [], plan := none, l1 := []
           tlb := [{ part := 0, cluster := false, place := 0, entry := BitVec.ofNat 128 loadPte }] }

/-- The words of an instruction, stored where the next step fetches: at the PC of the wave that issues next, or, where none
does, as a loaded program. -/
def State.placeInstr (s : State) (ws : List Word) : State :=
  match if s.ready && s.agenda.isEmpty && s.dueTimer.isNone then s.makePlan.pick else none with
  | none => s.loadProgram ws
  | some c =>
    let f := s.fibre ((s.stands c).headD 0)
    (ws.zip (List.range ws.length)).foldl (fun s (w, i) =>
      match s.place f { ea := (f.pc.toNat + 4 * i) % 2 ^ 64, n := 4, form := 0, acc := 4, align := 4 } with
      | .ok (p :: _, _) => s.homeWrite f.part f.tag p.loc (leBytes 4 w.toNat)
      | .ok ([], _) => s
      | .error _ => s) s

end Sys2Proof.Machine
end

