-- ==== Sys2Proof/Machine/Step.lean ====
section
/-! DEFINITION. One step of the machine, and the state in which a given instruction is the next one to issue. -/

namespace Sys2Proof.Machine

noncomputable section

/-- One step: an event that is due, else the issue of one wave, else the passing of time (Issue.lean). -/
def step (s : State) : Host.Outcome State Fault Refusal := stepWith decode exec Event.toInstr State.settle s

end

/-- The state with an instruction where the next step fetches, the bits above `nbits` zero (Load.lean). -/
def State.withFetchWord (s : State) (nbits w : Nat) : State := s.placeInstr (wordsOfNat 5 (w % 2 ^ nbits))

end Sys2Proof.Machine
end

