-- ==== Sys2Proof/Safety.lean ====
section
/-! DEFINITION. What a safe run is, and the terms in which the statements speak of one issue: the wave that issues, the state in which it
has issued, and what is left when it has moved on. -/

namespace Sys2Proof

/-- The state after `n` steps, where no step faults or refuses. -/
noncomputable def runsTo (s : Machine.State) : Nat → Option Machine.State
  | 0 => some s
  | n + 1 =>
    match Machine.step s with
    | .next t => runsTo t n
    | .fault _ => none
    | .refused _ => none

namespace Machine

/-- The numbers of the wave's fibres whose guard is true: the active set (R36, R165), in ascending gang lane. -/
def State.activeSet (s : State) (i : Issue) : List Nat := (s.wave.filter fun f => f.guard i.e).map fun f => f.uid

/-- The state in which the wave has issued: its stall count runs (R30), the latencies of its results run (R173), and a comparison point
has reset the signatures of its active fibres (R363). -/
def State.issuedBy (s : State) (i : Issue) : State := ((s.markIssued i).passPoint i (s.activeSet i)).readTokens i

/-- Every fibre of the wave is a fibre of the state. -/
def State.waveFound (s : State) : Prop := ∀ u ∈ s.cur, ∃ f ∈ s.fibres, f.uid = u

/-- The instruction passes the shared checks of R170 with some fibre active, in a pipeline that does not run replicated. -/
structure Issues (s : State) (i : Issue) : Prop where
  found : s.waveFound
  gate : s.gate i = .go
  active : s.activeSet i ≠ []
  single : ∀ f ∈ s.wave, (s.pipeOf f).repl = 0

/-- The fibres of a list one after the other, in ascending gang lane (R184); the flag of an effect says that it has dealt with the fibre's PC, and
the second part lists those fibres. -/
def inOrder (g : State → Nat → State × Bool) (s : State) (stay : List Nat) : List Nat → State × List Nat
  | [] => (s, stay)
  | u :: r => inOrder g (g s u).1 (if (g s u).2 then u :: stay else stay) r

/-- The wave moves on past an instruction of `len` bytes from the state `s` (the instruction has issued) to `t`, having changed each active
fibre by `g` and nothing else at all. -/
structure Retires (s t : State) (act : List Nat) (len : Nat) (g : Fibre → Fibre) : Prop where
  active : ∀ u ∈ act, t.fibre u = (g (s.fibre u)).advancePc len
  inactive : ∀ u ∈ s.cur, u ∉ act → t.fibre u = (s.fibre u).advancePc len
  outside : ∀ u, u ∉ s.cur → t.fibre u = s.fibre u
  frame : t = { s with fibres := t.fibres }

/-- As `Retires`, with one s-register of a group written (R43, R105). -/
structure RetiresS (s t : State) (act : List Nat) (len : Nat) (g : Fibre → Fibre) (i : GroupId) (n : Nat) (x : PDWord) : Prop where
  active : ∀ u ∈ act, t.fibre u = (g (s.fibre u)).advancePc len
  inactive : ∀ u ∈ s.cur, u ∉ act → t.fibre u = (s.fibre u).advancePc len
  outside : ∀ u, u ∉ s.cur → t.fibre u = s.fibre u
  written : t.group i = (s.group i).setS n x
  others : ∀ j, j ≠ i → t.group? j = s.group? j
  frame : t = { s with fibres := t.fibres, groups := t.groups }

end Machine

end Sys2Proof
end

