-- ==== Sys2Proof/Claims.lean ====
section
/-! DEFINITION. What each instruction presents to the shared checks of R170: its MAJOR and MINOR (R167), its extended fields (the expansion
of R158 for a base word), its length (R152), and whether it is privileged (the daggers of R167; SETSR of PREQ, R201). An event presents nothing. -/

namespace Sys2Proof

open Machine

/-- The issue of an instruction; none for an event. -/
def Instr.issue? : Instr → Option Issue
  | .nop n => some (issueOf 0 0 (plainExt n) 4)
  | .rep w => some (issueOf 0 1 (plainExt w.stall) 4)
  | .braBase b => some (branchIssue 0 b 4)
  | .braExt (.ext e) => some (issueOf 0x01 0 e e.len)
  | .braExt (.baseLit b _) => some (branchIssue 0 b 12)
  | .callBase b => some (callIssue b 4)
  | .callExt (.ext e) => some (issueOf 0x01 1 e e.len)
  | .callExt (.baseLit b _) => some (callIssue b 12)
  | .brx e => some (issueOf 0x01 2 e e.len)
  | .callx e => some (issueOf 0x01 3 e e.len)
  | .ret e => some (issueOf 0x01 4 e e.len)
  | .fendBase b => some (issueOf 0x02 0 (expandBase 0x02 0 b none) 4)
  | .fendExt e => some (issueOf 0x02 0 e e.len)
  | .yieldBase b => some (issueOf 0x02 1 (expandBase 0x02 1 b none) 4)
  | .yieldExt e => some (issueOf 0x02 1 e e.len)
  | .yieldp e => some (issueOf 0x02 2 e e.len)
  | .sleep e => some (issueOf 0x02 3 e e.len)
  | .wake e => some (issueOf 0x02 4 e e.len)
  | .spawn e => some (issueOf 0x02 5 e e.len)
  | .repack e => some (issueOf 0x02 6 e e.len)
  | .gnew e => some (issueOf 0x03 0 e e.len)
  | .gjoin e => some (issueOf 0x03 1 e e.len)
  | .gleave e => some (issueOf 0x03 2 e e.len)
  | .gfree e => some (issueOf 0x03 3 e e.len)
  | .gbar e => some (issueOf 0x03 4 e e.len)
  | .garrive e => some (issueOf 0x03 5 e e.len)
  | .gwait e => some (issueOf 0x03 6 e e.len)
  | .cvset e => some (issueOf 0x03 7 e e.len)
  | .cvsign e => some (issueOf 0x03 8 e e.len)
  | .cvwait e => some (issueOf 0x03 9 e e.len)
  | .qpush e => some (issueOf 0x04 0 e e.len)
  | .qpop e => some (issueOf 0x04 1 e e.len)
  | .qpeek e => some (issueOf 0x04 2 e e.len)
  | .qclose e => some (issueOf 0x04 3 e e.len)
  | .launch e => some (issueOf 0x05 0 e e.len)
  | .lwait e => some (issueOf 0x05 1 e e.len)
  | .getsr e => some (issueOf 0x06 0 e e.len)
  | .setsr e => some { issueOf 6 1 e e.len with priv := modLow e 4 == 14 }
  | .trap e => some (issueOf 0x06 2 e e.len)
  | .syscall e => some (issueOf 0x06 3 e e.len)
  | .eretRetry e => some { issueOf 0x06 4 e e.len with priv := true }
  | .eretSkip e => some { issueOf 0x06 4 e e.len with priv := true }
  | .eretEnd e => some { issueOf 0x06 4 e e.len with priv := true }
  | .bkpt e => some (issueOf 0x06 5 e e.len)
  | .halt e => some { issueOf 0x06 6 e e.len with priv := true }
  | .tfence e => some (issueOf 0x06 7 e e.len)
  | .preqSave e => some { issueOf 0x06 8 e e.len with priv := true }
  | .preqResume e => some { issueOf 0x06 8 e e.len with priv := true }
  | .preqStat e => some { issueOf 0x06 8 e e.len with priv := true }
  | .migrReq e => some { issueOf 0x06 9 e e.len with priv := true }
  | .migrStat e => some { issueOf 0x06 9 e e.len with priv := true }
  | .iaddBase b => some (issueOf 0x08 0 (expandBase 0x08 0 b none) 4)
  | .iaddExt x => some (issueOf 0x08 0 (x.toExt 0x08 0) x.len)
  | .isubBase b => some (issueOf 0x08 1 (expandBase 0x08 1 b none) 4)
  | .isubExt x => some (issueOf 0x08 1 (x.toExt 0x08 1) x.len)
  | .iminBase b => some (issueOf 0x08 2 (expandBase 0x08 2 b none) 4)
  | .iminExt x => some (issueOf 0x08 2 (x.toExt 0x08 2) x.len)
  | .imaxBase b => some (issueOf 0x08 3 (expandBase 0x08 3 b none) 4)
  | .imaxExt x => some (issueOf 0x08 3 (x.toExt 0x08 3) x.len)
  | .iabsBase b => some (issueOf 0x08 4 (expandBase 0x08 4 b none) 4)
  | .iabsExt x => some (issueOf 0x08 4 (x.toExt 0x08 4) x.len)
  | .inegBase b => some (issueOf 0x08 5 (expandBase 0x08 5 b none) 4)
  | .inegExt x => some (issueOf 0x08 5 (x.toExt 0x08 5) x.len)
  | .movBase b => some (issueOf 0x08 6 (expandBase 0x08 6 b none) 4)
  | .movExt x => some (issueOf 0x08 6 (x.toExt 0x08 6) x.len)
  | .movi e => some (issueOf 0x08 7 e e.len)
  | .iadd3 e => some (issueOf 0x08 8 e e.len)
  | .lea e => some (issueOf 0x08 9 e e.len)
  | .sel e => some (issueOf 0x08 10 e e.len)
  | .isetp e => some (issueOf 0x08 11 e e.len)
  | .imulBase b => some (issueOf 0x09 0 (expandBase 0x09 0 b none) 4)
  | .imulExt x => some (issueOf 0x09 0 (x.toExt 0x09 0) x.len)
  | .imulhBase b => some (issueOf 0x09 1 (expandBase 0x09 1 b none) 4)
  | .imulhExt x => some (issueOf 0x09 1 (x.toExt 0x09 1) x.len)
  | .imad e => some (issueOf 0x09 2 e e.len)
  | .imadw e => some (issueOf 0x09 3 e e.len)
  | .dp4 e => some (issueOf 0x09 4 e e.len)
  | .andBase b => some (issueOf 0x0A 0 (expandBase 0x0A 0 b none) 4)
  | .andExt x => some (issueOf 0x0A 0 (x.toExt 0x0A 0) x.len)
  | .orBase b => some (issueOf 0x0A 1 (expandBase 0x0A 1 b none) 4)
  | .orExt x => some (issueOf 0x0A 1 (x.toExt 0x0A 1) x.len)
  | .xorBase b => some (issueOf 0x0A 2 (expandBase 0x0A 2 b none) 4)
  | .xorExt x => some (issueOf 0x0A 2 (x.toExt 0x0A 2) x.len)
  | .notBase b => some (issueOf 0x0A 3 (expandBase 0x0A 3 b none) 4)
  | .notExt x => some (issueOf 0x0A 3 (x.toExt 0x0A 3) x.len)
  | .blut e => some (issueOf 0x0A 4 e e.len)
  | .shlBase b => some (issueOf 0x0B 0 (expandBase 0x0B 0 b none) 4)
  | .shlExt x => some (issueOf 0x0B 0 (x.toExt 0x0B 0) x.len)
  | .shrBase b => some (issueOf 0x0B 1 (expandBase 0x0B 1 b none) 4)
  | .shrExt x => some (issueOf 0x0B 1 (x.toExt 0x0B 1) x.len)
  | .sarBase b => some (issueOf 0x0B 2 (expandBase 0x0B 2 b none) 4)
  | .sarExt x => some (issueOf 0x0B 2 (x.toExt 0x0B 2) x.len)
  | .rolBase b => some (issueOf 0x0B 3 (expandBase 0x0B 3 b none) 4)
  | .rolExt x => some (issueOf 0x0B 3 (x.toExt 0x0B 3) x.len)
  | .fshl e => some (issueOf 0x0B 4 e e.len)
  | .clzBase b => some (issueOf 0x0C 0 (expandBase 0x0C 0 b none) 4)
  | .clzExt x => some (issueOf 0x0C 0 (x.toExt 0x0C 0) x.len)
  | .ctzBase b => some (issueOf 0x0C 1 (expandBase 0x0C 1 b none) 4)
  | .ctzExt x => some (issueOf 0x0C 1 (x.toExt 0x0C 1) x.len)
  | .ffsBase b => some (issueOf 0x0C 2 (expandBase 0x0C 2 b none) 4)
  | .ffsExt x => some (issueOf 0x0C 2 (x.toExt 0x0C 2) x.len)
  | .popcBase b => some (issueOf 0x0C 3 (expandBase 0x0C 3 b none) 4)
  | .popcExt x => some (issueOf 0x0C 3 (x.toExt 0x0C 3) x.len)
  | .brevBase b => some (issueOf 0x0C 4 (expandBase 0x0C 4 b none) 4)
  | .brevExt x => some (issueOf 0x0C 4 (x.toExt 0x0C 4) x.len)
  | .bfe e => some (issueOf 0x0C 5 e e.len)
  | .bfi e => some (issueOf 0x0C 6 e e.len)
  | .prmt e => some (issueOf 0x0C 7 e e.len)
  | .saddBase b => some (issueOf 0x10 0 (expandBase 0x10 0 b none) 4)
  | .saddExt x => some (issueOf 0x10 0 (x.toExt 0x10 0) x.len)
  | .ssubBase b => some (issueOf 0x10 1 (expandBase 0x10 1 b none) 4)
  | .ssubExt x => some (issueOf 0x10 1 (x.toExt 0x10 1) x.len)
  | .smulBase b => some (issueOf 0x10 2 (expandBase 0x10 2 b none) 4)
  | .smulExt x => some (issueOf 0x10 2 (x.toExt 0x10 2) x.len)
  | .sminBase b => some (issueOf 0x10 3 (expandBase 0x10 3 b none) 4)
  | .sminExt x => some (issueOf 0x10 3 (x.toExt 0x10 3) x.len)
  | .smaxBase b => some (issueOf 0x10 4 (expandBase 0x10 4 b none) 4)
  | .smaxExt x => some (issueOf 0x10 4 (x.toExt 0x10 4) x.len)
  | .smovBase b => some (issueOf 0x10 5 (expandBase 0x10 5 b none) 4)
  | .smovExt x => some (issueOf 0x10 5 (x.toExt 0x10 5) x.len)
  | .smad e => some (issueOf 0x10 6 e e.len)
  | .smovi e => some (issueOf 0x10 7 e e.len)
  | .ssetp e => some (issueOf 0x10 8 e e.len)
  | .ssel e => some (issueOf 0x10 9 e e.len)
  | .slea e => some (issueOf 0x10 10 e e.len)
  | .sandBase b => some (issueOf 0x11 0 (expandBase 0x11 0 b none) 4)
  | .sandExt x => some (issueOf 0x11 0 (x.toExt 0x11 0) x.len)
  | .sorBase b => some (issueOf 0x11 1 (expandBase 0x11 1 b none) 4)
  | .sorExt x => some (issueOf 0x11 1 (x.toExt 0x11 1) x.len)
  | .sxorBase b => some (issueOf 0x11 2 (expandBase 0x11 2 b none) 4)
  | .sxorExt x => some (issueOf 0x11 2 (x.toExt 0x11 2) x.len)
  | .sshlBase b => some (issueOf 0x11 3 (expandBase 0x11 3 b none) 4)
  | .sshlExt x => some (issueOf 0x11 3 (x.toExt 0x11 3) x.len)
  | .sshrBase b => some (issueOf 0x11 4 (expandBase 0x11 4 b none) 4)
  | .sshrExt x => some (issueOf 0x11 4 (x.toExt 0x11 4) x.len)
  | .ssarBase b => some (issueOf 0x11 5 (expandBase 0x11 5 b none) 4)
  | .ssarExt x => some (issueOf 0x11 5 (x.toExt 0x11 5) x.len)
  | .sld e => some (issueOf 0x12 0 e e.len)
  | .sst e => some (issueOf 0x12 1 e e.len)
  | .shfl e => some (issueOf 0x14 0 e e.len)
  | .vote e => some (issueOf 0x14 1 e e.len)
  | .ballot e => some (issueOf 0x14 2 e e.len)
  | .matchLanes e => some (issueOf 0x14 3 e e.len)
  | .rdlane e => some (issueOf 0x14 4 e e.len)
  | .wrlane e => some (issueOf 0x14 5 e e.len)
  | .reduce e => some (issueOf 0x15 0 e e.len)
  | .scan e => some (issueOf 0x15 1 e e.len)
  | .faddBase b => some (issueOf 0x18 0 (expandBase 0x18 0 b none) 4)
  | .faddExt x => some (issueOf 0x18 0 (x.toExt 0x18 0) x.len)
  | .fsubBase b => some (issueOf 0x18 1 (expandBase 0x18 1 b none) 4)
  | .fsubExt x => some (issueOf 0x18 1 (x.toExt 0x18 1) x.len)
  | .fmulBase b => some (issueOf 0x18 2 (expandBase 0x18 2 b none) 4)
  | .fmulExt x => some (issueOf 0x18 2 (x.toExt 0x18 2) x.len)
  | .fminBase b => some (issueOf 0x18 3 (expandBase 0x18 3 b none) 4)
  | .fminExt x => some (issueOf 0x18 3 (x.toExt 0x18 3) x.len)
  | .fmaxBase b => some (issueOf 0x18 4 (expandBase 0x18 4 b none) 4)
  | .fmaxExt x => some (issueOf 0x18 4 (x.toExt 0x18 4) x.len)
  | .ffma e => some (issueOf 0x18 5 e e.len)
  | .fsetp e => some (issueOf 0x18 6 e e.len)
  | .fclass e => some (issueOf 0x18 7 e e.len)
  | .frnd e => some (issueOf 0x18 8 e e.len)
  | .fscale e => some (issueOf 0x18 9 e e.len)
  | .hadd2Base b => some (issueOf 0x19 0 (expandBase 0x19 0 b none) 4)
  | .hadd2Ext x => some (issueOf 0x19 0 (x.toExt 0x19 0) x.len)
  | .hmul2Base b => some (issueOf 0x19 1 (expandBase 0x19 1 b none) 4)
  | .hmul2Ext x => some (issueOf 0x19 1 (x.toExt 0x19 1) x.len)
  | .hmin2Base b => some (issueOf 0x19 2 (expandBase 0x19 2 b none) 4)
  | .hmin2Ext x => some (issueOf 0x19 2 (x.toExt 0x19 2) x.len)
  | .hmax2Base b => some (issueOf 0x19 3 (expandBase 0x19 3 b none) 4)
  | .hmax2Ext x => some (issueOf 0x19 3 (x.toExt 0x19 3) x.len)
  | .hfma2 e => some (issueOf 0x19 4 e e.len)
  | .fdot2 e => some (issueOf 0x19 5 e e.len)
  | .rcpBase b => some (issueOf 0x1E 0 (expandBase 0x1E 0 b none) 4)
  | .rcpExt x => some (issueOf 0x1E 0 (x.toExt 0x1E 0) x.len)
  | .rsqBase b => some (issueOf 0x1E 1 (expandBase 0x1E 1 b none) 4)
  | .rsqExt x => some (issueOf 0x1E 1 (x.toExt 0x1E 1) x.len)
  | .sqrtBase b => some (issueOf 0x1E 2 (expandBase 0x1E 2 b none) 4)
  | .sqrtExt x => some (issueOf 0x1E 2 (x.toExt 0x1E 2) x.len)
  | .ex2Base b => some (issueOf 0x1E 3 (expandBase 0x1E 3 b none) 4)
  | .ex2Ext x => some (issueOf 0x1E 3 (x.toExt 0x1E 3) x.len)
  | .lg2Base b => some (issueOf 0x1E 4 (expandBase 0x1E 4 b none) 4)
  | .lg2Ext x => some (issueOf 0x1E 4 (x.toExt 0x1E 4) x.len)
  | .sinBase b => some (issueOf 0x1E 5 (expandBase 0x1E 5 b none) 4)
  | .sinExt x => some (issueOf 0x1E 5 (x.toExt 0x1E 5) x.len)
  | .cosBase b => some (issueOf 0x1E 6 (expandBase 0x1E 6 b none) 4)
  | .cosExt x => some (issueOf 0x1E 6 (x.toExt 0x1E 6) x.len)
  | .tanhBase b => some (issueOf 0x1E 7 (expandBase 0x1E 7 b none) 4)
  | .tanhExt x => some (issueOf 0x1E 7 (x.toExt 0x1E 7) x.len)
  | .fcvt e => some (issueOf 0x1F 0 e e.len)
  | .f2i e => some (issueOf 0x1F 1 e e.len)
  | .i2f e => some (issueOf 0x1F 2 e e.len)
  | .fpack e => some (issueOf 0x1F 3 e e.len)
  | .ld e => some (issueOf 0x20 0 e e.len)
  | .ldp e => some (issueOf 0x20 1 e e.len)
  | .st e => some (issueOf 0x21 0 e e.len)
  | .mst e => some (issueOf 0x22 0 e e.len)
  | .rst e => some (issueOf 0x22 1 e e.len)
  | .pagereq e => some (issueOf 0x23 0 e e.len)
  | .prefetch e => some (issueOf 0x23 1 e e.len)
  | .atomAdd e => some (issueOf 0x24 0 e e.len)
  | .atomMin e => some (issueOf 0x24 1 e e.len)
  | .atomMax e => some (issueOf 0x24 2 e e.len)
  | .atomAnd e => some (issueOf 0x24 3 e e.len)
  | .atomOr e => some (issueOf 0x24 4 e e.len)
  | .atomXor e => some (issueOf 0x24 5 e e.len)
  | .atomExch e => some (issueOf 0x24 6 e e.len)
  | .cas e => some (issueOf 0x24 7 e e.len)
  | .redAdd e => some (issueOf 0x25 0 e e.len)
  | .redMin e => some (issueOf 0x25 1 e e.len)
  | .redMax e => some (issueOf 0x25 2 e e.len)
  | .redAnd e => some (issueOf 0x25 3 e e.len)
  | .redOr e => some (issueOf 0x25 4 e e.len)
  | .redXor e => some (issueOf 0x25 5 e e.len)
  | .fence e => some (issueOf 0x26 0 e e.len)
  | .cpfence e => some (issueOf 0x26 1 e e.len)
  | .cpy e => some (issueOf 0x27 0 e e.len)
  | .cpyt e => some (issueOf 0x27 1 e e.len)
  | .copyPrewalkDone _ => none
  | .copySectorLand _ _ => none
  | .lease e => some (issueOf 0x27 2 e e.len)
  | .lrel e => some (issueOf 0x27 3 e e.len)
  | .txbinit e => some (issueOf 0x27 4 e e.len)
  | .txbexp e => some (issueOf 0x27 5 e e.len)
  | .txbarr e => some (issueOf 0x27 6 e e.len)
  | .txbwait e => some (issueOf 0x27 7 e e.len)
  | .cinv e => some (issueOf 0x37 0 e e.len)
  | .cwb e => some (issueOf 0x37 1 e e.len)
  | .tlbinv e => some { issueOf 0x37 2 e e.len with priv := true }
  | .tlbinvAll e => some { issueOf 0x37 2 e e.len with priv := true }
  | .mma e => some (issueOf 0x28 0 e e.len)
  | .mmas e => some (issueOf 0x28 1 e e.len)
  | .matrixStep _ _ _ => none
  | .tmma e => some (issueOf 0x28 2 e e.len)
  | .tsqStep _ _ _ => none
  | .mzero e => some (issueOf 0x28 3 e e.len)
  | .mslot e => some { issueOf 0x29 0 e e.len with priv := true }
  | .mstat e => some (issueOf 0x29 1 e e.len)
  | .mxeSlotBoundary => none
  | .futSplit e => some (issueOf 0x2C 0 e e.len)
  | .futEnter e => some (issueOf 0x2C 1 e e.len)
  | .futCommit e => some (issueOf 0x2C 2 e e.len)
  | .futureCommitPoint _ => none
  | .futSquash e => some (issueOf 0x2C 3 e e.len)
  | .futStat e => some (issueOf 0x2C 4 e e.len)
  | .futWaitDone e => some (issueOf 0x2C 5 e e.len)
  | .futWaitFree e => some (issueOf 0x2C 5 e e.len)
  | .squashDrainComplete _ => none
  | .tagReclaimComplete _ => none
  | .flip e => some (issueOf 0x2D 0 e e.len)
  | .ickpt e => some (issueOf 0x2D 1 e e.len)
  | .sinkSlotStart _ => none
  | .trace e => some (issueOf 0x30 0 e e.len)
  | .traceAh e => some (issueOf 0x30 0 e e.len)
  | .rayTraversalEnd _ => none
  | .rayCandidateReady _ => none
  | .rayget e => some (issueOf 0x30 5 e e.len)
  | .hitacc e => some (issueOf 0x30 2 e e.len)
  | .hitrej e => some (issueOf 0x30 3 e e.len)
  | .hitend e => some (issueOf 0x30 4 e e.len)
  | .beam e => some (issueOf 0x30 1 e e.len)
  | .beamComplete _ => none
  | .tex e => some (issueOf 0x31 0 e e.len)
  | .texg e => some (issueOf 0x31 1 e e.len)
  | .texq e => some (issueOf 0x31 2 e e.len)
  | .gatherResultReturn _ => none
  | .atlreq e => some (issueOf 0x32 0 e e.len)
  | .atlmap e => some (issueOf 0x32 1 e e.len)
  | .bldBuild e => some (issueOf 0x34 0 e e.len)
  | .bldRefit e => some (issueOf 0x34 1 e e.len)
  | .bldRebal e => some (issueOf 0x34 2 e e.len)
  | .buildJobComplete _ => none
  | .arenaExtensionService _ _ => none
  | .bldPub e => some (issueOf 0x34 3 e e.len)
  | .bldPin e => some (issueOf 0x34 4 e e.len)
  | .bldUnpin e => some (issueOf 0x34 5 e e.len)
  | .bldGen e => some (issueOf 0x34 6 e e.len)
  | .bldQual e => some (issueOf 0x34 7 e e.len)
  | .generationReclaimComplete _ _ _ => none
  | .sigrd e => some (issueOf 0x36 0 e e.len)
  | .sigchk e => some (issueOf 0x36 1 e e.len)
  | .replComparison _ => none
  | .replCompareTimeout _ => none
  | .intervalBoundary _ => none
  | .intervalCapture _ => none
  | .starvationBreak _ => none
  | .primaryWaveAgeLimit _ => none
  | .gangTier _ => none
  | .gangRecall _ => none
  | .templateInstanceStart _ _ _ => none
  | .queueEntryArrival _ => none
  | .queuePortResend _ _ _ => none
  | .verticalEntryArrival _ _ => none
  | .verticalPortResend _ _ _ => none
  | .queueCloseArrival _ _ _ => none
  | .stageCoreRebalance _ _ => none
  | .barrierTimeout _ _ => none
  | .convergeTimeout _ _ => none
  | .sleepExpire _ => none
  | .repackBudgetExpire _ => none
  | .loadResponse _ => none
  | .registrationRequest _ _ _ => none
  | .registryAck _ _ _ => none
  | .forwardedRequest _ _ _ _ => none
  | .l1Fill _ _ _ _ _ => none
  | .vacFill _ _ => none
  | .pageWalk _ _ _ => none
  | .mmpFaultService _ _ => none
  | .leaseExpire _ _ => none
  | .engineWayTimeout _ => none
  | .cxlMemRead _ _ => none
  | .cxlMemWrite _ _ => none
  | .snpInv _ => none
  | .snpData _ => none
  | .snpCur _ => none
  | .cxlCacheCompletion _ _ _ _ => none
  | .cxlCompletionTimeout _ _ => none
  | .peerWriteAck _ => none
  | .create _ => none
  | .reset _ => none
  | .resetComplete _ => none
  | .suspend _ => none
  | .resume _ _ => none
  | .destroy _ => none
  | .destroyComplete _ => none
  | .partCmdUnknown _ _ => none
  | .partLaunch _ _ => none
  | .requestRecordService _ => none
  | .hostEventPost _ => none
  | .hsvcAns _ _ => none
  | .hostEventTimeout _ _ => none
  | .fpoolWrite _ _ => none
  | .fscContractWrite _ _ _ => none
  | .sinkModeWrite _ _ => none
  | .vltPwrWrite _ _ _ => none
  | .vaultSlabWakeDone _ _ _ => none
  | .dbgCtlWrite _ => none
  | .dbgResume _ => none
  | .debugMemoryRead _ _ _ _ => none
  | .registerWrite _ _ _ => none
  | .fscPeriodStart _ _ => none
  | .fscBudgetExhausted _ _ => none
  | .fscPreempt _ => none
  | .preemptDeadline _ => none
  | .gangRestore _ => none
  | .emergencyImageCopy _ => none
  | .saveDivertTimeout _ => none
  | .thermalSensorSample _ _ => none
  | .migrationMove _ _ => none
  | .coolingLoopLoss _ _ => none
  | .nominalTableReturn => none
  | .perstDeassert _ => none
  | .firmwareReload _ _ => none
  | .ansRollback _ => none
  | .ansTerminate _ => none
  | .ansReset _ => none
  | .ansRelease _ => none
  | .replMismatchTimeout _ => none
  | .bondLaneTest _ _ _ _ _ => none
  | .gddr7Retrain _ _ _ _ => none
  | .hostLinkLoss => none
  | .suspendComplete _ => none
  | .backInvalidationComplete _ => none

end Sys2Proof
end

