-- ==== Sys2Proof/Certificates/Slice0/Obligations.lean ====
section
/-! DEFINITION. The statements for the provers, with the terms that only they use. -/

open Sys2Proof Sys2Proof.Machine

noncomputable section

namespace Sys2Proof

/-- The state that issues next: settled, with the waves of this clock chosen and the one picked noted (R30 to R36). -/
def issuing (s : State) (c : Chosen) : State := s.settle.makePlan.noteIssue c

/-- The state in which a fetched instruction executes: its translations kept, its first word noted for the record of ILLEGAL_OP, and,
where the wave does not stand inside a REP, no repeat in progress. -/
def fetched (s : State) (w0 : Word) (walks : List Nat) : State :=
  let t : State := { s.keepWalks (s.wave.headD Fibre.blank) walks with curWord := w0 }
  if s.wave.all fun g => g.repLive then t else t.updAll t.cur fun g => { g with repLive := false }

end Sys2Proof

/-- Right after reset the device is at READY after bring-up step 6, CLOCK reads 0, every partition is DOWN with PREEMPT_DL 36,000, every vault slab is ON, every future tag is FREE, no fibre, pipeline or group exists, nothing is poisoned, and every byte of every vault reads zero. -/
def Obligations.ResetState : Prop :=
  let s := State.reset
  s.ready = true ∧ s.step = 6 ∧ s.clock = 0 ∧ s.failed = false ∧
  (∀ p < 16, (s.partn p).state = 0 ∧ (s.partn p).preemptDl = 36000 ∧ ∀ c < 128, ∀ k < 4, (s.partn p).slab c k = 0) ∧
  (∀ t < 96, (s.tagRec t).state = 0) ∧ s.fibres = [] ∧ s.pipes = [] ∧ s.groups = [] ∧ s.poisoned = [] ∧
  ∀ core < 128, ∀ o < 2 ^ 20, s.byte (vltKey core o) = 0

/-- Where the device is ready, no event is due, and a wave is picked whose words at the PC decode to an instruction i, the step is exec of i at the state in which that wave has been noted and its words fetched. -/
def Obligations.StepRunsInstruction : Prop :=
  ∀ (s : State) (c : Chosen) (ws : List Word) (w0 : Word) (walks : List Nat) (i : Instr) (rest : List Word),
    s.dueSlot = none → s.ready = true → s.settle.ready = true → s.settle.agenda = [] → s.settle.dueTimer = none → s.settle.makePlan.pick = some c →
    (issuing s c).issueWords ((issuing s c).wave.headD Fibre.blank) ((issuing s c).wave.all fun g => g.repLive) = .ok (ws, w0, walks) →
    decode ws = .ok (i, rest) →
    step s = exec i (fetched (issuing s c) w0 walks)

/-- Where a wave is picked and the words at its PC are no legal instruction, the step takes ILLEGAL_OP: every fibre of the wave is held at the instruction, which has no effect. -/
def Obligations.StepRejectsWords : Prop :=
  ∀ (s : State) (c : Chosen) (ws : List Word) (w0 : Word) (walks : List Nat) (r : Reject),
    s.dueSlot = none → s.ready = true → s.settle.ready = true → s.settle.agenda = [] → s.settle.dueTimer = none → s.settle.makePlan.pick = some c →
    (issuing s c).issueWords ((issuing s c).wave.headD Fibre.blank) ((issuing s c).wave.all fun g => g.repLive) = .ok (ws, w0, walks) →
    decode ws = .error r →
    let t := fetched (issuing s c) w0 walks
    step s = .next (t.trap (t.cur.headD 0) t.cur { cause := 0x0001, detail := w0.toNat } none (some (4 * lenWords w0)))

/-- A slot start of a sink that is due executes before anything else of its clock, then the oldest event of the agenda, and with an empty agenda the first timer that is due, but for the expiry of a watchdog, which comes once the issues of the clock are made; then time passes. Before READY only events and time pass. -/
def Obligations.StepRunsEvents : Prop :=
  ∀ s : State,
    let t := if s.ready then s.settle else s
    let u := if t.ready then t.makePlan else t
    (∀ e r, s.dueSlot = some (e, r) → step s = exec e.toInstr { s with timers := r }) ∧
    (s.dueSlot = none →
      (∀ e r, t.agenda = e :: r → step s = exec e.toInstr { t with agenda := r }) ∧
      (∀ e r, t.agenda = [] → t.dueTimer = some (e, r) → step s = exec e.toInstr { t with timers := r }) ∧
      (t.agenda = [] → t.dueTimer = none → (t.ready = false ∨ u.pick = none) →
        (∀ e r, u.dueExpiry = some (e, r) → step s = exec e.toInstr { u with timers := r }) ∧ (u.dueExpiry = none → step s = .next u.tick)))

/-- For every instruction of the opcode map, in every form: where the shared checks of R170 (ILLEGAL_OP for a register outside its file, PRIV, STALL_SHORT) find a trap, the instruction takes that trap and has no effect; the whole wave is held, whatever its guards, and the lowest active lane names the record. -/
def Obligations.SharedChecks : Prop :=
  ∀ (x : Instr) (i : Issue) (s : State) (t : Trap), x.issue? = some i → s.gate i = .trap t →
    exec x s = .next (s.trap ((s.wave.filter fun f => f.guard i.e).headD (s.wave.headD Fibre.blank)).uid s.cur t none (some i.len))

/-- For every instruction of the opcode map that passes the shared checks with a guard false in every fibre of the wave: the instruction acts on no fibre, every PC of the wave advances by the instruction and the stall count applies. -/
def Obligations.GuardFalse : Prop :=
  ∀ (x : Instr) (i : Issue) (s : State), x.issue? = some i → s.gate i = .go → s.activeSet i = [] →
    exec x s = .next ((s.markIssued i).advanceCur i.len [])

namespace Sys2Proof

/-- A register whose fixed-latency result a fibre has not yet, that the instruction meets, and whose writer stands closer than its latency
(R174 to R176). -/
def meetsShort (s : State) (i : Issue) (f : Fibre) : Bool :=
  s.checks f && (f.meets s.clock i.uses (predsOf i)).any fun x => decide (x.dist < x.lat)

/-- No result is outstanding anywhere in the wave. -/
def nothingPending (s : State) : Prop :=
  (∀ f ∈ s.wave, f.sb = [] ∧ ∀ x ∈ s.pendV, x.1 ≠ f.uid) ∧ (s.group (s.wave.headD Fibre.blank).groupId).pend = []

end Sys2Proof

/-- A register use outside its file in some fibre of the wave gives ILLEGAL_OP with the first word; else a privileged instruction with a fibre outside the supervisor pipeline gives PRIV with MAJOR × 256 + MINOR; else, in CHECK mode, a reader too close to a fixed-latency writer gives STALL_SHORT with the writer's address; an instruction that meets none of these, with no result outstanding, goes on. -/
def Obligations.GateOrder : Prop :=
  ∀ (s : State) (i : Issue),
    ((∃ f ∈ s.wave, usesInFile f.win i.uses = false) → s.gate i = .trap { cause := 0x0001, detail := s.curWord.toNat }) ∧
    ((∀ f ∈ s.wave, usesInFile f.win i.uses = true) → i.priv = true → (∃ f ∈ s.wave, (s.pipeOf f).supervisor = false) →
      s.gate i = .trap { cause := 0x0002, detail := i.major * 256 + i.minor }) ∧
    ((∀ f ∈ s.wave, usesInFile f.win i.uses = true) → (i.priv = true → ∀ f ∈ s.wave, (s.pipeOf f).supervisor = true) →
      (∃ f ∈ s.wave, meetsShort s i f = true) → ∃ a, s.gate i = .trap { cause := 0x000A, detail := a } ∧
        ∃ f ∈ s.wave, ∃ x ∈ f.meets s.clock i.uses (predsOf i), x.dist < x.lat ∧ x.pc.toNat = a) ∧
    ((∀ f ∈ s.wave, usesInFile f.win i.uses = true) → (i.priv = true → ∀ f ∈ s.wave, (s.pipeOf f).supervisor = true) →
      nothingPending s → s.gate i = .go)

/-- The issue alone changes of a fibre of the wave only its clock state (the scoreboard, and the next issue stall + 1 clocks of its core later, each of which is one CLOCK under the nominal table and two with the top loop lost) and, at a comparison point, the signature of its active fibres; of a group only its scoreboard; an instruction that reads a token invalidates the clean words of its core’s L1, which is all that changes there; every other part of the machine and every fibre outside the wave is unchanged. -/
def Obligations.IssueFrame : Prop :=
  ∀ (s : State) (i : Issue),
    s.issuedBy i = { s with fibres := (s.issuedBy i).fibres, groups := (s.issuedBy i).groups, l1 := (s.readTokens i).l1 } ∧
    (s.issuedBy i).groups.map (fun g => { g with pend := [] }) = s.groups.map (fun g => { g with pend := [] }) ∧
    (∀ u ∉ s.cur, s.waveFound → (s.issuedBy i).fibre u = s.fibre u) ∧
    ∀ u ∈ s.cur, s.waveFound →
      ((s.issuedBy i).fibre u).readyAt = s.coreClock (s.coreOf (s.fibre u)) (i.e.stall.toNat + 1) ∧
      (let cool := (nth (0, false, false) s.therm (s.coreOf (s.fibre u))).2.1 = false
       (s.table = 0 → cool → ((s.issuedBy i).fibre u).readyAt = s.clock + i.e.stall.toNat + 1) ∧
       (s.table = 1 → cool → s.clock % 2 = 0 → ((s.issuedBy i).fibre u).readyAt = s.clock + 2 * (i.e.stall.toNat + 1))) ∧
      ((s.issuedBy i).fibre u).lastIssue = s.clock ∧
      { (s.issuedBy i).fibre u with readyAt := 0, lastIssue := 0, sb := [], sig := 0 } =
        { s.fibre u with readyAt := 0, lastIssue := 0, sb := [], sig := 0 } ∧
      ((s.issuedBy i).fibre u).sig = if i.compare ∧ u ∈ s.activeSet i then 0 else (s.fibre u).sig

namespace Sys2Proof

/-- An extended form with every field zero. -/
def ext0 : Ext :=
  { stall := 0, gn := false, gp := 0, mod := 0, d := 0, a := 0, b := 0, dk := false, ak := false, bk := 0, ck := false, c := 0
    ty := .b32, pdv := false, pd := 0, imm := 0, lit := none }

/-- The words of the spec's worked encodings, with the instructions that it says they are. -/
def workedWords : List (List Word × Instr) :=
  [([0x08220289], .iaddBase { stall := 1, gn := false, gp := 1, d := 5, a := 9 }),
   ([0x601C01A0, 0x0A010108, 0x00300040], .ld { ext0 with gn := true, gp := 12, mod := 0x1A0, d := 20, a := 4, b := 8, ak := true, imm := 0x40 }),
   ([0x43001001, 0x00000000, 0x00300000], .gbar { ext0 with mod := 1 }),
   ([0x42021400, 0x0002800C, 0x0034C040], .spawn { ext0 with gp := 2, a := 10, ak := true, bk := 2, pdv := true, pd := 3, imm := 64 }),
   ([0x02000000], .fendBase { stall := 0, gn := false, gp := 0, d := 0, a := 0 }),
   ([0x02004000], .yieldBase { stall := 0, gn := false, gp := 0, d := 0, a := 0 }),
   ([0x0100FFFE], .braBase { stall := 0, gn := false, gp := 0, off := -2 }),
   ([0x88018800, 0x00000003, 0x00000000], .movExt (.baseLit { stall := 0, gn := false, gp := 0, d := 16, a := 0 } 3)),
   ([0x00020F00], .rep { stall := 0, cnt := 1, md := true, ma := true, mb := true, mc := false }),
   ([0x08200410], .iaddBase { stall := 1, gn := false, gp := 0, d := 8, a := 16 }),
   ([0x6C000000, 0x04000014, 0x00300004], .futSplit { ext0 with d := 8, dk := true, bk := 2, imm := 4 }),
   ([0x6C000800, 0x0A830018, 0x00300000], .futCommit { ext0 with d := 21, a := 12, dk := true, ak := true }),
   ([0x70000001, 0x000A0083, 0x02B00000], .traceAh { ext0 with mod := 1, a := 40, b := 4, bk := 1, ck := true, c := 5 }),
   ([0x70001400, 0x18000000, 0x00300000], .rayget { ext0 with d := 48 }),
   ([0x70000800, 0x00000000, 0x00300000], .hitacc ext0),
   ([0x72000000, 0x0F030122, 0x00350000], .atlreq { ext0 with d := 30, a := 12, b := 9, bk := 1, pdv := true, pd := 4 }),
   ([0x74000400, 0x0A018018, 0x00300000], .bldRefit { ext0 with d := 20, a := 6, dk := true, ak := true }),
   ([0x74001400, 0x000180EA, 0x00348000], .bldUnpin { ext0 with a := 6, b := 7, ak := true, bk := 1, pdv := true, pd := 2 }),
   ([0x76000000, 0x0F000010, 0x00380000], .sigrd { ext0 with d := 30, dk := true, ty := .b64 }),
   ([0x76000400, 0x00000000, 0x00354000], .sigchk { ext0 with pdv := true, pd := 5 }),
   ([0x46002000, 0x0500C01C, 0x00300000], .preqSave { ext0 with d := 10, a := 3, dk := true, ak := true, bk := 2 }),
   ([0x46002400, 0x038140DA, 0x00300000], .migrReq { ext0 with d := 7, a := 5, b := 6, dk := true, ak := true, bk := 1 }),
   ([0x68000000, 0x3C120C00, 0x0A100000], .mma { ext0 with d := 120, a := 72, b := 96, c := 20, ty := .bf16 }),
   ([0x55000001, 0x14224010, 0x00700000], .reduce { ext0 with mod := 1, d := 40, dk := true, a := 137, ty := .n32 }),
   ([0x48002C05, 0x00000102, 0x00744000], .isetp { ext0 with mod := 5, b := 8, bk := 1, ty := .n32, pdv := true, pd := 1 }),
   ([0x60000000, 0x08010028, 0x08300000], .ld { ext0 with d := 16, a := 4, b := 1, ak := true, c := 16 })]

end Sys2Proof

/-- Each word sequence that the spec writes out field by field (in the chapters on encoding, flow, futures, rendering, builder, replication, partitions, programs and fault programs) decodes to the instruction it is given for, and the encoder gives the same words back. -/
def Obligations.DecodeWorkedWords : Prop :=
  ∀ x ∈ workedWords, decode x.1 = .ok (x.2, []) ∧ encode x.2 = x.1

/-- For every well-formed instruction, with every operand at every value its encoding admits, and whatever words follow: decoding its encoding gives that instruction and leaves the words that follow. -/
def Obligations.DecodeEncode : Prop :=
  ∀ (x : Instr) (rest : List Word), x.issue?.isSome = true → x.wf = true → decode (encode x ++ rest) = .ok (x, rest)

/-- Whatever the decoder accepts is a well-formed instruction whose encoding is exactly the words read: no bit of a word is ignored, no reserved encoding is taken for a neighbour, and no event has words. -/
def Obligations.EncodeDecode : Prop :=
  ∀ (ws : List Word) (x : Instr) (rest : List Word), decode ws = .ok (x, rest) →
    ws = encode x ++ rest ∧ x.wf = true ∧ x.issue?.isSome = true

/-- Where memory is in canonical form: bytes written read back; every byte outside those written reads as before; and the write keeps the canonical form. After reset memory is in canonical form. That a byte nothing has written reads as zero is the model's choice outside the vaults (notes/assumptions/2.md). -/
def Obligations.MemoryLaws : Prop :=
  Memory.wf State.reset.mem = true ∧
  ∀ (s : State) (k : Nat) (d : List Byte), Memory.wf s.mem = true →
    (s.setBytes k d).bytes k d.length = d ∧ Memory.wf (s.setBytes k d).mem = true ∧
    ∀ a, a < k ∨ k + d.length ≤ a → (s.setBytes k d).byte a = s.byte a

/-- Where a register file is in canonical form: a v-register or s-register written reads back, with zero data where it is written with poison, and every other one reads as before; a pair holds bits 31:0 in its even register; p0 reads 1 and discards writes; another predicate written reads back and no other changes. Writing keeps the canonical form, which every file has at creation. -/
def Obligations.RegisterLaws : Prop :=
  (∀ (f : Fibre) (n : Nat) (x : PWord), mapWf zeroWord f.vregs = true →
    (f.setV n x).v n = (if x.poison then ⟨0, true⟩ else x) ∧ (∀ m, m ≠ n → (f.setV n x).v m = f.v m) ∧ mapWf zeroWord (f.setV n x).vregs = true) ∧
  (∀ (f : Fibre) (n : Nat) (x : DWord), mapWf zeroWord f.vregs = true →
    (f.setPair n ⟨x, false⟩).v n = ⟨x.extractLsb' 0 32, false⟩ ∧ (f.setPair n ⟨x, false⟩).v (n + 1) = ⟨x.extractLsb' 32 32, false⟩ ∧
    (f.setPair n ⟨x, false⟩).vPair n = ⟨x, false⟩ ∧ ∀ m, m ≠ n → m ≠ n + 1 → (f.setPair n ⟨x, false⟩).v m = f.v m) ∧
  (∀ (f : Fibre) (b : Bool), f.pred 0 = true ∧ f.setPred 0 b = f) ∧
  (∀ (f : Fibre) (n : Nat) (b : Bool), 0 < n → n < 16 →
    (f.setPred n b).pred n = b ∧ ∀ m < 16, m ≠ n → (f.setPred n b).pred m = f.pred m) ∧
  (∀ (g : Group) (n : Nat) (x : PDWord), mapWf zeroDWord g.sregs = true →
    (g.setS n x).sreg n = (if x.poison then ⟨0, true⟩ else x) ∧ (∀ m, m ≠ n → (g.setS n x).sreg m = g.sreg m) ∧ mapWf zeroDWord (g.setS n x).sregs = true) ∧
  mapWf zeroWord Fibre.blank.vregs = true ∧ mapWf zeroDWord Group.blank.sregs = true

/-- A precise trap holds each fibre named: its PC, registers, predicates, flags and REPCNT stay as they are, it is WAITING-MEMORY (or PARKED-HIT with a bound ray), and the hold notes the cause, the register SYSCALL names and the length that ERET.SKIP skips. One record with the trap's CAUSE, ADDR, DETAIL and the lead fibre's PC is put into the device log, whose HEAD advances by one, or by two where the write of the partition log meets an uncorrectable error, which a second record names; no group register and no pipeline changes. -/
def Obligations.TakeTrap : Prop :=
  ∀ (s : State) (lead : Nat) (held : List Nat) (t : Trap) (ans len : Option Nat), causeClass t.cause ≠ 0 →
    let s' := s.trap lead held t ans len
    s'.groups = s.groups ∧ s'.pipes = s.pipes ∧ s'.dlogHead = s.dlogHead + (if (s.logError (s.fibre lead).part).isSome then 2 else 1) ∧
    (s.dlogHead, BitVec.ofNat 512 ((s.trapRec (s.fibre lead) t).bits s.clock s.dlogHead)) ∈ s'.dlog ∧
    (∀ u ∈ held, (∃ f ∈ s.fibres, f.uid = u) →
      let f := s.fibre u
      let g := s'.fibre u
      g.pc = f.pc ∧ g.vregs = f.vregs ∧ g.preds = f.preds ∧ g.flags = f.flags ∧ g.repcnt = f.repcnt ∧ g.boundRay = f.boundRay ∧
      g.wait = .held ∧ g.st = (if f.boundRay.isSome then .parkedHit else .waitMemory) ∧
      g.hold = some { cause := t.cause, answer := ans, len := len.map fun l => if f.repLive then 4 + f.repLen else l, debugger := false }) ∧
    ∀ u, u ∉ held → (s'.fibre u).vregs = (s.fibre u).vregs ∧ (s'.fibre u).preds = (s.fibre u).preds ∧ (s'.fibre u).flags = (s.fibre u).flags

/-- A record carries CAUSE in bits 15:0, CLASS in 18:16, PART in 23:20, LCORE in 30:24 with LCV in 31, PCORE in 38:32, TAG in 46:40, PREC in 51, RUNG in 63:56, FIBRE, PIPE, CLOCK, PC, ADDR, DETAIL, DETAIL2 and SEQ in the words above; the MISALIGN of R444's example gives 0x0708_0016_8532_0003 in bits 63:0. -/
def Obligations.TrapRecordLayout : Prop :=
  let r : Rec := { cause := 3, addr := 0x0000040000000004, detail := 8, fid := 0x214, rung := 7, prec := true, pcore := 22, lcore := some 5, part := some 3 }
  (∀ clock, r.bits clock 40 % 2 ^ 64 = 0x0708001685320003) ∧
  (∀ clock, r.bits clock 40 / 2 ^ 64 % 2 ^ 32 = 0x214) ∧ (∀ clock, r.bits clock 40 / 2 ^ 320 % 2 ^ 64 = 8) ∧
  (∀ clock, r.bits clock 40 / 2 ^ 256 % 2 ^ 64 = 0x0000040000000004) ∧ (∀ clock, r.bits clock 40 / 2 ^ 448 % 2 ^ 32 = 40) ∧
  (∀ clock, clock < 2 ^ 64 → r.bits clock 40 / 2 ^ 128 % 2 ^ 64 = clock)

/-- A record of an ordinary pipeline without host assistance wakes every sleeping fibre of the partition's supervisor pipeline, which continues past its SLEEP; with none asleep the wake is held for the next SLEEP of a supervisor fibre, which takes it and continues at once. -/
def Obligations.ErrorWake : Prop :=
  ∀ (s : State) (p pipe seq : Nat) (uid : Option Nat),
    (s.pipe p pipe).supervisor = false → (s.partn p).mode.getLsbD 3 = false → p < s.parts.length →
    let t := s.deliver p pipe seq uid
    (∀ u, (∃ f ∈ s.fibres, f.uid = u) → (s.fibre u).part = p → (s.fibre u).st = .sleeping → (s.pipeOf (s.fibre u)).supervisor = true →
      t.fibre u = { (s.fibre u).advancePc (s.fibre u).ilen with st := .runnable, wait := .none }) ∧
    ((∀ f ∈ s.fibres, ¬ (f.part = p ∧ f.st = .sleeping ∧ (s.pipeOf f).supervisor = true)) →
      (t.partn p).errorWake = true ∧ t.fibres = s.fibres)

namespace Sys2Proof

/-- What an instruction that acts in each active fibre on its own registers does: `ok` says that no poisoned operand stands where its use traps
(R105), `res` is the fibre after it, given the state in which it has issued and the active fibres. -/
structure LaneRow where
  instr : Instr
  major : Nat
  minor : Nat
  e : Ext
  len : Nat
  ok : State → List Nat → Fibre → Bool
  res : State → List Nat → Fibre → Fibre
  once : Bool := false

/-- The issue of a row's instruction; `once` marks one that the leader of a replica set performs for all (R370). -/
def LaneRow.issue (r : LaneRow) : Issue := { issueOf r.major r.minor r.e r.len with once := r.once }

/-- The instruction completes: exec answers a next state, in which every active fibre holds the row's result, the wave has moved on past
the instruction, and nothing else at all has changed. -/
def LaneRow.completes (r : LaneRow) : Prop :=
  ∀ s : State, Issues s r.issue →
    (∀ u ∈ s.activeSet r.issue, r.ok (s.issuedBy r.issue) (s.activeSet r.issue) ((s.issuedBy r.issue).fibre u) = true) →
    ∃ t, exec r.instr s = .next t ∧
      Retires (s.issuedBy r.issue) t (s.activeSet r.issue) r.len (r.res (s.issuedBy r.issue) (s.activeSet r.issue))

/-- A value computed from operands, poisoned where one of them is (R105). -/
def from1 (a : PDWord) (op : DWord → DWord) : PDWord := ⟨op a.val, a.poison⟩
def from2 (a b : PDWord) (op : DWord → DWord → DWord) : PDWord := ⟨op a.val b.val, a.poison || b.poison⟩
def from3 (a b c : PDWord) (op : DWord → DWord → DWord → DWord) : PDWord := ⟨op a.val b.val c.val, a.poison || b.poison || c.poison⟩

/-- A row of an instruction in its extended form. -/
def rowE (instr : Instr) (major minor : Nat) (e : Ext) (res : Ext → State → Fibre → Fibre) : LaneRow :=
  { instr := instr, major := major, minor := minor, e := e, len := e.len, ok := fun _ _ _ => true, res := fun s _ f => res e s f }

/-- The rows of an instruction that has a base word: the base word by its expansion (R156, R158), and its longer forms. -/
def rowsB (base : Base → Instr) (ext : XForm → Instr) (major minor : Nat) (b : Base) (x : XForm) (res : Ext → State → Fibre → Fibre) : List LaneRow :=
  [{ instr := base b, major := major, minor := minor, e := expandBase major minor b none, len := 4, ok := fun _ _ _ => true
     res := fun s _ f => res (expandBase major minor b none) s f },
   { instr := ext x, major := major, minor := minor, e := x.toExt major minor, len := x.len, ok := fun _ _ _ => true
     res := fun s _ f => res (x.toExt major minor) s f }]

/-- D gets a function of the numbers a and b at TYPE's width, through IntResult (R208). -/
def int2 (op : Int → Int → Int) (sat : Bool) (e : Ext) (s : State) (f : Fibre) : Fibre :=
  f.setD e e.ty.wide (from2 (s.srcA f e e.ty.wide) (s.srcB f e e.ty.wide e.ty) fun a b => intResult (op (intOf e.ty a) (intOf e.ty b)) e.ty (sat && e.sat))
/-- D gets a function of the number b. -/
def int1 (op : Int → Int) (sat : Bool) (e : Ext) (s : State) (f : Fibre) : Fibre :=
  f.setD e e.ty.wide (from1 (s.srcB f e e.ty.wide e.ty) fun b => intResult (op (intOf e.ty b)) e.ty (sat && e.sat))
/-- D gets a function of the numbers a, b and c. -/
def int3 (op : Int → Int → Int → Int) (e : Ext) (s : State) (f : Fibre) : Fibre :=
  f.setD e e.ty.wide (from3 (s.srcA f e e.ty.wide) (s.srcB f e e.ty.wide e.ty) (s.srcC f e e.ty.wide) fun a b c =>
    intResult (op (intOf e.ty a) (intOf e.ty b) (intOf e.ty c)) e.ty e.sat)
/-- D gets a function of the bits of a and b at TYPE's width w. -/
def bits2 (op : Nat → Nat → Nat → Nat) (bWide : Bool) (e : Ext) (s : State) (f : Fibre) : Fibre :=
  f.setD e e.ty.wide (from2 (s.srcA f e e.ty.wide) (s.srcB f e (bWide && e.ty.wide) e.ty) fun a b => ofInt e.ty (op e.ty.width a.toNat b.toNat))
/-- D gets a function of the bits of b. -/
def bits1 (op : Nat → Nat → Nat) (e : Ext) (s : State) (f : Fibre) : Fibre :=
  f.setD e e.ty.wide (from1 (s.srcB f e e.ty.wide e.ty) fun b => ofInt e.ty (op e.ty.width b.toNat))
/-- D, one register, gets a count of the bits of b (R151). -/
def count1 (op : Nat → Nat → Nat) (e : Ext) (s : State) (f : Fibre) : Fibre :=
  f.setD e false (from1 (s.srcB f e e.ty.wide e.ty) fun b => BitVec.ofNat 64 (op e.ty.width (b.toNat % 2 ^ e.ty.width)))

/-- Majors 0x08 and 0x09 (R209, R211). -/
def intRows (b : Base) (x : XForm) (e : Ext) : List LaneRow :=
  rowsB .iaddBase .iaddExt 0x08 0 b x (int2 (· + ·) true) ++ rowsB .isubBase .isubExt 0x08 1 b x (int2 (· - ·) true) ++
  rowsB .iminBase .iminExt 0x08 2 b x (int2 (fun a b => if b < a then b else a) true) ++
  rowsB .imaxBase .imaxExt 0x08 3 b x (int2 (fun a b => if a < b then b else a) true) ++
  rowsB .iabsBase .iabsExt 0x08 4 b x (int1 (fun b => (b.natAbs : Int)) true) ++ rowsB .inegBase .inegExt 0x08 5 b x (int1 (fun b => -b) true) ++
  rowsB .movBase .movExt 0x08 6 b x (int1 (fun b => b) false) ++
  [rowE (.movi e) 0x08 7 e fun e s f => f.setD e e.ty.wide (from1 (s.srcB f e e.ty.wide e.ty) fun b => ofInt e.ty (intOf e.ty b + e.xop.toInt * f.lane)),
   rowE (.iadd3 e) 0x08 8 e (int3 fun a b c => a + b + c),
   rowE (.lea e) 0x08 9 e fun e s f =>
     f.setD e true (from2 (s.srcA f e true) (s.srcB f e false e.ty) fun a b => a + BitVec.ofInt 64 (intOf e.ty b * 2 ^ (e.xop.toNat % 8))),
   rowE (.sel e) 0x08 10 e fun e s f =>
     f.setD e e.ty.wide (from1 (if f.pred e.c.toNat then s.srcA f e e.ty.wide else s.srcB f e e.ty.wide e.ty) fun x => ofInt e.ty (intOf e.ty x))] ++
  rowsB .imulBase .imulExt 0x09 0 b x (int2 (· * ·) true) ++
  rowsB .imulhBase .imulhExt 0x09 1 b x (fun e s f =>
    f.setD e e.ty.wide (from2 (s.srcA f e e.ty.wide) (s.srcB f e e.ty.wide e.ty) fun a b => ofInt e.ty ((intOf e.ty a * intOf e.ty b).fdiv (2 ^ e.ty.width)))) ++
  [rowE (.imad e) 0x09 2 e (int3 fun a b c => a * b + c),
   rowE (.imadw e) 0x09 3 e fun e s f =>
     let t : OpType := if e.ty.signed then .s64 else .n64
     f.setD e true (from3 (s.srcA f e false) (s.srcB f e false e.ty) (s.srcC f e true) fun a b c =>
       intResult (intOf e.ty a * intOf e.ty b + intOf t c) t e.sat),
   rowE (.dp4 e) 0x09 4 e fun e s f =>
     let tb : OpType := if e.xop.getLsbD 0 then (if e.ty.signed then .n8 else .s8) else e.ty
     f.setD e false (from3 (s.srcA f e false) (s.srcB f e false e.ty) (s.srcC f e false) fun a b c =>
       intResult (intOf .s32 c + (intOf e.ty a * intOf tb b + intOf e.ty (a >>> 8) * intOf tb (b >>> 8) +
         intOf e.ty (a >>> 16) * intOf tb (b >>> 16) + intOf e.ty (a >>> 24) * intOf tb (b >>> 24))) .s32 e.sat)]

end Sys2Proof

namespace Sys2Proof

/-- Majors 0x0A to 0x0C (R151, R212), on the bits of the operands at TYPE's width w; a count of R151 is written as N32. -/
def bitRows (b : Base) (x : XForm) (e : Ext) : List LaneRow :=
  rowsB .andBase .andExt 0x0A 0 b x (fun e s f => f.setD e e.ty.wide (from2 (s.srcA f e e.ty.wide) (s.srcB f e e.ty.wide e.ty) fun a b => ofInt e.ty (intOf e.ty (a &&& b)))) ++
  rowsB .orBase .orExt 0x0A 1 b x (fun e s f => f.setD e e.ty.wide (from2 (s.srcA f e e.ty.wide) (s.srcB f e e.ty.wide e.ty) fun a b => ofInt e.ty (intOf e.ty (a ||| b)))) ++
  rowsB .xorBase .xorExt 0x0A 2 b x (fun e s f => f.setD e e.ty.wide (from2 (s.srcA f e e.ty.wide) (s.srcB f e e.ty.wide e.ty) fun a b => ofInt e.ty (intOf e.ty (a ^^^ b)))) ++
  rowsB .notBase .notExt 0x0A 3 b x (fun e s f => f.setD e e.ty.wide (from1 (s.srcB f e e.ty.wide e.ty) fun b => ofInt e.ty (intOf e.ty (~~~b)))) ++
  [rowE (.blut e) 0x0A 4 e fun e s f =>
     f.setD e e.ty.wide (from3 (s.srcA f e e.ty.wide) (s.srcB f e e.ty.wide e.ty) (s.srcC f e e.ty.wide) fun a b c =>
       ofInt e.ty (blut e.ty.width (e.imm.toNat % 256) a.toNat b.toNat c.toNat : Nat))] ++
  rowsB .shlBase .shlExt 0x0B 0 b x (bits2 (fun w a b => shlBits w (b % 256) a) false) ++
  rowsB .shrBase .shrExt 0x0B 1 b x (bits2 (fun w a b => shrBits w (b % 256) a) false) ++
  rowsB .sarBase .sarExt 0x0B 2 b x (bits2 (fun w a b => sarBits w (b % 256) a) false) ++
  rowsB .rolBase .rolExt 0x0B 3 b x (bits2 (fun w a b => rolBits w (b % 256) a) false) ++
  [rowE (.fshl e) 0x0B 4 e fun e s f =>
     f.setD e e.ty.wide (from3 (s.srcA f e e.ty.wide) (s.srcB f e e.ty.wide e.ty) (s.srcC f e false) fun a b c =>
       ofInt e.ty (funnel e.ty.width (c.toNat % 256 % e.ty.width) a.toNat b.toNat : Nat))] ++
  rowsB .clzBase .clzExt 0x0C 0 b x (count1 clz) ++ rowsB .ctzBase .ctzExt 0x0C 1 b x (count1 ctz) ++
  rowsB .ffsBase .ffsExt 0x0C 2 b x (count1 ffs) ++ rowsB .popcBase .popcExt 0x0C 3 b x (count1 popc) ++
  rowsB .brevBase .brevExt 0x0C 4 b x (bits1 brev) ++
  [rowE (.bfe e) 0x0C 5 e fun e s f =>
     f.setD e e.ty.wide (from2 (s.srcA f e e.ty.wide) (s.srcB f e false e.ty) fun a b =>
       ofInt e.ty (bitExtract e.ty.width (a.toNat % 2 ^ e.ty.width) (b.toNat % 256) (b.toNat / 256 % 256) e.ty.signed)),
   rowE (.bfi e) 0x0C 6 e fun e s f =>
     f.setD e e.ty.wide (from3 (s.srcA f e e.ty.wide) (s.srcB f e false e.ty) (s.srcC f e e.ty.wide) fun a b c =>
       ofInt e.ty (bitInsert e.ty.width a.toNat b.toNat c.toNat : Nat)),
   rowE (.prmt e) 0x0C 7 e fun e s f =>
     f.setD e false (from3 (s.srcA f e false) (s.srcB f e false e.ty) (s.srcC f e false) fun a b c => ofInt e.ty (permute a.toNat b.toNat c.toNat : Nat))]

end Sys2Proof

namespace Sys2Proof

/-- D gets a float result, whose flags join ARITH_FLAGS; a poisoned operand poisons D and sets no flag (R105, R225). -/
def fl2 (g : Ext → DWord → Nat → Nat → FRes) (e : Ext) (s : State) (f : Fibre) : Fibre :=
  f.setF e ((s.srcA f e false).poison || (s.srcB f e false e.ty).poison) (g e f.ftz (code32 (s.srcA f e false)) (code32 (s.srcB f e false e.ty)))
def fl1 (g : Ext → DWord → Nat → FRes) (e : Ext) (s : State) (f : Fibre) : Fibre :=
  f.setF e (s.srcB f e false e.ty).poison (g e f.ftz (code32 (s.srcB f e false e.ty)))
def fl3 (g : Ext → DWord → Nat → Nat → Nat → FRes) (e : Ext) (s : State) (f : Fibre) : Fibre :=
  f.setF e ((s.srcA f e false).poison || (s.srcB f e false e.ty).poison || (s.srcC f e false).poison)
    (g e f.ftz (code32 (s.srcA f e false)) (code32 (s.srcB f e false e.ty)) (code32 (s.srcC f e false)))

/-- The two elements of packed operands (bits 15:0 and 31:16), each computed on its own (R139, R230). -/
def both2 (g : Nat → Nat → FRes) (a b : Nat) : FRes :=
  ((g (half a 0) (half b 0)).1 % 2 ^ 16 + (g (half a 1) (half b 1)).1 % 2 ^ 16 * 2 ^ 16, (g (half a 0) (half b 0)).2 ||| (g (half a 1) (half b 1)).2)

/-- Major 0x18 but for FSETP (R227 to R229). -/
def singleRows (b : Base) (x : XForm) (e : Ext) : List LaneRow :=
  rowsB .faddBase .faddExt 0x18 0 b x (fl2 fun e ctl a b => fpAdd ctl .f32 e.rnd e.sat a b) ++
  rowsB .fsubBase .fsubExt 0x18 1 b x (fl2 fun e ctl a b => fpSub ctl .f32 e.rnd e.sat a b) ++
  rowsB .fmulBase .fmulExt 0x18 2 b x (fl2 fun e ctl a b => fpMul ctl .f32 e.rnd e.sat a b) ++
  rowsB .fminBase .fminExt 0x18 3 b x (fl2 fun _ ctl a b => fpSelect ctl .f32 false a b) ++
  rowsB .fmaxBase .fmaxExt 0x18 4 b x (fl2 fun _ ctl a b => fpSelect ctl .f32 true a b) ++
  [rowE (.ffma e) 0x18 5 e (fl3 fun e ctl a b c => fpFma ctl .f32 e.rnd e.sat a b c),
   rowE (.fclass e) 0x18 7 e (fl1 fun _ _ b => (fpClass b, 0)), rowE (.frnd e) 0x18 8 e (fl1 fun e ctl b => fpRnd ctl e.rnd b),
   rowE (.fscale e) 0x18 9 e fun e s f =>
     f.setF e ((s.srcA f e false).poison || (s.srcB f e false .s32).poison)
       (fpScale f.ftz e.rnd (code32 (s.srcA f e false)) (intOf .s32 (s.srcB f e false .s32).val))]

/-- Major 0x19: packed elements and FDOT2 (R230). -/
def packedRows (b : Base) (x : XForm) (e : Ext) : List LaneRow :=
  rowsB .hadd2Base .hadd2Ext 0x19 0 b x (fl2 fun e ctl => both2 fun a b => fpAdd ctl e.ty e.rnd e.sat a b) ++
  rowsB .hmul2Base .hmul2Ext 0x19 1 b x (fl2 fun e ctl => both2 fun a b => fpMul ctl e.ty e.rnd e.sat a b) ++
  rowsB .hmin2Base .hmin2Ext 0x19 2 b x (fl2 fun e ctl => both2 fun a b => fpSelect ctl e.ty false a b) ++
  rowsB .hmax2Base .hmax2Ext 0x19 3 b x (fl2 fun e ctl => both2 fun a b => fpSelect ctl e.ty true a b) ++
  [rowE (.hfma2 e) 0x19 4 e (fl3 fun e ctl a b c =>
     ((fpFma ctl e.ty e.rnd e.sat (half a 0) (half b 0) (half c 0)).1 % 2 ^ 16 + (fpFma ctl e.ty e.rnd e.sat (half a 1) (half b 1) (half c 1)).1 % 2 ^ 16 * 2 ^ 16,
      (fpFma ctl e.ty e.rnd e.sat (half a 0) (half b 0) (half c 0)).2 ||| (fpFma ctl e.ty e.rnd e.sat (half a 1) (half b 1) (half c 1)).2)),
   rowE (.fdot2 e) 0x19 5 e (fl3 fun e ctl a b c => fpDot2 ctl e.ty e.rnd e.sat a b c)]

/-- Major 0x1E: the special functions (R231). -/
def specialRows (b : Base) (x : XForm) : List LaneRow :=
  rowsB .rcpBase .rcpExt 0x1E 0 b x (fl1 fun e ctl b => fpSpecial ctl 0 e.rnd b) ++ rowsB .rsqBase .rsqExt 0x1E 1 b x (fl1 fun e ctl b => fpSpecial ctl 1 e.rnd b) ++
  rowsB .sqrtBase .sqrtExt 0x1E 2 b x (fl1 fun e ctl b => fpSpecial ctl 2 e.rnd b) ++ rowsB .ex2Base .ex2Ext 0x1E 3 b x (fl1 fun e ctl b => fpSpecial ctl 3 e.rnd b) ++
  rowsB .lg2Base .lg2Ext 0x1E 4 b x (fl1 fun e ctl b => fpSpecial ctl 4 e.rnd b) ++ rowsB .sinBase .sinExt 0x1E 5 b x (fl1 fun e ctl b => fpSpecial ctl 5 e.rnd b) ++
  rowsB .cosBase .cosExt 0x1E 6 b x (fl1 fun e ctl b => fpSpecial ctl 6 e.rnd b) ++ rowsB .tanhBase .tanhExt 0x1E 7 b x (fl1 fun e ctl b => fpSpecial ctl 7 e.rnd b)

/-- Major 0x1F: conversions (R232 to R236). -/
def convertRows (e : Ext) : List LaneRow :=
  [rowE (.fcvt e) 0x1F 0 e (fl1 fun e ctl b => fpConvert ctl e.ty (floatType (e.xop.toNat % 8)) e.rnd e.sat (element e.ty b (e.xop.toNat / 8 % 8))),
   rowE (.f2i e) 0x1F 1 e fun e s f =>
     let ts := floatType (e.xop.toNat % 4)
     let b := s.srcB f e false ts
     let r := fpToInt f.ftz ts (minOf e.ty) (maxOf e.ty) e.rnd (element ts (code32 b) (e.xop.toNat / 4 % 2))
     { f.setD e e.ty.wide ⟨ofInt e.ty r.1, b.poison⟩ with flags := if b.poison then f.flags else f.flags ||| r.2 },
   rowE (.i2f e) 0x1F 2 e fun e s f =>
     f.setF e (s.srcB f e e.ty.wide e.ty).poison (fpOfInt f.ftz (floatType (e.xop.toNat % 8)) e.rnd e.sat (intOf e.ty (s.srcB f e e.ty.wide e.ty).val)),
   rowE (.fpack e) 0x1F 3 e fun e s f =>
     let td := floatType (e.xop.toNat % 8)
     let a := s.srcA f e false
     let b := s.srcB f e false .f32
     let x := fpConvert f.ftz .f32 td e.rnd e.sat (code32 a)
     let y := fpConvert f.ftz .f32 td e.rnd e.sat (code32 b)
     { f.setV e.d.toNat ⟨BitVec.ofNat 32 (packPair td (f.v e.d.toNat).val.toNat (e.xop.toNat / 8 % 8) x.1 y.1), a.poison || b.poison || (f.v e.d.toNat).poison⟩ with
       flags := f.flags ||| ((if a.poison then 0 else x.2) ||| (if b.poison then 0 else y.2)) }]

end Sys2Proof

namespace Sys2Proof

/-- No register that these uses read is poisoned. -/
def clean (us : List RegUse) (s : State) (f : Fibre) : Bool := (s.poisonUse f us).isNone

/-- Instructions that write a predicate, or that read other lanes (R210, R217 to R223, R228). The lanes of an inactive fibre take no part. -/
def laneRows (e : Ext) : List LaneRow :=
  [{ instr := .isetp e, major := 0x08, minor := 11, e := e, len := e.len, ok := fun s _ f => clean (usesOf 0x08 11 e) s f
     res := fun s _ f => f.setPred e.pd.toNat
       (intCond (e.xop.toNat % 8) (intOf e.ty (s.srcA f e e.ty.wide).val) (intOf e.ty (s.srcB f e e.ty.wide e.ty).val)) },
   { instr := .fsetp e, major := 0x18, minor := 6, e := e, len := e.len, ok := fun s _ f => clean (usesOf 0x18 6 e) s f
     res := fun s _ f =>
       let r := fpCompare f.ftz (e.xop.toNat % 16) (code32 (s.srcA f e false)) (code32 (s.srcB f e false .f32))
       { f.setPred e.pd.toNat r.1 with flags := f.flags ||| r.2 } },
   { instr := .shfl e, major := 0x14, minor := 0, e := e, len := e.len, ok := fun s _ f => (s.poisonB f e).isNone
     res := fun s us f =>
       let src := (shflLane (e.xop.toNat % 4) f.lane (s.countB f e)).bind fun m => if m ≤ 63 then s.onLane us m else none
       (f.setD e e.ty.wide ((src.getD f).vSrc e.a.toNat e.ty.wide)).setPd e src.isSome },
   { instr := .matchLanes e, major := 0x14, minor := 3, e := e, len := e.len
     ok := fun s _ f => !e.pdv || !(f.vSrc e.a.toNat e.ty.wide).poison
     res := fun s us f =>
       let m := s.laneMask us fun g => (g.vSrc e.a.toNat e.ty.wide).val == (f.vSrc e.a.toNat e.ty.wide).val
       (f.setPair e.d.toNat ⟨m, us.any fun u => ((s.fibre u).vSrc e.a.toNat e.ty.wide).poison⟩).setPd e (m == s.laneMask us fun _ => true) },
   { instr := .scan e, major := 0x15, minor := 1, e := e, len := e.len, ok := fun _ _ _ => true
     res := fun s us f =>
       let n := if e.xop.getLsbD 3 then f.lane else f.lane + 1
       f.setD e e.ty.wide ⟨BitVec.ofNat 64 (packElems e.ty fun i =>
           prefixFrom (redCombine e.ty (e.xop.toNat % 8)) (s.laneValue us e i) n (redIdentity e.ty (e.xop.toNat % 8)) 7),
         us.any fun u => decide ((s.fibre u).lane < n) && ((s.fibre u).vSrc e.a.toNat e.ty.wide).poison⟩ },
   { instr := .yieldp e, major := 2, minor := 2, e := e, len := e.len, once := true, ok := fun _ _ _ => true
     res := fun s _ f => f.setPred e.pd.toNat ((s.partn f.part).preqs.any fun q => q.pipes.contains f.pipe) }]

end Sys2Proof

/-- IADD, ISUB, IMIN, IMAX, IABS, INEG, MOV, MOVI, IADD3, LEA, SEL, IMUL, IMULH, IMAD, IMADW and DP4, in every form, complete with D holding IntResult of their exact result (LEA modulo 2^64), poisoned where an operand (for SEL, the selected one) is poisoned; every other register, predicate and flag, every group, special register, queue and byte of memory is unchanged. -/
def Obligations.IntegerResults : Prop :=
  ∀ (b : Base) (x : XForm) (e : Ext), ∀ r ∈ intRows b x e, r.completes

/-- AND, OR, XOR, NOT, BLUT, SHL, SHR, SAR, ROL, FSHL, CLZ, CTZ, FFS, POPC, BREV, BFE, BFI and PRMT, in every form, complete with D holding their result at the width of TYPE, poisoned where an operand is poisoned; nothing else changes. -/
def Obligations.BitResults : Prop :=
  ∀ (b : Base) (x : XForm) (e : Ext), ∀ r ∈ bitRows b x e, r.completes

/-- At width w: SHL moves bit i − n to bit i and is zero for n of w or more; SHR moves bit i + n down with zeros filled; SAR fills with bit w − 1; ROL moves bit (i − n) mod w to bit i; BREV moves bit w − 1 − i to bit i; BLUT looks up a_i + 2b_i + 4c_i; POPC counts the set bits; CLZ and CTZ are w exactly for zero, and otherwise the set bit they stop at is the highest or the lowest one. -/
def Obligations.BitFunctions : Prop :=
  ∀ (w n x i : Nat), 0 < w → i < w →
    (shlBits w n x).testBit i = (decide (n ≤ i) && x.testBit (i - n)) ∧
    (shrBits w n x).testBit i = (decide (i + n < w) && x.testBit (i + n)) ∧
    (sarBits w n x).testBit i = (if i + n < w then x.testBit (i + n) else x.testBit (w - 1)) ∧
    (rolBits w n x).testBit i = x.testBit ((i + (w - n % w)) % w) ∧
    (brev w x).testBit i = x.testBit (w - 1 - i) ∧
    (∀ lut a b c, (blut w lut a b c).testBit i = lut.testBit ((a.testBit i).toNat + 2 * (b.testBit i).toNat + 4 * (c.testBit i).toNat)) ∧
    popc w x = ((List.range w).filter fun j => x.testBit j).length ∧
    (clz w x = i → x.testBit (w - 1 - i) = true ∧ ∀ j, w - 1 - i < j → j < w → x.testBit j = false) ∧
    (ctz w x = i → x.testBit i = true ∧ ∀ j < i, x.testBit j = false) ∧
    (x % 2 ^ w = 0 → clz w x = w ∧ ctz w x = w ∧ ffs w x = 0)

/-- FADD, FSUB, FMUL, FMIN, FMAX, FFMA, FCLASS, FRND, FSCALE, HADD2, HMUL2, HMIN2, HMAX2, HFMA2, FDOT2, RCP, RSQ, SQRT, EX2, LG2, SIN, COS, TANH, FCVT, F2I, I2F and FPACK, in every form, complete with D holding the result of their operation under the fibre's FTZ_CTL and its exceptions joined to ARITH_FLAGS; a poisoned operand poisons D and sets no flag; nothing else changes. -/
def Obligations.FloatResults : Prop :=
  ∀ (b : Base) (x : XForm) (e : Ext), ∀ r ∈ singleRows b x e ++ packedRows b x e ++ specialRows b x ++ convertRows e, r.completes

/-- ISETP, FSETP, SHFL, MATCH, SCAN and YIELDP complete, where no poisoned value stands where its use traps, with their predicate or register result in every active fibre, computed from the active lanes alone; nothing else changes. -/
def Obligations.LaneResults : Prop :=
  ∀ (e : Ext), ∀ r ∈ laneRows e, r.completes

namespace Sys2Proof

/-- What an instruction that writes one s-register of the wave's group does (R36, R213): `ok` says that no poisoned operand stands where its
use traps, `fib` is what becomes of each active fibre, `val` is the value of s(D), read by the lowest active fibre. -/
structure ScalarRow where
  instr : Instr
  major : Nat
  minor : Nat
  e : Ext
  len : Nat
  val : State → List Nat → Fibre → PDWord
  ok : State → Fibre → Bool := fun _ _ => true
  fib : State → List Nat → Fibre → Fibre := fun _ _ f => f

/-- The issue of a row's instruction. -/
def ScalarRow.issue (r : ScalarRow) : Issue := issueOf r.major r.minor r.e r.len

/-- The instruction completes: exec answers a next state, in which s(D) of the wave's group holds the row's value, the active fibres what the
row says, the wave has moved on past the instruction, and nothing else at all has changed. -/
def ScalarRow.completes (r : ScalarRow) : Prop :=
  ∀ s : State, Issues s r.issue →
    let s1 := s.issuedBy r.issue
    let us := s.activeSet r.issue
    let f := s1.fibre (us.headD 0)
    (s1.group? f.groupId).isSome → r.ok s1 f = true →
      ∃ t, exec r.instr s = .next t ∧ RetiresS s1 t us r.len (r.fib s1 us) f.groupId r.e.d.toNat (r.val s1 us f)

/-- The rows of a scalar instruction that has a base word. -/
def scalarB (base : Base → Instr) (ext : XForm → Instr) (major minor : Nat) (b : Base) (x : XForm) (val : Ext → State → Fibre → PDWord) : List ScalarRow :=
  [{ instr := base b, major := major, minor := minor, e := expandBase major minor b none, len := 4
     val := fun s _ f => val (expandBase major minor b none) s f },
   { instr := ext x, major := major, minor := minor, e := x.toExt major minor, len := x.len, val := fun s _ f => val (x.toExt major minor) s f }]

/-- s(A) op b as numbers at TYPE, through IntResult (R208, R213). -/
def snum2 (op : Int → Int → Int) (e : Ext) (s : State) (f : Fibre) : PDWord :=
  from2 (s.srcA f e true) (s.srcB f e true .b64) fun a b => intResult (op (intOf e.ty a) (intOf e.ty b)) e.ty e.sat
/-- s(A) op b as 64 bits. -/
def sbits2 (op : DWord → DWord → DWord) (e : Ext) (s : State) (f : Fibre) : PDWord := from2 (s.srcA f e true) (s.srcB f e true .b64) op
/-- s(A) shifted by b modulo 256, at TYPE's width. -/
def sshift2 (op : Nat → Nat → Nat → Nat) (e : Ext) (s : State) (f : Fibre) : PDWord :=
  from2 (s.srcA f e true) (s.srcB f e true .b64) fun a b => ofInt e.ty (op e.ty.width (b.toNat % 256) a.toNat : Nat)

/-- Majors 0x10 and 0x11 but for SSETP (R213, R214), and the lane instructions that write an s-register (R219, R221, R222). -/
def scalarRows (b : Base) (x : XForm) (e : Ext) : List ScalarRow :=
  scalarB .saddBase .saddExt 0x10 0 b x (snum2 (· + ·)) ++ scalarB .ssubBase .ssubExt 0x10 1 b x (snum2 (· - ·)) ++
  scalarB .smulBase .smulExt 0x10 2 b x (snum2 (· * ·)) ++ scalarB .sminBase .sminExt 0x10 3 b x (snum2 fun a b => if b < a then b else a) ++
  scalarB .smaxBase .smaxExt 0x10 4 b x (snum2 fun a b => if a < b then b else a) ++
  scalarB .smovBase .smovExt 0x10 5 b x (fun e s f => s.srcB f e true .b64) ++
  [{ instr := .smad e, major := 0x10, minor := 6, e := e, len := e.len
     val := fun s _ f => from3 (s.srcA f e true) (s.srcB f e true .b64) (s.srcC f e true) fun a b c =>
       intResult (intOf e.ty a * intOf e.ty b + intOf e.ty c) e.ty e.sat },
   { instr := .smovi e, major := 0x10, minor := 7, e := e, len := e.len
     val := fun s _ f => from2 (s.srcD f e true) (s.srcB f e true .b64) fun d b => b.extractLsb' 0 32 ++ d.extractLsb' 0 32 },
   { instr := .ssel e, major := 0x10, minor := 9, e := e, len := e.len
     val := fun s _ f => if f.pred e.c.toNat then s.srcA f e true else s.srcB f e true .b64 },
   { instr := .slea e, major := 0x10, minor := 10, e := e, len := e.len
     val := fun s _ f => sbits2 (fun a b => a + b * BitVec.ofNat 64 (2 ^ (e.xop.toNat % 8))) e s f }] ++
  scalarB .sandBase .sandExt 0x11 0 b x (sbits2 (· &&& ·)) ++ scalarB .sorBase .sorExt 0x11 1 b x (sbits2 (· ||| ·)) ++
  scalarB .sxorBase .sxorExt 0x11 2 b x (sbits2 (· ^^^ ·)) ++ scalarB .sshlBase .sshlExt 0x11 3 b x (sshift2 shlBits) ++
  scalarB .sshrBase .sshrExt 0x11 4 b x (sshift2 shrBits) ++ scalarB .ssarBase .ssarExt 0x11 5 b x (sshift2 sarBits)

/-- The lane that RDLANE and WRLANE name, 0 to 63, among the fibres of a list (R221). -/
def namedLane (s : State) (f : Fibre) (us : List Nat) (e : Ext) : Option Fibre :=
  let n := (s.srcB f e true .b64).val.toNat
  if n ≤ 63 then s.onLane us n else none

/-- RDLANE and REDUCE (R221, R222). -/
def laneScalarRows (e : Ext) : List ScalarRow :=
  [{ instr := .rdlane e, major := 0x14, minor := 4, e := e, len := e.len, ok := fun s f => (s.poisonB f e).isNone
     val := fun s _ f => match namedLane s f s.cur e with
       | some g => g.vSrc e.a.toNat e.ty.wide
       | none => ⟨0, false⟩
     fib := fun s us f => f.setPd e (namedLane s (s.fibre (us.headD 0)) s.cur e).isSome },
   { instr := .reduce e, major := 0x15, minor := 0, e := e, len := e.len
     val := fun s us _ =>
       let r := packElems e.ty fun i => treeNode (redCombine e.ty (e.xop.toNat % 8)) (s.laneValue us e i) 6 0
       ⟨if e.ty = .s32 then ofInt .s32 r else BitVec.ofNat 64 r, us.any fun u => ((s.fibre u).vSrc e.a.toNat e.ty.wide).poison⟩ }]

/-- SSETP and WRLANE: one value, written into fibres of the wave (R213, R221). -/
def onceRows (e : Ext) : List LaneRow :=
  [{ instr := .ssetp e, major := 0x10, minor := 8, e := e, len := e.len, ok := fun s us _ => clean (usesOf 0x10 8 e) s (s.fibre (us.headD 0))
     res := fun s us f =>
       let l := s.fibre (us.headD 0)
       f.setPred e.pd.toNat (intCond (e.xop.toNat % 8) (intOf e.ty (s.srcA l e true).val) (intOf e.ty (s.srcB l e true .b64).val)) },
   { instr := .wrlane e, major := 0x14, minor := 5, e := e, len := e.len, ok := fun s us _ => (s.poisonB (s.fibre (us.headD 0)) e).isNone
     res := fun s us f =>
       let l := s.fibre (us.headD 0)
       if (namedLane s l us e).map (fun g => g.uid) = some f.uid then f.setD e e.ty.wide (s.srcA l e true) else f }]

/-- VOTE, and BALLOT into a pair (R219). -/
def voteRows (e : Ext) : List LaneRow :=
  [{ instr := .vote e, major := 0x14, minor := 1, e := e, len := e.len, ok := fun _ _ _ => true
     res := fun s us f =>
       let vs := us.map fun u => (s.fibre u).pred e.c.toNat
       f.setPred e.pd.toNat (match e.xop.toNat % 4 with
         | 0 => vs.all id
         | 1 => vs.any id
         | _ => vs.all id || !vs.any id) }] ++
  (if e.dk then [] else
    [{ instr := .ballot e, major := 0x14, minor := 2, e := e, len := e.len, ok := fun _ _ _ => true
       res := fun s us f => f.setPair e.d.toNat ⟨s.laneMask us fun g => g.pred e.c.toNat, false⟩ }])

/-- BALLOT into an s-register (R219). -/
def ballotRow (e : Ext) : ScalarRow :=
  { instr := .ballot e, major := 0x14, minor := 2, e := e, len := e.len, val := fun s us _ => ⟨s.laneMask us fun g => g.pred e.c.toNat, false⟩ }

end Sys2Proof

/-- SADD, SSUB, SMUL, SMIN, SMAX, SMOV, SMAD, SMOVI, SSEL, SLEA, SAND, SOR, SXOR, SSHL, SSHR and SSAR, in every form, complete once for the wave: s(D) of the wave's group holds their result as the lowest active fibre reads the operands, poisoned where an operand is; every other s-register, every fibre but for its PC, and everything else is unchanged. -/
def Obligations.ScalarResults : Prop :=
  ∀ (b : Base) (x : XForm) (e : Ext), ∀ r ∈ scalarRows b x e, r.completes

/-- RDLANE, WRLANE, REDUCE and SSETP complete: RDLANE gives the value of a lane of the wave whatever its guard (0 and a false predicate where there is none), WRLANE writes that lane alone if it is active, REDUCE gives the tree of Combine over 64 lanes with the identity for inactive ones, SSETP writes one predicate to every active fibre; nothing else changes. -/
def Obligations.LaneScalarResults : Prop :=
  ∀ e : Ext, (∀ r ∈ laneScalarRows e, r.completes) ∧ ∀ r ∈ onceRows e, r.completes

/-- VOTE completes with pD in every active fibre: under .ALL 1 when pC is 1 in every active fibre, under .ANY when in at least one, under .UNI when pC is equal in all. BALLOT completes with the mask whose bit L is 1 when lane L is active and its pC is 1: once for the wave in s(D) with DK = 1, in the pair of every active fibre with DK = 0. -/
def Obligations.VoteBallot : Prop :=
  ∀ e : Ext, (∀ r ∈ voteRows e, r.completes) ∧ (e.dk = true → (ballotRow e).completes) ∧
    ∀ (s : State) (us : List Nat), ∀ L < 64,
      (s.laneMask us fun g => g.pred e.c.toNat).getLsbD L = us.any fun u => (s.fibre u).lane == L && (s.fibre u).pred e.c.toNat

namespace Sys2Proof

/-- What an instruction does as a whole: `pre` are the conditions on the state and the operands, and `post` is the state after its effect, with
the fibres whose PC the effect has dealt with; both are given the state in which it has issued and the active fibres. -/
structure OpRow where
  instr : Instr
  issue : Issue
  post : State → List Nat → State × List Nat
  pre : State → List Nat → Prop := fun _ _ => True

/-- The instruction completes: where its conditions hold, exec answers exactly that next state, the rest of the wave having moved on past it. -/
def OpRow.completes (r : OpRow) : Prop :=
  ∀ s : State, Issues s r.issue → r.pre (s.issuedBy r.issue) (s.activeSet r.issue) →
    exec r.instr s = .next ((r.post (s.issuedBy r.issue) (s.activeSet r.issue)).1.advanceCur r.issue.len (r.post (s.issuedBy r.issue) (s.activeSet r.issue)).2)

/-- An instruction that goes nowhere else but to a target. -/
def branchRow (instr : Instr) (issue : Issue) (target : Fibre → DWord) : OpRow :=
  { instr := instr, issue := issue, post := fun s us => (s.updAll us fun f => f.jump (target f), us) }
/-- A call: the address of the next instruction goes to a pair, and the fibre to the target. -/
def callRow (instr : Instr) (issue : Issue) (d : Nat) (target : Fibre → DWord) : OpRow :=
  { instr := instr, issue := issue, post := fun s us => (s.updAll us fun f => (f.setPair d ⟨f.pc + BitVec.ofNat 64 issue.len, false⟩).jump (target f), us) }
/-- The register target of BRX, CALLX and RET can be taken: no poison, and a multiple of 4. -/
def targetGood (s : State) (us : List Nat) (e : Ext) (uses : List RegUse) : Prop :=
  ∀ u ∈ us, s.poisonUse (s.fibre u) uses = none ∧ (s.srcA (s.fibre u) e true).val.toNat % 4 = 0

/-- NOP, BRA, CALL, BRX, CALLX and RET (R157, R166, R185, R186). -/
def flowRows (n : BitVec 3) (b : BaseBranch) (lit : DWord) (e : Ext) : List OpRow :=
  [{ instr := .nop n, issue := issueOf 0 0 (plainExt n) 4, post := fun s _ => (s, []) },
   branchRow (.braBase b) (branchIssue 0 b 4) (fun f => f.pc + 4 * b.off.signExtend 64),
   branchRow (.braExt (.ext e)) (issueOf 1 0 e e.len) (fun f => e.lit.getD (f.pc + 4 * e.imm.signExtend 64)),
   branchRow (.braExt (.baseLit b lit)) (branchIssue 0 b 12) (fun _ => lit),
   callRow (.callBase b) (callIssue b 4) 14 (fun f => f.pc + 4 * b.off.signExtend 64),
   callRow (.callExt (.ext e)) (issueOf 1 1 e e.len) e.d.toNat (fun f => e.lit.getD (f.pc + 4 * e.imm.signExtend 64)),
   callRow (.callExt (.baseLit b lit)) (callIssue b 12) 14 (fun _ => lit),
   { instr := .brx e, issue := issueOf 1 2 e e.len, pre := fun s us => targetGood s us e (usesOf 1 2 e)
     post := fun s us => (s.updAll us fun f => f.jump (s.srcA f e true).val, us) },
   { instr := .callx e, issue := issueOf 1 3 e e.len, pre := fun s us => targetGood s us e (slotUse (.vs .pair 1) e.ak e.a true false e)
     post := fun s us => (s.updAll us fun f => (f.setPair e.d.toNat ⟨f.pc + BitVec.ofNat 64 e.len, false⟩).jump (s.srcA f e true).val, us) },
   { instr := .ret e, issue := issueOf 1 4 e e.len, pre := fun s us => targetGood s us e (usesOf 1 4 e)
     post := fun s us => (s.updAll us fun f => f.jump (s.srcA f e true).val, us) }]

end Sys2Proof

/-- NOP, BRA, CALL, BRX, CALLX and RET, in every form, complete: NOP changes nothing; every active fibre of a branch goes to its target (PC + 4 × the signed offset, the literal, or the register), inactive ones to the next instruction; a call writes PC + the instruction's length to its pair (v14:v15 for a base word). Nothing else changes. -/
def Obligations.FlowResults : Prop :=
  ∀ (n : BitVec 3) (b : BaseBranch) (lit : DWord) (e : Ext), ∀ r ∈ flowRows n b lit e, r.completes

/-- When a wave moves past an instruction, each of its fibres but those that the effect has dealt with gets the PC of the next instruction; within a REP it gets the next repeat instead, and past the last repeat the PC after the REP and its instruction. No other fibre and nothing else changes. -/
def Obligations.WaveAdvance : Prop :=
  ∀ (s : State) (len : Nat) (stay : List Nat), s.waveFound →
    s.advanceCur len stay = { s with fibres := (s.advanceCur len stay).fibres } ∧
    (∀ u, u ∉ s.cur ∨ u ∈ stay → (s.advanceCur len stay).fibre u = s.fibre u) ∧
    ∀ u ∈ s.cur, u ∉ stay →
      ((s.fibre u).repLive = false → (s.advanceCur len stay).fibre u =
        { s.fibre u with agreed := false, served := false, pageFail := none, pc := (s.fibre u).pc + BitVec.ofNat 64 len }) ∧
      ((s.fibre u).repLive = true → 1 < (s.fibre u).repcnt → (s.advanceCur len stay).fibre u =
        { s.fibre u with agreed := false, served := false, pageFail := none, repcnt := (s.fibre u).repcnt - 1 }) ∧
      ((s.fibre u).repLive = true → (s.fibre u).repcnt ≤ 1 → (s.advanceCur len stay).fibre u =
        { s.fibre u with agreed := false, served := false, pageFail := none, repcnt := 0, repLive := false
                         pc := (s.fibre u).pc + BitVec.ofNat 64 (4 + (s.fibre u).repLen) })

namespace Sys2Proof

/-- Every earlier store and atomic of the active fibres has been acknowledged, as a release at the scope asks (R80, R110). -/
def acked (scope : Nat) (s : State) (us : List Nat) : Prop := ∀ u ∈ us, (s.fibre u).releaseReady scope = true
/-- The release of the active fibres' cores (R80). -/
def released (s : State) (us : List Nat) : State := us.foldl (fun s u => s.release (s.fibre u)) s
/-- No active fibre reads a poisoned register among these (R105). -/
def noPoison (uses : List RegUse) (s : State) (us : List Nat) : Prop := ∀ u ∈ us, s.poisonUse (s.fibre u) uses = none
/-- The tag of no active fibre is COMMITTING (R126). -/
def notCommit (s : State) (us : List Nat) : Prop := ∀ u ∈ us, (s.fibre u).tag = 0 ∨ (s.tagRec (s.fibre u).tag).state ≠ 2

/-- Every active fibre changed by a function of the state before (R36, R217). -/
def eachDo (h : State → Fibre → Fibre) (s : State) (us : List Nat) : State := us.foldl (fun t u => t.updFibre u fun _ => h s (s.fibre u)) s

/-- FEND, YIELD, SLEEP, WAKE, SPAWN and REPACK (R188 to R192). -/
def fibreRows (b : Base) (e : Ext) : List OpRow :=
  let ends (s : State) (us : List Nat) : State × List Nat := (us.foldl (fun s u => s.endFibre u false) s, us)
  let saves (s : State) (us : List Nat) : State × List Nat :=
    ((us.filter fun u => s.saveRequested (s.fibre u)).foldl (fun s u => s.updFibre u fun f => { f with saved := true, repLive := false, sb := [] }) s, [])
  let srcs := slotUse (.vs .pair 1) e.ak e.a true false e ++ bSlotUse (.src [0, 1, 2] .one 1 false true) e
  [{ instr := .fendBase b, issue := { issueOf 2 0 (expandBase 2 0 b none) 4 with compare := true }, post := ends },
   { instr := .fendExt e, issue := { issueOf 2 0 e e.len with compare := true }, post := ends },
   { instr := .yieldBase b, issue := issueOf 2 1 (expandBase 2 1 b none) 4, post := saves },
   { instr := .yieldExt e, issue := issueOf 2 1 e e.len, post := saves },
   { instr := .sleep e, issue := issueOf 2 3 e e.len, post := fun s us => inOrder (fun s u => s.sleepOne e u) s [] us },
   { instr := .wake e, issue := { issueOf 2 4 e e.len with compare := true, once := true }, pre := fun s us => noPoison (usesOf 2 4 e) s us ∧ acked 4 s us
     post := fun s us => inOrder (fun s u => (s.wakeOne e u, false)) (released s us) [] us },
   { instr := .spawn e, issue := { issueOf 2 5 e e.len with once := true, take := takeSpawn }
     pre := fun s us => noPoison srcs s us ∧ (∀ u ∈ us, (s.srcA (s.fibre u) e true).val.toNat % 4 = 0) ∧ acked 4 s us
     post := fun s us => inOrder (fun s u => (s.spawnOne e u, false)) (released s us) [] us },
   { instr := .repack e, issue := issueOf 2 6 e e.len, pre := noPoison [⟨false, e.a.toNat, 1, true, false⟩]
     post := fun s us => ((s.repackArrive e us).settleCollects, us) }]

/-- GNEW, GJOIN, GLEAVE, GFREE, GBAR, GARRIVE, GWAIT, CVSET, CVSIGN and CVWAIT (R193 to R196). -/
def groupRows (e : Ext) : List OpRow :=
  [{ instr := .gnew e, issue := { issueOf 3 0 e e.len with once := true }
     post := fun s us =>
       let f := s.fibre (us.headD 0)
       match s.newGroup (s.pipeOf f) (f.lcore / 4) (e.mod.getLsbD 0) (s.group f.groupId).copyRight f.uid with
       | some (h, s) => ((s.setS f.groupId e.d.toNat ⟨BitVec.ofNat 64 h, false⟩).setPredAll us e.pd.toNat true, [])
       | none => ((s.setS f.groupId e.d.toNat ⟨0, false⟩).setPredAll us e.pd.toNat false, []) },
   { instr := .gjoin e, issue := { issueOf 3 1 e e.len with once := true, take := takeJoin }, pre := noPoison (usesOf 3 1 e)
     post := fun s us => inOrder (fun s u => (s.joinOne e u (s.srcA (s.fibre u) e true).val, false)) s [] us },
   { instr := .gleave e, issue := { issueOf 3 2 e e.len with once := true, take := takeJoin }
     pre := fun s us => ∀ u ∈ us, (s.fibre u).cur ≠ (s.fibre u).home
     post := fun s us => inOrder (fun s u => (s.joinOne e u (BitVec.ofNat 64 (s.fibre u).home), false)) s [] us },
   { instr := .gfree e, issue := { issueOf 3 3 e e.len with once := true }, pre := noPoison (usesOf 3 3 e)
     post := fun s us =>
       let f := s.fibre (us.headD 0)
       match s.namedGroup f (s.srcA f e true).val with
       | some g => if g.members.isEmpty && g.lost.isEmpty then ((s.dissolveAll (s.pipeOf f) g.handle).setPredAll us e.pd.toNat true, [])
                   else (s.setPredAll us e.pd.toNat false, [])
       | none => (s.setPredAll us e.pd.toNat false, []) },
   { instr := .gbar e, issue := { issueOf 3 4 e e.len with compare := true }, pre := acked 1
     post := fun s us => inOrder (fun s u => s.arriveOne e true u) (released s us) [] us },
   { instr := .garrive e, issue := { issueOf 3 5 e e.len with compare := true }, pre := acked 1
     post := fun s us => inOrder (fun s u => s.arriveOne e false u) (released s us) [] us },
   { instr := .gwait e, issue := issueOf 3 6 e e.len
     post := fun s us => inOrder (fun s u =>
       let f := s.fibre u
       if u ∈ ((s.group f.groupId).bar (modLow e 2)).arrived then (s.updFibre u fun f => f.waitsPast .waitBarrier (.barrier (modLow e 2)) e.len, true)
       else (s.acquire f 1, false)) s [] us },
   { instr := .cvset e, issue := issueOf 3 7 e e.len
     pre := fun s us => let n := s.countB (s.fibre (us.headD 0)) e; 1 ≤ n ∧ n ≤ 1024
     post := fun s us => (s.cvSet (s.fibre (us.headD 0)).groupId (modLow e 3) (s.countB (s.fibre (us.headD 0)) e), []) },
   { instr := .cvsign e, issue := { issueOf 3 8 e e.len with compare := true }
     pre := fun s us => (∀ u ∈ us, neverSet e s (s.fibre u) = false) ∧ acked 1 s us
     post := fun s us => inOrder (fun s u =>
       let f := s.fibre u
       if u ∈ ((s.group f.groupId).cv (modLow e 3)).signers then (s.updFibre u fun f => f.waitsPast .waitConverge (.signNext (modLow e 3)) e.len, true)
       else (s.sign f (modLow e 3), false)) (released s us) [] us },
   { instr := .cvwait e, issue := issueOf 3 9 e e.len, pre := fun s us => ∀ u ∈ us, neverSet e s (s.fibre u) = false
     post := fun s us => (s.updAll us fun f => f.waitsPast .waitConverge (.round (modLow e 3)) e.len, us) }]

/-- The launch that one fibre makes for its wave, where its descriptor can be read (R199). -/
def launched (e : Ext) (s : State) (f : Fibre) (d : List Byte) (poison : Bool) (walks : List Nat) : State :=
  let b := (s.srcB f e false .b32).val.toNat
  let tag := if e.mod.getLsbD 0 then (s.srcC f e true).val.toNat % 64 else f.tag
  if poison then s.setS f.groupId e.d.toNat (handleWord 0 0 5)
  else
    let r := (s.keepWalks f walks).launch f.part (b % 128) (b / 128 % 128 + 1) tag d (s.tagOk f tag) false
    r.2.2.setS f.groupId e.d.toNat (handleWord r.1 0 r.2.1)

/-- QPUSH, QPOP, QPEEK, QCLOSE, LAUNCH and LWAIT (R197 to R200). -/
def queueRows (e : Ext) : List OpRow :=
  let q := modLow e 3
  let qpre (s : State) (us : List Nat) : Prop := ∀ u ∈ us, q < (s.pipeOf (s.fibre u)).queues.length
  [{ instr := .qpush e, issue := { issueOf 4 0 e e.len with compare := true, once := true }
     pre := fun s us => qpre s us ∧ noPoison (usesOf 4 0 e) s us ∧ ((s.pipeOf (s.fibre (us.headD 0))).queue q).closed = false ∧ notCommit s us
     post := fun s us => inOrder (fun s u =>
       let f := s.fibre u
       if s.portFull f.port then (s.updFibre u fun f => f.waits .waitMemory (.port false), true)
       else (s.portPush f.port f q false (f.entry e.a.toNat), false)) s [] us },
   { instr := .qpop e, issue := { issueOf 4 1 e e.len with compare := true, once := true }, pre := qpre
     post := fun s us => inOrder (fun s u => (s.popOne e u, false)) s [] us },
   { instr := .qpeek e, issue := { issueOf 4 2 e e.len with compare := true, once := true }, pre := qpre
     post := fun s us => (eachDo (fun s f => f.setV e.d.toNat ⟨((s.pipeOf f).queue q).peek f.tag, false⟩) s us, []) },
   { instr := .qclose e, issue := { issueOf 4 3 e e.len with compare := true, once := true }, pre := qpre
     post := fun s us =>
       let f := s.fibre (us.headD 0)
       if ((s.pipeOf f).queue q).closed then (s, [])
       else if s.portFull f.port then (s.updAll us fun f => f.waits .waitMemory (.port false), us)
       else (s.portPush f.port f q true { tag := f.tag, words := [], fid := f.fid }, []) },
   { instr := .launch e, issue := { issueOf 5 0 e e.len with compare := true, once := true }
     pre := fun s us =>
       let f := s.fibre (us.headD 0)
       noPoison [⟨true, e.a.toNat, 1, true, false⟩] s us ∧ (s.srcA f e true).val.toNat % 64 = 0 ∧ acked 4 s us ∧
       ∃ d p w, (released s us).readDescriptor ((released s us).fibre (us.headD 0)) (((released s us).srcA ((released s us).fibre (us.headD 0)) e true).val.toNat) = .ok (d, p, w)
     post := fun s us =>
       let s := released s us
       let f := s.fibre (us.headD 0)
       match s.readDescriptor f (s.srcA f e true).val.toNat with
       | .ok (d, p, w) => (launched e s f d p w, [])
       | .error _ => (s, us) },
   { instr := .lwait e, issue := { issueOf 5 1 e e.len with compare := true, once := true }
     pre := fun s us =>
       let f := s.fibre (us.headD 0)
       let a := s.srcA f e true
       (f.lwait = none ∧ a.poison = true) ∨ ∀ p, s.pipe? f.part (f.lwait.getD (a.val.toNat / 2 ^ 32)) = some p → p.ended ≠ none
     post := fun s us =>
       let f := s.fibre (us.headD 0)
       let a := s.srcA f e true
       let h := f.lwait.getD (a.val.toNat / 2 ^ 32)
       let mine := us.filter fun u => (s.fibre u).lwait == f.lwait
       let rest := us.filter fun u => !mine.contains u
       let give (s : State) (x : PDWord) : State := (s.setS f.groupId e.d.toNat x).updAll mine fun f => { f with lwait := none }
       if f.lwait.isNone && a.poison then (give s ⟨0, true⟩, rest)
       else match (s.pipe? f.part h).map fun p => p.ended.getD (0, 0) with
         | none => (give s (handleWord h 0 0xFF), rest)
         | some (st, cause) => ((give s (handleWord h cause st)).selfInval (s.coreOf f), rest) }]

end Sys2Proof

/-- FEND ends each active fibre; YIELD saves those for which a pre-emption or migration request stands; SLEEP, WAKE and SPAWN act for each active fibre in ascending gang lane, WAKE and SPAWN once its stores are acknowledged; REPACK makes the active fibres arrive. Under those conditions, and where WAKE, SPAWN and REPACK read no poisoned register, each completes with exactly that effect, and the rest of the wave moves on. -/
def Obligations.FibreInstructions : Prop :=
  ∀ (b : Base) (e : Ext), ∀ r ∈ fibreRows b e, r.completes

/-- GNEW, GJOIN, GLEAVE, GFREE, GBAR, GARRIVE, GWAIT, CVSET, CVSIGN and CVWAIT complete with exactly the effect of their rule, fibre after fibre in ascending gang lane, where no store is outstanding, GJOIN and GFREE read no poisoned register, GLEAVE is outside the home group, the size of CVSET is 1 to 1,024 and CVSIGN and CVWAIT name a register that has been set. -/
def Obligations.GroupInstructions : Prop :=
  ∀ e : Ext, ∀ r ∈ groupRows e, r.completes

/-- QPUSH, QPOP, QPEEK and QCLOSE on a queue that the pipeline has, and LAUNCH and LWAIT, complete with exactly the effect of their rule: a push enters the core's port window or waits for room, a pop takes the oldest entry of the fibre's tag, a peek reports the count and bit 31 for closed, LAUNCH answers (HANDLE, STATUS), LWAIT the status and cause of an ended pipeline, which is the one it has waited for where it has waited, or 0xFF, or a poisoned word for a poisoned handle. Registers that are stored or read as an address are sound, and a push under a tag is not COMMITTING. -/
def Obligations.QueueInstructions : Prop :=
  ∀ e : Ext, ∀ r ∈ queueRows e, r.completes

namespace Sys2Proof

/-- The value that SETSR takes (R201). -/
def setsrValue (e : Ext) (s : State) (f : Fibre) : DWord :=
  if specialWide (modLow e 4) then (s.srcB f e true .b64).val else ((s.srcB f e false .b32).val.setWidth 32).setWidth 64

/-- The issue of a privileged instruction of major 6. -/
def privIssue (minor : Nat) (e : Ext) : Issue := { issueOf 6 minor e e.len with priv := true }

/-- ERET in one of its modes: 0 RETRY, 1 SKIP, 2 END (R203). -/
def eretRow (instr : Instr) (mode : Nat) (e : Ext) : OpRow :=
  { instr := instr, issue := privIssue 4 e, pre := noPoison (usesOf 6 4 e)
    post := fun s us =>
      let f := s.fibre (us.headD 0)
      let held := (s.heldBy f.part ((s.srcA f e true).val.toNat % 2 ^ 32)).map fun g => g.uid
      let v := (s.srcB f e false .b32).val.extractLsb' 0 32
      if held.isEmpty then (s.setPredAll us e.pd.toNat false, [])
      else ((if mode = 2 then held.foldl (fun s u => s.endFibre u false) s else s.updAll held fun g => g.resume mode v).setPredAll us e.pd.toNat true, []) }

/-- PREQ in one of its modes, which answers a status and the state of the pipelines named (R418). -/
def preqRow (instr : Instr) (e : Ext) (pre : State → Fibre → Prop) (act : State → Fibre → Nat → Nat → Nat × State) : OpRow :=
  { instr := instr, issue := { privIssue 8 e with compare := true, once := true }
    pre := fun s us => pre s (s.fibre (us.headD 0))
    post := fun s us =>
      let f := s.fibre (us.headD 0)
      let a := s.srcA f e true
      let b := s.srcB f e true .b64
      let h := a.val.toNat / 2 ^ 32
      let r := act s f h b.val.toNat
      (r.2.setS f.groupId e.d.toNat ⟨BitVec.ofNat 64 (r.1 + r.2.preqState f.part (r.2.preqNames f.part h).2 * 256), a.poison || b.poison⟩, []) }

/-- MIGR in one of its modes (R419). -/
def migrRow (instr : Instr) (e : Ext) (act : State → Nat → Nat → Nat → Nat × State) : OpRow :=
  { instr := instr, issue := { privIssue 9 e with compare := true, once := true }
    post := fun s us =>
      let f := s.fibre (us.headD 0)
      let a := s.srcA f e true
      let b := s.srcB f e true .b64
      let r := act s f.part (a.val.toNat % 128) (b.val.toNat % 128)
      (r.2.setS f.groupId e.d.toNat ⟨BitVec.ofNat 64 r.1, a.poison || b.poison⟩, []) }

/-- GETSR, SETSR, TRAP, SYSCALL, ERET, BKPT, HALT, TFENCE, PREQ and MIGR (R201 to R205, R417 to R419). -/
def systemRows (e : Ext) : List OpRow :=
  let n := modLow e 4
  [{ instr := .getsr e, issue := { issueOf 6 0 e e.len with once := [0, 2, 5, 6, 10, 11, 14].contains n }
     post := fun s us =>
       let f := s.fibre (us.headD 0)
       if e.dk then (s.setS f.groupId e.d.toNat ⟨BitVec.ofNat 64 (s.special f n), false⟩, [])
       else (eachDo (fun s f => f.setD e (specialWide n) ⟨BitVec.ofNat 64 (s.special f n), false⟩) s us, []) },
   { instr := .setsr e, issue := { issueOf 6 1 e e.len with priv := n == 14 }
     pre := fun s us => noPoison ((usesOf 6 1 e).filter fun u => u.rd) s us ∧ (n ≠ 12 → n ≠ 13 → ∀ u ∈ us, setsrValue e s (s.fibre u) = 0)
     post := fun s us =>
       (if n = 12 then eachDo (fun s f => { f with flags := (setsrValue e s f).extractLsb' 0 5 }) s us
        else if n = 13 then eachDo (fun s f => { f with ftz := setsrValue e s f &&& 0x1F000000FF#64 }) s us
        else if n = 14 then (s.preqResume (s.fibre (us.headD 0)).part 0).2
        else s, []) },
   { instr := .trap e, issue := issueOf 6 2 e e.len
     post := fun s us => ((s.trap (us.headD 0) us { cause := 0x0020, detail := e.imm.toNat } none (some e.len)).updAll us fun f =>
       { f with hold := f.hold.map fun h => { h with debugger := false } }, us) },
   { instr := .syscall e, issue := issueOf 6 3 e e.len
     post := fun s us => ((s.trap (us.headD 0) us { cause := 0x0021, detail := e.imm.toNat } (some e.d.toNat) (some e.len)).updAll us fun f =>
       { f with hold := f.hold.map fun h => { h with debugger := false } }, us) },
   eretRow (.eretRetry e) 0 e, eretRow (.eretSkip e) 1 e, eretRow (.eretEnd e) 2 e,
   { instr := .bkpt e, issue := issueOf 6 5 e e.len
     post := fun s us =>
       if s.dbgEn.getLsbD (s.fibre (us.headD 0)).part then
         let t := s.devLog (s.trapRec (s.fibre (us.headD 0)) { cause := 0x0022, detail := e.imm.toNat })
         ({ t.updAll us (fun f => f.holdAt 0x0022 none (some e.len) true) with msix := t.msix ++ [18] }, us)
       else (s, []) },
   { instr := .halt e, issue := { privIssue 6 e with compare := true }, pre := acked 6
     post := fun s us =>
       let t := released s us
       let f := t.fibre (us.headD 0)
       ((t.release f).goIdle f.part 0x11, t.cur) },
   { instr := .tfence e, issue := issueOf 6 7 e e.len
     pre := fun s us => ∀ u ∈ us, (s.fibre u).flags &&& (s.fibre u).ftz.extractLsb' 32 5 = 0
     post := fun s _ => (s, []) },
   preqRow (.preqSave e) e (fun s f => (s.srcB f e true .b64).val.toNat ≤ 4194240) (fun s f h b =>
     ((s.preqNames f.part h).1, if (s.preqNames f.part h).1 = 0 then
       s.requestSave f.part 0 (s.preqNames f.part h).2 (if b = 0 then (s.partn f.part).preemptDl else b) else s)),
   preqRow (.preqResume e) e (fun _ _ => True) (fun s f h _ => s.preqResume f.part h),
   preqRow (.preqStat e) e (fun _ _ => True) (fun s f h _ => ((s.preqNames f.part h).1, s)),
   migrRow (.migrReq e) e (fun s part src dst =>
     let p := s.partn part
     if (p.phys? src).isNone || !p.isSpare dst then (1, s)
     else if p.migrs.any fun m => m.src == src then (2, s)
     else if !p.keepsApart src dst then (3, s)
     else (0, s.requestMove part src dst)),
   migrRow (.migrStat e) e (fun s part src _ =>
     let st := (((s.partn part).migrs.find? fun m => m.src == src).map fun m => m.state).getD 0
     match (s.partn part).phys? src with
     | some c => (st * 256 + c * 2 ^ 16, s)
     | none => (st * 256 + Config.noCore s.free % 128 * 2 ^ 16, { s with free := s.free + 1 }))]

end Sys2Proof

/-- GETSR, SETSR, TRAP, SYSCALL, ERET in its three modes, BKPT, HALT, TFENCE, PREQ and MIGR in theirs complete, under their conditions, with exactly the effect of their rule: TRAP and SYSCALL hold the active fibres at the instruction with their code as the record's DETAIL, ERET resumes or ends the held fibres of the FIBRE_ID and sets PD, TFENCE has no effect where no enabled flag is set. MIGR.STAT of a source that is not mapped answers a free core number (notes/assumptions/18.md). -/
def Obligations.SystemInstructions : Prop :=
  ∀ e : Ext, ∀ r ∈ systemRows e, r.completes

/-- RETRY makes a held fibre RUNNABLE at the instruction that held it, and changes nothing else of it; SKIP sends it past that instruction with REPCNT 0 and, after SYSCALL, writes the answer without poison to the register SYSCALL named. A fibre that is not held is left alone. -/
def Obligations.EretReturns : Prop :=
  ∀ (f : Fibre) (h : Hold) (v : Word) (m l : Nat),
    (f.hold = none → f.resume m v = f) ∧
    (f.hold = some h → f.resume 0 v = { f with st := .runnable, wait := .none, hold := none }) ∧
    (f.hold = some h → h.len = some l → h.answer = none →
      f.resume 1 v = { f with st := .runnable, wait := .none, hold := none, pc := f.pc + BitVec.ofNat 64 l, repcnt := 0 }) ∧
    (f.hold = some h → h.len = some l → ∀ r, h.answer = some r →
      f.resume 1 v = { f with st := .runnable, wait := .none, hold := none, pc := f.pc + BitVec.ofNat 64 l, repcnt := 0 }.setV r ⟨v, false⟩)

namespace Sys2Proof

/-- The accesses of the active fibres pass every check of R241, and meet `pre` once their translations are kept. -/
def placedPre (uses : List RegUse) (accs : State → Fibre → List Acc) (multi : Bool) (pre : State → List Nat → List Placed → Prop) (s : State) (us : List Nat) : Prop :=
  ∃ ps ws, s.placeAll uses (accs s) multi us = .ok (ps, ws) ∧ pre (s.keepWalks (s.fibre (us.headD 0)) ws) us ps
/-- What is done with the accesses once they have been checked and their translations are kept (R71, R241). -/
def placedPost (uses : List RegUse) (accs : State → Fibre → List Acc) (multi : Bool) (k : State → List Nat → List Placed → State × List Nat)
    (s : State) (us : List Nat) : State × List Nat :=
  match s.placeAll uses (accs s) multi us with
  | .ok (ps, ws) => k (s.keepWalks (s.fibre (us.headD 0)) ws) us ps
  | .error _ => (s, us)
/-- A release waits for the acknowledgement of the fibre's earlier stores (R80). -/
def relPre (e : Ext) (s : State) (us : List Nat) : Prop := 2 ≤ e.sync → acked e.scope s us
/-- A release marks the dirty words of the fibre's core when its own write is made (R80). -/
def relPost (e : Ext) (r : State × List Nat) (us : List Nat) : State × List Nat := if e.sync < 2 then r else (released r.1 us, r.2)

/-- No tag of the active fibres is COMMITTING (R126), and every version that the accesses create has a way (R124). -/
def storePre (s : State) (us : List Nat) (ps : List Placed) : Prop := notCommit s us ∧ ∃ t, s.reserveAll ps = .ok t
/-- Every line that the loads bring into the VAC has a way (R124). -/
def readPre (wide : State → Fibre → Bool) (s : State) (_ : List Nat) (ps : List Placed) : Prop := ∃ t, s.reserveLoads (wide s) ps = .ok t
/-- The loads of the placed accesses, in order, once those ways are found; `k` is what comes first. -/
def loadsPost (wide : State → Fibre → Bool) (k : State → State) (one : State → Placed → State) (s : State) (us : List Nat) (ps : List Placed) :
    State × List Nat :=
  match s.reserveLoads (wide s) ps with
  | .ok s => (ps.foldl one (k s), [])
  | .error _ => (s, us)
/-- An acquire at a scope wider than the core is not answered by clean words of its L1 (R81). -/
def wideAcq (e : Ext) (s : State) (f : Fibre) : Bool := e.sync = 1 && !s.coreScope f e.scope
/-- The stores of the placed accesses, in order. -/
def storesPost (e : Ext) (bytes : State → Fibre → List Byte) (s : State) (us : List Nat) (ps : List Placed) : State × List Nat :=
  match s.reserveAll ps with
  | .ok s => (ps.foldl (fun s p => s.storeOne e.irrev (decide (2 ≤ e.sync)) p (bytes s (s.fibre p.uid))) s, [])
  | .error _ => (s, us)

/-- LD, LDP, SLD, ST, MST, RST, SST, PAGEREQ and PREFETCH (R215, R242 to R246, R250 to R253). -/
def memoryRows (e : Ext) : List OpRow :=
  let n := accessBytes e
  let m := if e.ty.wide then 8 else 4
  [{ instr := .ld e, issue := { issueOf 0x20 0 e e.len with once := e.sync = 1, take := takeAcquire e }
     pre := placedPre (addrUses e) (loadAccs e n) false (readPre (wideAcq e))
     post := placedPost (addrUses e) (loadAccs e n) false fun s us ps =>
       let sync := e.sync = 1 && s.replicatedFibre (s.fibre (us.headD 0))
       loadsPost (wideAcq e) id (fun s p => s.loadOne e (e.sync = 1) sync p) s us ps },
   { instr := .ldp e, issue := issueOf 0x20 1 e e.len
     pre := placedPre (addrUses e) (ldpAccs e) false fun s us ps =>
       readPre (fun _ _ => false) s us (ps.filter fun p => s.ldpAbsent (s.fibre p.uid) e = [])
     post := placedPost (addrUses e) (ldpAccs e) false fun s us ps =>
       let here := ps.filter fun p => s.ldpAbsent (s.fibre p.uid) e = []
       loadsPost (fun _ _ => false) (fun s => us.foldl (fun s u =>
         if here.any fun p => p.uid == u then s.setPd u e true
         else (s.updFibre u fun f => f.setRange e.d.toNat (List.replicate (max 1 (n / 4)) zeroWord)).setPd u e false) s)
         (fun s p => s.loadOne e false false p) s us here },
   { instr := .sld e, issue := { issueOf 0x12 0 e e.len with compare := e.sync = 1, once := e.sync = 1, take := takeAcquire e }
     pre := fun s us => placedPre (addrUses e) (loadAccs e (accessSize e.ty)) false (readPre (wideAcq e)) s (us.take 1)
     post := fun s us => placedPost (addrUses e) (loadAccs e (accessSize e.ty)) false (fun s us1 ps =>
       let sync := e.sync = 1 && s.replicatedFibre (s.fibre (us1.headD 0))
       loadsPost (wideAcq e) id (fun s p => s.sldOne e (e.sync = 1) sync us p) s us1 ps) s (us.take 1) },
   { instr := .st e, issue := { issueOf 0x21 0 e e.len with compare := e.sync = 2 }
     pre := fun s us => relPre e s us ∧ placedPre (usesOf 0x21 0 e) (accOf e n 2) false storePre s us
     post := fun s us => relPost e (placedPost (usesOf 0x21 0 e) (accOf e n 2) false (storesPost e fun _ f => f.storeBytes e n) s us) us },
   { instr := .mst e, issue := { issueOf 0x22 0 e e.len with compare := e.sync = 2 }
     pre := fun s us => relPre e s us ∧ placedPre (usesOf 0x22 0 e) (multiAccs e (accessSize e.ty)) true storePre s us
     post := fun s us => relPost e (placedPost (usesOf 0x22 0 e) (multiAccs e (accessSize e.ty)) true
       (storesPost e fun _ f => f.storeBytes e (accessSize e.ty)) s us) us },
   { instr := .rst e, issue := { issueOf 0x22 1 e e.len with compare := e.sync = 2 }
     pre := fun s us => relPre e s us ∧ s.poisonUse (s.fibre (us.headD 0)) (usesOf 0x22 1 e) = none ∧
       noPoison [⟨false, e.d.toNat, if e.ty.wide then 2 else 1, true, false⟩] s us ∧
       extraOk.redTypeOk ((s.srcC (s.fibre (us.headD 0)) e true).val.toNat / 16 % 8) e.ty = true ∧
       placedPre [] (multiAccs e m) true (fun t _ _ => notCommit t us) s (us.take 1)
     post := fun s us =>
       let d := s.rstBytes e us ((s.srcC (s.fibre (us.headD 0)) e true).val.toNat / 16 % 8)
       relPost e (placedPost [] (multiAccs e m) true (fun s _ ps => (s.reduceStores e d ps us, [])) s (us.take 1)) us },
   { instr := .sst e, issue := { issueOf 0x12 1 e e.len with compare := e.sync = 2 }
     pre := fun s us => relPre e s us ∧ placedPre (usesOf 0x12 1 e) (accOf e (accessSize e.ty) 2) false (fun t _ ps => storePre t us ps) s (us.take 1)
     post := fun s us => relPost e (placedPost (usesOf 0x12 1 e) (accOf e (accessSize e.ty) 2) false (fun s _ ps =>
       let r := storesPost e (fun s f => leBytes (accessSize e.ty) (s.sreg f e.d.toNat).val.toNat) s us ps
       (r.1.shareAcks (us.headD 0) s.peerWrites.length us, r.2)) s (us.take 1)) us },
   { instr := .pagereq e, issue := { issueOf 0x23 0 e e.len with compare := true, once := true }
     pre := fun s us => noPoison (addrUses e) s us ∧ ∀ u ∈ us, ∃ w, decodeWindow (s.ea (s.fibre u) e) 1 e.win = .ok w
     post := fun s us => (us.foldl (fun s u =>
       let f := s.fibre u
       match s.globalAt f e with
       | none => s
       | some g =>
         if (s.pteAt f g).isSome then s
         else if (s.partn f.part).mode.getLsbD 0 || ((s.partn f.part).region? g).isSome then s.raiseService f.part g 1 true else s) s, []) },
   { instr := .prefetch e, issue := issueOf 0x23 1 e e.len, pre := noPoison (addrUses e)
     post := fun s us => (us.foldl (fun s u =>
       match s.lineAt (s.fibre u) e true with
       | none => s
       | some l => s.prefetchLine (s.fibre u) l (e.c != 0)) s, []) }]

/-- ATOM, CAS and RED with their operations (R247). -/
def atomics (e : Ext) : List (Instr × AtomOp) :=
  [(.atomAdd e, ⟨0x24, 0⟩), (.atomMin e, ⟨0x24, 1⟩), (.atomMax e, ⟨0x24, 2⟩), (.atomAnd e, ⟨0x24, 3⟩), (.atomOr e, ⟨0x24, 4⟩),
   (.atomXor e, ⟨0x24, 5⟩), (.atomExch e, ⟨0x24, 6⟩), (.cas e, ⟨0x24, 7⟩), (.redAdd e, ⟨0x25, 0⟩), (.redMin e, ⟨0x25, 1⟩),
   (.redMax e, ⟨0x25, 2⟩), (.redAnd e, ⟨0x25, 3⟩), (.redOr e, ⟨0x25, 4⟩), (.redXor e, ⟨0x25, 5⟩)]
/-- The issue of an atomic: on shared memory, and under a release, it is a comparison point; on shared memory replicas perform it once (R365, R370). -/
def atomIssue (a : AtomOp) (e : Ext) (s : State) : Issue :=
  { issueOf a.major a.op e e.len with compare := s.anyShared e || e.sync ≥ 2, once := s.anyShared e, take := takeAtomic a e }
/-- As for a store, with a way for each site's line, and room for the log of buffered updates (R124, R379). -/
def atomPre (a : AtomOp) (e : Ext) (s : State) (us : List Nat) (ps : List Placed) : Prop :=
  notCommit s us ∧ ∃ t, s.reserveAll ps = .ok t ∧ ∃ v, t.reserveOrd a e ps = .ok v
/-- The atomics of the placed accesses one after the other, and the acquire of ATOM and CAS (R248, R249). -/
def atomsPost (a : AtomOp) (e : Ext) (s : State) (us : List Nat) (ps : List Placed) : State × List Nat :=
  match (s.reserveAll ps).bind fun s => s.reserveOrd a e ps with
  | .error _ => (s, us)
  | .ok s =>
    let s := ps.foldl (fun s p => s.atomicOne a e p) s
    (if !a.red && (e.sync = 1 || e.sync = 3) then us.foldl (fun s u => s.acquire (s.fibre u) e.scope) s else s, [])

/-- FENCE, CPFENCE, CINV, CWB and TLBINV (R254, R255, R264, R265). -/
def fenceRows (e : Ext) : List OpRow :=
  let a := e.imm.toNat % 8
  let b := e.imm.toNat / 8 % 8
  let lead (s : State) (us : List Nat) : Fibre := (released s us).fibre (us.headD 0)
  let page (s : State) (us : List Nat) : State :=
    let f := lead s us
    let s := released s us
    match s.globalAt f e with
    | none => s
    | some g => { s with tlb := s.tlb.filter fun x => !(inTlbScope f e.scope x && pteMatches g (pteOf x.entry.toNat)) }
  let all (s : State) (us : List Nat) : State :=
    let s := released s us
    { s with tlb := s.tlb.filter fun x => !inTlbScope (s.fibre (us.headD 0)) e.scope x }
  [{ instr := .fence e, issue := { issueOf 0x26 0 e e.len with compare := e.sync ≥ 2 }, pre := relPre e
     post := fun s us => relPost e (if e.sync = 1 ∨ e.sync = 3 then us.foldl (fun s u => s.acquire (s.fibre u) e.scope) s else s, []) us },
   { instr := .cpfence e, issue := { issueOf 0x26 1 e e.len with compare := a = 0 }
     pre := fun s us => a ≠ b → ∀ u ∈ us, s.pathDone (s.fibre u) a e.scope = true
     post := fun s _ => (s, []) },
   { instr := .cinv e, issue := issueOf 0x37 0 e e.len, pre := noPoison (addrUses e)
     post := fun s us => (us.foldl (fun s u =>
       match s.lineAt (s.fibre u) e false with
       | none => s
       | some l => { s with l1 := s.l1.filter fun w => !(w.core == s.coreOf (s.fibre u) && w.key / 128 == l.key / 128 && w.dirty == 0) }) s, []) },
   { instr := .cwb e, issue := issueOf 0x37 1 e e.len, pre := noPoison (addrUses e)
     post := fun s us => (us.foldl (fun s u => match s.lineAt (s.fibre u) e false with | none => s | some l => s.cwbOne l u) s, []) },
   { instr := .tlbinv e, issue := { issueOf 0x37 2 e e.len with priv := true }
     pre := fun s us => noPoison (addrUses e) s us ∧ acked 4 s us ∧
       ∀ g, (released s us).globalAt (lead s us) e = some g → (page s us).copyHolds (lead s us) (some g) e.scope = false
     post := fun s us => (page s us, []) },
   { instr := .tlbinvAll e, issue := { issueOf 0x37 2 e e.len with priv := true }
     pre := fun s us => acked 4 s us ∧ (all s us).copyHolds ((released s us).fibre (us.headD 0)) none e.scope = false
     post := fun s us => (all s us, []) }]

end Sys2Proof

/-- LD, LDP, SLD, ST, MST, RST, SST, PAGEREQ and PREFETCH complete, in every form, where the accesses of every active fibre pass the checks of R241, no tag is COMMITTING, versions have room and, under a release, the earlier stores are acknowledged: the checks of all fibres come first, their translations are kept, and then the accesses are performed in ascending lane, each with the effect of its rule. -/
def Obligations.MemoryInstructions : Prop :=
  ∀ e : Ext, ∀ r ∈ memoryRows e, r.completes

/-- ATOM, CAS and RED, in every operation and form, complete under the same conditions: each active fibre's atomic is performed at its site, one after the other in ascending lane, or buffered under .ORD in a determinism pipeline; ATOM and CAS under .ACQ or .AR then acquire; under .REL or .AR an atomic that has written marks the dirty words of its core, and a CAS whose comparison fails does not. -/
def Obligations.AtomicInstructions : Prop :=
  ∀ e : Ext, ∀ x ∈ atomics e, ∀ s : State,
    let i := atomIssue x.2 e s
    let s1 := s.issuedBy i
    let us := s.activeSet i
    Issues s i → relPre e s1 us → placedPre (usesOf x.2.major x.2.op e) (atomicAccs e) false (atomPre x.2 e) s1 us →
      let r := placedPost (usesOf x.2.major x.2.op e) (atomicAccs e) false (atomsPost x.2 e) s1 us
      exec x.1 s = .next (r.1.advanceCur e.len r.2)

/-- FENCE completes once the earlier stores and atomics are acknowledged where it releases, and invalidates where it acquires; CPFENCE completes with no other effect once the first path is done; CINV drops the clean words of the line in the core's L1; CWB writes back the dirty ones of the fibre's tag; TLBINV drops the translations in its scope and completes when no copy holds one. -/
def Obligations.FenceInstructions : Prop :=
  ∀ e : Ext, ∀ r ∈ fenceRows e, r.completes

namespace Sys2Proof

/-- The registers that the wave's lowest fibre reads carry no poison (R105). -/
def cleanLead (major minor : Nat) (e : Ext) (s : State) (us : List Nat) : Prop :=
  s.poisonUse (s.fibre (us.headD 0)) ((usesOf major minor e).filter fun u => u.rd) = none
/-- What an effect answers, or the state as it was. -/
def orSame {α β : Type} (x : Except β α) (s : State) (us : List Nat) (k : α → State × List Nat) : State × List Nat :=
  match x with | .ok y => k y | .error _ => (s, us)

/-- CPY and CPYT (R256 to R258): the checks at issue, and the copy that waits for its pre-walk to end. -/
def copyRow (instr : Instr) (tiled : Bool) (e : Ext) : OpRow :=
  let minor := if tiled then 1 else 0
  let c := e.c.toNat
  let src (s : State) (f : Fibre) : Nat := (s.sreg f c).val.toNat
  let c1 (s : State) (f : Fibre) : DWord := (s.sreg f (c + 1)).val
  let c2 (s : State) (f : Fibre) : DWord := if tiled then (s.sreg f (c + 2)).val else 0
  let sh (s : State) (f : Fibre) : CopyShape := copyShape tiled (c1 s f) (c2 s f)
  let check (s : State) (f : Fibre) : Except Trap (Option Nat) :=
    s.copyCheck f e ((usesOf 0x27 minor e).filter fun u => u.rd) (src s f) (s.ea f e) (sh s f) tiled
      (if (c1 s f).getLsbD 63 then some (bits (c1 s f).toNat 32 20) else none)
  { instr := instr, issue := { issueOf 0x27 minor e e.len with compare := e.sync = 2 }
    pre := fun s us =>
      let f := s.fibre (us.headD 0)
      notCommit s us ∧ s.copyRight f = none ∧ (s.vport f.part f.onCore).full = false ∧ (∃ k, check s f = .ok k) ∧
      ∃ r, s.placeSectors f e (src s f) (s.ea f e) 0 (sh s f).sectors = .ok r
    post := fun s us =>
      let f := s.fibre (us.headD 0)
      orSame (check s f) s us fun txb => orSame (s.placeSectors f e (src s f) (s.ea f e) 0 (sh s f).sectors) s us fun (xs, pages) =>
        let id := s.nextId
        let cp : Copy := { id := id, part := f.part, pipe := f.pipe, uids := us, fid := f.fid, grp := f.cur, repl := f.repl
                           cluster := f.onCore / 4, token := e.d.toNat, tag := f.tag, total := xs.length, left := xs, all := xs, txb := txb
                           started := false, rel := e.sync == 2, pages := pages, stuck := none }
        let t := { s with nextId := id + 1 }
        let t := match txb with | some k => t.nameTxb k | none => t
        let t := ({ t with copies := t.copies ++ [cp] }).updGroup f.groupId fun g => { g with pend := g.pend ++ [(e.d.toNat, none)] }
        ((t.updAll us fun g =>
          let g := g.fold (copyRecord (s.ea f e) (src s f) ((c1 s f).toNat % 2 ^ 32))
          (if tiled then g.fold (extensionRecord (c2 s f).toNat) else g).waitsPast .waitMemory (.prewalk id) e.len).sendDown f.part f.onCore 3 id, us) }

/-- TXBINIT and TXBEXP (R262). -/
def txbRow (instr : Instr) (minor : Nat) (e : Ext) (most : Nat) (g : Nat → Txb → Txb) : OpRow :=
  { instr := instr, issue := issueOf 0x27 minor e e.len
    pre := fun s us =>
      let f := s.fibre (us.headD 0)
      s.poisonUse f (usesOf 0x27 minor e) = none ∧ (∃ k, s.txbKey f e 3 = .ok k) ∧ s.operandC f e ≤ most
    post := fun s us =>
      let f := s.fibre (us.headD 0)
      orSame (s.txbKey f e 3) s us fun k => (s.txbUpdate k (g (s.operandC f e)), []) }

/-- CPY, CPYT, LEASE, and the transaction barriers (R256 to R263). -/
def copyRows (e : Ext) : List OpRow :=
  [copyRow (.cpy e) false e, copyRow (.cpyt e) true e,
   { instr := .lease e, issue := { issueOf 0x27 2 e e.len with compare := true, once := true }
     pre := fun s us =>
       let f := s.fibre (us.headD 0)
       let n := bits (s.sreg f e.c.toNat).val.toNat 0 13
       s.copyRight f = none ∧ cleanLead 0x27 2 e s us ∧ s.ea f e % 128 = 0 ∧ s.rangeCheck f (s.ea f e) (128 * n) e.win 2 = none ∧
       ∃ l, s.leaseLines f (s.ea f e) e.win 0 n = .ok l
     post := fun s us =>
       let f := s.fibre (us.headD 0)
       let c := (s.sreg f e.c.toNat).val.toNat
       orSame (s.leaseLines f (s.ea f e) e.win 0 (bits c 0 13)) s us fun lines =>
         let st := s.leaseStatus lines (if e.win = 0 then windowOf (s.ea f e) else e.win) (bits c 0 13) (bits c 32 16)
         if st ≠ 0 then (s.setS f.groupId e.d.toNat (handleWord 0 0 st), [])
         else
           let h := (s.partn f.part).leaseCount + 1
           let due := s.clock + 1024 * bits c 32 16
           let t := s.updPart f.part fun p => { p with leaseCount := h }
           let t := { t with leases := t.leases ++ [({ part := f.part, handle := h, lines := lines.map fun (l : Loc × Nat) => l.1.key, expiry := due } : Lease)] }
           ((t.setS f.groupId e.d.toNat (handleWord h 0 0)).timer due (.leaseExpire f.part h), []) },
   txbRow (.txbinit e) 4 e 65535 (fun c t => { t with arrive := c }),
   txbRow (.txbexp e) 5 e (2 ^ 32) (fun c t => { t with sectors := (t.sectors + c) % 2 ^ 32 }),
   { instr := .txbarr e, issue := { issueOf 0x27 6 e e.len with compare := true }
     pre := fun s us => (∃ ks, s.txbKeys e (usesOf 0x27 6 e) 3 us = .ok ks) ∧ acked 3 s us
     post := fun s us => orSame (s.txbKeys e (usesOf 0x27 6 e) 3 us) s us fun ks =>
       (ks.foldl (fun s x => s.txbUpdate x.2 fun t => { t with arrive := t.arrive - 1 }) (released s us), []) },
   { instr := .txbwait e, issue := issueOf 0x27 7 e e.len
     pre := fun s us => ∃ ks, s.txbKeys e (usesOf 0x27 7 e) 1 us = .ok ks
     post := fun s us => orSame (s.txbKeys e (usesOf 0x27 7 e) 1 us) s us fun ks =>
       let stays := ks.filter fun x => (s.txbAt x.2).phase == s.operandC (s.fibre x.1) e % 16
       (ks.foldl (fun s x =>
         let s := s.nameTxb x.2
         if stays.any fun y => y.1 == x.1 then s.updFibre x.1 fun f => f.waitsPast .waitMemory (.txb x.2) e.len
         else s.acquire (s.fibre x.1) 3) s, stays.map fun x => x.1) }]

/-- MMA or MMAS (R272, R273): each active fibre enters the set of its round, or waits for the round to complete. -/
def mmaRow (instr : Instr) (minor : Nat) (e : Ext) : OpRow :=
  { instr := instr, issue := issueOf 0x28 minor e e.len
    pre := fun s us => ∀ u ∈ us, ∃ r, s.mmaCheck (s.fibre u) e = .ok r
    post := fun s us =>
      ((us.foldl (fun s u =>
        match s.mmaCheck (s.fibre u) e with
        | .error _ => s
        | .ok r =>
          if r < ((s.group (s.fibre u).groupId).cv (modLow e 3)).round then s.joinSet minor e u r
          else s.updFibre u fun f => f.waits .waitConverge (.mmaRound (modLow e 3) r)) s).settleSets, us) }

/-- MMA, MMAS, TMMA, MSLOT and MSTAT (R272, R280, R285 to R287). -/
def matrixRows (e : Ext) : List OpRow :=
  let pair (s : State) (f : Fibre) (n : Nat) : DWord × DWord := ((s.sreg f n).val, (s.sreg f (n + 1)).val)
  [mmaRow (.mma e) 0 e, mmaRow (.mmas e) 1 e,
   { instr := .tmma e, issue := issueOf 0x28 2 e e.len
     pre := fun s us =>
       let f := s.fibre (us.headD 0)
       let d := (s.sreg f e.d.toNat).val
       notCommit s us ∧ cleanLead 0x28 2 e s us ∧ s.tmmaStop f e (pair s f e.a.toNat) (pair s f e.b.toNat) (s.sreg f e.c.toNat).val d = none ∧
       (bits d.toNat 0 9 ≠ tileT d → ∃ g, s.bindEngine f.part f.onCore f.pipe = some g)
     post := fun s us =>
       let f := s.fibre (us.headD 0)
       let d := (s.sreg f e.d.toNat).val
       if bits d.toNat 0 9 = tileT d then (s, [])
       else
         match s.bindEngine f.part f.onCore f.pipe with
         | none => (s, us)
         | some g =>
           let id := s.nextId
           let t : Tmma := { id := id, part := f.part, pipe := f.pipe, uid := f.uid, uids := us, grp := f.cur, repl := f.repl, core := f.onCore
                             engine := g, e := e, descA := pair s f e.a.toNat, descB := pair s f e.b.toNat, descC := (s.sreg f e.c.toNat).val
                             shape := d, next := bits d.toNat 0 9, seq := id }
           ((({ s with nextId := id + 1, tmmas := s.tmmas ++ [t] }).updAll us fun f => f.waitsPast .waitMemory (.tmma id) e.len).kick f.part f.onCore g, us) },
   { instr := .mslot e, issue := { issueOf 0x29 0 e e.len with priv := true, compare := true, once := true }, pre := cleanLead 0x29 0 e
     post := fun s us =>
       let f := s.fibre (us.headD 0)
       let sel := slotSel (s.srcA f e true).val
       let b := (s.srcB f e true .b64).val.toNat
       let ok := ((s.partn f.part).phys? sel.1).isSome && (bits b 32 32 == 0 || (s.pipe f.part (bits b 32 32)).runs)
       (if ok then (s.setPredAll us e.pd.toNat ok).mslot f.part sel (bits b 32 32) (b % 2 == 1) else s.setPredAll us e.pd.toNat ok, []) },
   { instr := .mstat e, issue := issueOf 0x29 1 e e.len, pre := cleanLead 0x29 1 e
     post := fun s us =>
       let f := s.fibre (us.headD 0)
       let sel := slotSel (s.srcA f e true).val
       let ok := ((s.partn f.part).phys? sel.1).isSome
       let m := s.slotAt f.part sel.1 sel.2.1 sel.2.2
       let x := m.handle * 2 ^ 32 + (if m.excl then 2 ^ 31 else 0) + s.slotNow * 2 ^ 20 + min (s.bound f.part sel.1 sel.2.1).length 65535
       ((s.setS f.groupId e.d.toNat ⟨if ok then BitVec.ofNat 64 x else 0, false⟩).setPredAll us e.pd.toNat ok, []) }]

/-- FUT.WAIT.DONE or .FREE (R297). -/
def futWaitRow (instr : Instr) (e : Ext) (ended : Nat → Prop) : OpRow :=
  { instr := instr, issue := { issueOf 0x2C 5 e e.len with once := true, take := takeCommit }
    pre := fun s us =>
      let f := s.fibre (us.headD 0)
      cleanLead 0x2C 5 e s us ∧ (servedOnly s us = [] → ended (s.tagState f.part (s.srcA f e true).val.toNat))
    post := fun s us =>
      let f := s.fibre (us.headD 0)
      if !(servedOnly s us).isEmpty then (s, us.filter fun u => !(servedOnly s us).contains u)
      else (s.acquireCommit f (s.srcA f e true).val.toNat, []) }

/-- Majors 0x2C and 0x2D (R290 to R298, R301). -/
def futureRows (e : Ext) : List OpRow :=
  let a (s : State) (us : List Nat) : Nat := (s.srcA (s.fibre (us.headD 0)) e true).val.toNat
  let n (s : State) (us : List Nat) : Nat := (s.srcB (s.fibre (us.headD 0)) e false .b64).val.toNat
  [{ instr := .futSplit e, issue := { issueOf 0x2C 0 e e.len with once := true }
     pre := fun s us =>
       let f := s.fibre (us.headD 0)
       cleanLead 0x2C 0 e s us ∧ f.tag = 0 ∧ 2 ≤ n s us ∧ n s us ≤ 8 ∧ s.tagsHeld f.part + n s us ≤ (s.partn f.part).allow
     post := fun s us =>
       let f := s.fibre (us.headD 0)
       let ts := s.freeTags (n s us)
       let set : DWord := ts.foldl (fun m t => m ||| (1#64 <<< t)) 0
       let inside := (s.interval f.part).isSome
       let t := ts.foldl (fun s t => s.updTag t fun _ => { TagRec.reset with state := 1, part := f.part, set := set, interval := inside }) s
       ((t.setS f.groupId e.d.toNat ⟨BitVec.ofNat 64 (ts.headD 0), false⟩).setS f.groupId (e.d.toNat + 1) ⟨set, false⟩, []) },
   { instr := .futEnter e, issue := issueOf 0x2C 1 e e.len
     pre := fun s us => noPoison ((usesOf 0x2C 1 e).filter fun u => u.rd) s us ∧ ∀ u ∈ us, (s.fibre u).tag = 0
     post := fun s us => inOrder (fun s u =>
       let f := s.fibre u
       let t := (s.srcB f e false .b64).val.toNat
       if t = 0 then (s.setPd u e true, false)
       else if s.replicatedFibre f && !f.journal.isEmpty then (s.drainPoint [u], true)
       else if s.tagState f.part t ≠ 1 then (s.setPd u e false, false)
       else if f.acked && !s.loadsOut u then (s.updFibre u fun f => { f.setPred e.pd.toNat true with tag := t }, false)
       else (s.updFibre u fun f => f.waits .waitMemory .loadsAndAcks, true)) s [] us },
   { instr := .futCommit e, issue := { issueOf 0x2C 2 e e.len with compare := true, once := true }
     pre := fun s us => cleanLead 0x2C 2 e s us ∧ (s.fibre (us.headD 0)).tag = 0
     post := fun s us =>
       let f := s.fibre (us.headD 0)
       if !(servedOnly s us).isEmpty then (s.setS f.groupId e.d.toNat ⟨0x100, false⟩, us.filter fun u => !(servedOnly s us).contains u)
       else if s.tagState f.part (a s us) ≠ 1 then (s.setS f.groupId e.d.toNat ⟨BitVec.ofNat 64 (s.tagStatus f.part (a s us)), false⟩, [])
       else if s.siblingCommits (a s us) then (s.setS f.groupId e.d.toNat ⟨0x101, false⟩, [])
       else
         let t := s.updTag (a s us) fun r => { r with state := 2, answer := some (f.groupId, e.d.toNat) }
         let t := t.updGroup f.groupId fun g => { g with pend := g.pend ++ [(e.d.toNat, none)] }
         (t.updAll us fun f => f.waits .waitMemory (.commit (a s us)), us) },
   { instr := .futSquash e, issue := { issueOf 0x2C 3 e e.len with once := true }, pre := cleanLead 0x2C 3 e
     post := fun s us =>
       let f := s.fibre (us.headD 0)
       let t := s.setS f.groupId e.d.toNat ⟨BitVec.ofNat 64 (s.tagStatus f.part (a s us)), false⟩
       if s.tagState f.part (a s us) ≠ 1 then (t, []) else (t.squash (a s us), if a s us = f.tag then us else []) },
   { instr := .futStat e, issue := { issueOf 0x2C 4 e e.len with once := true, take := takeCommit }, pre := cleanLead 0x2C 4 e
     post := fun s us =>
       let f := s.fibre (us.headD 0)
       let x := s.tagWord f.part (a s us)
       (((s.acquireCommit f (a s us)).setS f.groupId e.d.toNat ⟨BitVec.ofNat 64 x.1, false⟩).setS f.groupId (e.d.toNat + 1) ⟨x.2, false⟩, []) },
   futWaitRow (.futWaitDone e) e (fun st => st ≠ 1 ∧ st ≠ 2), futWaitRow (.futWaitFree e) e (fun st => st = 0),
   { instr := .flip e, issue := { issueOf 0x2D 0 e e.len with compare := true, once := true }
     pre := fun s us =>
       let f := s.fibre (us.headD 0)
       let k := (s.srcB f e true .b64).val.toNat % 32
       notCommit s us ∧ cleanLead 0x2D 0 e s us ∧ flipCheck (a s us) = none ∧
       (k ≤ 19 → (s.partn f.part).res.getLsbD (32 + k) = true → ∀ u ∈ us, (s.fibre u).acked = true)
     post := fun s us =>
       let f := s.fibre (us.headD 0)
       let b := (s.srcB f e true .b64).val.toNat
       let k := b % 32
       if 19 < k ∨ !(s.partn f.part).res.getLsbD (32 + k) then (s.setPredAll us e.pd.toNat false, [])
       else
         let r : FlipRec := { base := a s us, frame := b / 2 ^ 32 }
         let t := (s.release f).setPredAll us e.pd.toNat true
         (if f.tag = 0 then t.makePending f.part k r else t.updTag f.tag fun x => { x with flips := (x.flips.filter fun y => y.1 != k) ++ [(k, r)] }, []) },
   { instr := .ickpt e, issue := { issueOf 0x2D 1 e e.len with once := true }
     pre := fun s us => cleanLead 0x2D 1 e s us ∧ (s.fibre (us.headD 0)).tag = 0
     post := fun s us =>
       let f := s.fibre (us.headD 0)
       let ok := (s.partn f.part).intCtl.getLsbD 33 && !(s.partn f.part).rollback
       let t := s.setPredAll us e.pd.toNat ok
       (if ok then (t.updPart f.part fun p => { p with ickpt := true }).post (.intervalBoundary f.part) else t, []) }]

end Sys2Proof

/-- CPY, CPYT, LEASE, TXBINIT, TXBEXP, TXBARR and TXBWAIT complete, where their checks pass, with exactly the effect of their rule: a copy takes its token, its sectors and its barrier and waits for its pre-walk, a lease answers its handle and status, a barrier gets its one update for the wave or for each active fibre, and TXBWAIT holds the fibres whose PHASE equals c[3:0]. -/
def Obligations.CopyInstructions : Prop :=
  ∀ e : Ext, ∀ r ∈ copyRows e, r.completes

/-- LREL of a sound handle completes whether or not the group holds the copy right: where a lease of the partition has the handle s(A)[63:32], that lease ends and pD is set in every active fibre; where none has, leases stay as they are and pD is cleared. -/
def Obligations.LeaseRelease : Prop :=
  ∀ (e : Ext) (s : State),
    let i : Issue := { issueOf 0x27 3 e e.len with compare := true, once := true }
    let s1 := s.issuedBy i
    let us := s.activeSet i
    let f := s1.fibre (us.headD 0)
    let mine (l : Lease) : Bool := l.part == f.part && l.handle == (s1.srcA f e true).val.toNat / 2 ^ 32
    Issues s i → noPoison (usesOf 0x27 3 e) s1 us →
      ((∃ l ∈ s1.leases, mine l = true) →
        exec (.lrel e) s = .next ((({ s1 with leases := s1.leases.filter fun l => !mine l }).updAll us fun g => g.setPred e.pd.toNat true).advanceCur e.len [])) ∧
      ((∀ l ∈ s1.leases, mine l = false) →
        exec (.lrel e) s = .next ((s1.updAll us fun g => g.setPred e.pd.toNat false).advanceCur e.len []))

/-- MZERO completes with v(D) to v(D + 15) zero without poison in every active fibre, every other register and everything else unchanged, the matrix engines too; its result has variable latency: it enters no fixed latency in the scoreboard. -/
def Obligations.MatrixZero : Prop :=
  fixedLatency 0x28 = none ∧
  ∀ (e : Ext) (s : State), Issues s (issueOf 0x28 3 e e.len) →
    ∃ t, exec (.mzero e) s = .next t ∧
      Retires (s.issuedBy (issueOf 0x28 3 e e.len)) t (s.activeSet (issueOf 0x28 3 e e.len)) e.len (fun f => f.setRange e.d.toNat (List.replicate 16 zeroWord)) ∧
      t.stepSets = s.stepSets ∧ t.tmmas = s.tmmas ∧ t.mxe = s.mxe ∧
      ∀ f : Fibre, mapWf zeroWord f.vregs = true → ∀ k < 16, ((f.setRange e.d.toNat (List.replicate 16 zeroWord)).v (e.d.toNat + k)) = ⟨0, false⟩ ∧
        ∀ m, m < e.d.toNat ∨ e.d.toNat + 16 ≤ m → (f.setRange e.d.toNat (List.replicate 16 zeroWord)).v m = f.v m

/-- MMA, MMAS, TMMA, MSLOT and MSTAT complete, where their checks at issue pass, with exactly the effect of their rule: MMA and MMAS enter each active fibre in the step set of the round it signed, TMMA takes its descriptors and an engine and holds its wave, or completes at once when NEXT equals the number of steps, MSLOT sets the slot for the next boundary, MSTAT answers the slot, the slot in force and the requests bound. -/
def Obligations.MatrixInstructions : Prop :=
  ∀ e : Ext, ∀ r ∈ matrixRows e, r.completes

/-- FUT.SPLIT, FUT.ENTER, FUT.COMMIT, FUT.SQUASH, FUT.STAT, FUT.WAIT.DONE, FUT.WAIT.FREE, FLIP and ICKPT complete, for a trunk fibre where they ask for one and with their operands in range, with exactly the effect of their rule. -/
def Obligations.FutureInstructions : Prop :=
  ∀ e : Ext, ∀ r ∈ futureRows e, r.completes

namespace Sys2Proof

/-- TRACE and TRACE.AH (R316, R317, R319): a ray for each active fibre, in ascending lane, until the vertical port has no room. -/
def traceRow (instr : Instr) (ah : Bool) (e : Ext) : OpRow :=
  { instr := instr, issue := issueOf 0x30 0 e e.len
    pre := fun s us => notCommit s us ∧ noPoison (readUses 0x30 0 e) s us ∧ ∀ u ∈ us, ∃ r, s.traceCheck (s.fibre u) e ah = .ok r
    post := fun s us =>
      let call := s.nextId
      let lead := us.headD 0
      sendInOrder (fun s u =>
        let f := s.fibre u
        match s.traceCheck f e ah with
        | .error _ => s
        | .ok (c, g) =>
          let id := s.nextId
          let r : Ray := { id := id, part := f.part, uid := u, lead := lead, core := f.onCore, repl := f.repl, ctx := c.idx, gen := g.num, tag := f.tag
                           words := (List.range 8).map fun k => (f.v (e.a.toNat + k)).val, ctl := s.sC f e, bound := ah, dst := e.d.toNat
                           placed := false, decisions := [], shown := false, ready := none, call := call, pc := f.pc, eng := EngineWait.idle }
          let t := ({ s with nextId := id + 1, rays := s.rays ++ [r] }).pinGen f.part c.idx g.num
          let t := if ah then t.updFibre u fun f => { f with boundRay := some id }
            else { t with pendV := t.pendV ++ (List.range 8).map fun k => (u, e.d.toNat + k) }
          t.sendDown f.part f.onCore 0 id) { s with nextId := call + 1 } us }

/-- The window of the wave's vertical port has room (R59). -/
def portOpen (s : State) (us : List Nat) : Prop :=
  (s.vport (s.fibre (us.headD 0)).part (s.fibre (us.headD 0)).onCore).full = false

/-- The ray that an active fibre is bound to, when its candidate has, or has not, been delivered. -/
def boundRays (shown : Bool) (s : State) (us : List Nat) : Prop := ∀ u ∈ us, ∃ r, s.bound? (s.fibre u) = some r ∧ r.shown = shown

/-- HITACC, HITREJ and HITEND (R318): an answer to the candidate delivered; the ray goes on. -/
def hitRow (instr : Instr) (minor answer : Nat) (e : Ext) : OpRow :=
  { instr := instr, issue := issueOf 0x30 minor e e.len, pre := fun s us => notCommit s us ∧ boundRays true s us ∧ portOpen s us
    post := fun s us => (us.foldl (fun s u =>
      match s.bound? (s.fibre u) with
      | none => s
      | some r => { s with rays := mapIf (fun (x : Ray) => x.id == r.id) (fun x => { x with shown := false, decisions := x.decisions ++ [answer] }) s.rays }) s, []) }

/-- The access that reads a view record, and a view record's bytes. -/
def viewAcc (s : State) (f : Fibre) (e : Ext) : Acc := { ea := (s.sB f e).toNat, n := 128, form := 0, acc := 1, align := 128 }

/-- TRACE to HITEND of major 0x30 (R316 to R324). -/
def rayRows (e : Ext) : List OpRow :=
  [traceRow (.trace e) false e, traceRow (.traceAh e) true e,
   { instr := .rayget e, issue := issueOf 0x30 5 e e.len, pre := fun s us => notCommit s us ∧ boundRays false s us ∧ portOpen s us
     post := fun s us => inOrder (fun s u =>
       match s.bound? (s.fibre u) with
       | none => (s, false)
       | some r =>
         match r.ready with
         | none => (s.updFibre u fun f => { f with st := .parkedHit, wait := .ray }, true)
         | some (rec, true) =>
           (((s.updFibre u fun f => f.setRange e.d.toNat (rec.map fun w => ⟨w, false⟩)).freeRay r).updFibre u fun f => { f with boundRay := none }, false)
         | some (rec, false) =>
           ((s.updFibre u fun f => f.setRange e.d.toNat (rec.map fun w => ⟨w, false⟩)).updRay r.id fun r => { r with shown := true, ready := none }, false))
       s [] us },
   hitRow (.hitacc e) 2 1 e, hitRow (.hitrej e) 3 0 e, hitRow (.hitend e) 4 2 e,
   -- BEAM with a good view record
   { instr := .beam e, issue := issueOf 0x30 1 e e.len
     pre := fun s us =>
       let f := s.fibre (us.headD 0)
       notCommit s us ∧ noPoison (readUses 0x30 1 e) s us ∧ portOpen s us ∧ ∃ ps ws v c g rows,
         s.place f (viewAcc s f e) = .ok (ps, ws) ∧ (s.plainPieces f ps).2 = false ∧ parseView (s.plainPieces f ps).1 = some v ∧
         bits (s.sC f e).toNat 40 2 ≠ 3 ∧ (s.keepWalks f ws).useGen f (s.sA f e) none = .ok (c, g) ∧
         (s.keepWalks f ws).beamRows f v (s.sC f e) 0 8 = .ok rows
     post := fun s us =>
       let f := s.fibre (us.headD 0)
       orSame (s.place f (viewAcc s f e)) s us fun (ps, ws) =>
         let t := s.keepWalks f ws
         match parseView (s.plainPieces f ps).1, t.useGen f (s.sA f e) none with
         | some v, .ok (c, g) =>
           orSame (t.beamRows f v (s.sC f e) 0 8) s us fun rows =>
             let t1 := { t with nextId := t.nextId + 1 }
             (t1.queueBeam e f us c g rows (t1.tileRays f.part v (s.sC f e) c g) t.nextId, [])
         | _, _ => (s, us) },
   -- BEAM whose view record carries a memory-error mark: its token is poisoned
   { instr := .beam e, issue := issueOf 0x30 1 e e.len
     pre := fun s us =>
       let f := s.fibre (us.headD 0)
       notCommit s us ∧ noPoison (readUses 0x30 1 e) s us ∧ ∃ ps ws, s.place f (viewAcc s f e) = .ok (ps, ws) ∧ (s.plainPieces f ps).2 = true
     post := fun s us => (s.setS (s.fibre (us.headD 0)).groupId e.d.toNat ⟨0, true⟩, []) }]

/-- A texture descriptor that TEX and TEXG take: valid, its width a multiple of 8 for an atlas, or one that carries a mark (R329). -/
def descGood (atl : Bool) (desc : Nat) (bad : Bool) : Prop := bad = true ∨ ∃ t, parseTex desc = some t ∧ (atl = true → t.w % 8 = 0)

/-- TEX and TEXG (R329 to R333): a request for each active fibre, in ascending lane. -/
def texRow (instr : Instr) (minor : Nat) (e : Ext) : OpRow :=
  { instr := instr, issue := issueOf 0x31 minor e e.len
    pre := fun s us =>
      let f := s.fibre (us.headD 0)
      notCommit s us ∧ noPoison (readUses 0x31 minor e) s us ∧ ∃ desc bad t, s.readTex f (s.sB f e).toNat = .ok (desc, bad, t) ∧
        descGood (e.mod.getLsbD 1) desc bad
    post := fun s us =>
      let lead := s.fibre (us.headD 0)
      orSame (s.readTex lead (s.sB lead e).toNat) s us fun (desc, bad, t) =>
        let call := t.nextId
        sendInOrder (fun s u =>
          let f := s.fibre u
          let id := s.nextId
          let n := if e.mod.getLsbD 0 || e.mod.getLsbD 1 then 3 else 2
          let g : Gather := { id := id, uid := u, lead := lead.uid, part := f.part, core := f.onCore, repl := f.repl, minor := minor, mod := e.mod, dst := e.d.toNat
                              coords := (List.range n).map fun k => (f.v (e.a.toNat + k)).val, desc := desc, bad := bad, sampler := s.sC f e, tag := f.tag
                              placed := false, call := call, pc := f.pc, eng := EngineWait.idle }
          ({ s with nextId := id + 1, gathers := s.gathers ++ [g], pendV := s.pendV ++ (List.range 4).map fun k => (u, e.d.toNat + k) }).sendDown
            f.part f.onCore 1 id) { t with nextId := call + 1 } us }

/-- TEX, TEXG and TEXQ (R329 to R332). -/
def textureRows (e : Ext) : List OpRow :=
  [texRow (.tex e) 0 e, texRow (.texg e) 1 e,
   { instr := .texq e, issue := issueOf 0x31 2 e e.len
     pre := fun s us =>
       let f := s.fibre (us.headD 0)
       notCommit s us ∧ noPoison (readUses 0x31 2 e) s us ∧ portOpen s us ∧ ∃ desc t x, s.readTex f (s.sB f e).toNat = .ok (desc, false, t) ∧ parseTex desc = some x
     post := fun s us =>
       let lead := s.fibre (us.headD 0)
       orSame (s.readTex lead (s.sB lead e).toNat) s us fun (desc, _, t) =>
         match parseTex desc with
         | none => (s, us)
         | some x => (us.foldl (fun s u =>
             let l := s.operandC (s.fibre u) e
             s.updFibre u fun f => f.setRange e.d.toNat (if x.mips < l then List.replicate 4 zeroWord
               else [x.lw l, x.lh l, x.mips + 1, x.fmt].map fun y => ⟨BitVec.ofNat 32 y, false⟩)) t, []) },
   { instr := .texq e, issue := issueOf 0x31 2 e e.len
     pre := fun s us =>
       let f := s.fibre (us.headD 0)
       notCommit s us ∧ noPoison (readUses 0x31 2 e) s us ∧ portOpen s us ∧ ∃ t, s.readTex f (s.sB f e).toNat = .ok (0, true, t)
     post := fun s us =>
       let lead := s.fibre (us.headD 0)
       orSame (s.readTex lead (s.sB lead e).toNat) s us fun (_, _, t) =>
         (us.foldl (fun s u => s.updFibre u fun f => f.setRange e.d.toNat (List.replicate 4 ⟨0, true⟩)) t, []) }]

/-- ATLREQ and ATLMAP (R325 to R328), with room in the vertical port and no request in it that the CVU has not accepted: the AtlasOps of the active
fibres, each after the ones before it; a fibre whose push finds the port full waits, and every later one with it. -/
def atlasRow (instr : Instr) (minor : Nat) (insert : Bool) (e : Ext) : OpRow :=
  { instr := instr, issue := { issueOf 0x32 minor e e.len with once := true, take := if insert then takeAtlas e else fun s _ _ => s }
    pre := fun s us => notCommit s us ∧ noPoison (readUses 0x32 minor e) s us ∧ portOpen s us ∧
      ((s.vport (s.fibre (us.headD 0)).part (s.fibre (us.headD 0)).onCore).window.any fun x => x.1 == 2) = false ∧ ∃ r, atlasAll e insert (s.sB (s.fibre (us.headD 0)) e).toNat s us = .ok r
    post := fun s us => orSame (atlasAll e insert (s.sB (s.fibre (us.headD 0)) e).toNat s us) s us fun r => r }

def atlasRows (e : Ext) : List OpRow := [atlasRow (.atlreq e) 0 true e, atlasRow (.atlmap e) 1 false e]

end Sys2Proof

/-- TRACE, TRACE.AH, RAYGET, HITACC, HITREJ, HITEND and BEAM complete with exactly the effect of their rule where no tag is COMMITTING, no operand is poisoned and their own checks pass: TRACE pins the generation and hands a ray down for each active fibre, RAYGET takes what the bound ray has ready or parks the fibre, the three answers decide the candidate delivered, BEAM reads its view record, pins, and queues the tile; a view record with a memory-error mark poisons the token. -/
def Obligations.RayInstructions : Prop :=
  ∀ e : Ext, ∀ r ∈ rayRows e, r.completes

/-- TEX, TEXG, TEXQ, ATLREQ and ATLMAP complete with exactly the effect of their rule where no tag is COMMITTING, no operand is poisoned and the descriptor is valid: TEX and TEXG hand a request down for each active fibre, TEXQ writes width, height, level count and format of the level (zeros past the last), poisoned registers where the descriptor carries a mark, ATLREQ and ATLMAP perform their AtlasOps in ascending lane. -/
def Obligations.TextureInstructions : Prop :=
  ∀ e : Ext, (∀ r ∈ textureRows e, r.completes) ∧ ∀ r ∈ atlasRows e, r.completes

/-- VERTICAL_ENTRY_ARRIVAL puts the oldest request whose engine is not backing off in its engine, or backs that engine off where it refuses, as the TRU does when its slots are full; VERTICAL_PORT_RESEND ends a back-off; RAY_TRAVERSAL_END writes the record of a ray whose traversal ends, RAY_CANDIDATE_READY presents the next candidate; BEAM_COMPLETE reads the nodes of the tile, and then writes the entries and, its fibres’ writes released, the hit count to the token; GATHER_RESULT_RETURN writes the filtered texels. Each with exactly that effect, where it is enabled. -/
def Obligations.RenderEvents : Prop :=
  (∀ (s : State) (part core engine id : Nat),
    let p := s.vport part core
    let again (t : State) : State := if (t.vport part core).window.any (fun x => !(t.vport part core).waits x.1) then t.post (.verticalEntryArrival part core) else t
    p.window.find? (fun x => !p.waits x.1) = some (engine, id) → engine ≤ 3 →
    let t : State := if engine = 0 then s else { s with free := s.free + 1 }
    (engine = 0 → (s.refuses part core engine id = true ↔ (s.rays.any fun r => r.id == id) = true ∧ 1024 ≤ s.raySlots part core)) ∧
    (s.refuses part core engine id = false →
      exec (.verticalEntryArrival part core) s = .next (again (let t := t.setVport { p with
          window := p.window.erase (engine, id), backoff := p.backoff.filter fun b => b.1 != engine }
        if engine = 3 then t.post (.copyPrewalkDone id) else { t with
          rays := mapIf (fun (r : Ray) => engine == 0 && r.id == id) (fun r => { r with placed := true }) t.rays
          gathers := mapIf (fun (g : Gather) => engine == 1 && g.id == id) (fun g => { g with placed := true }) t.gathers
          beams := mapIf (fun (b : Beam) => engine == 2 && b.id == id) (fun b => { b with placed := true }) t.beams }))) ∧
    (s.refuses part core engine id = true →
      ∃ k, (k = ((p.backoff.find? fun b => b.1 == engine).map fun b => b.2.1).getD 0 + 1) ∧
      exec (.verticalEntryArrival part core) s = .next (again ((t.setVport { p with
        backoff := (engine, k, some (s.clock + backoffClocks k)) :: p.backoff.filter fun b => b.1 != engine }).timer (s.clock + backoffClocks k)
          (.verticalPortResend p.part p.core engine))))) ∧
  (∀ (s : State) (part core engine k due : Nat), (engine, k, some due) ∈ (s.vport part core).backoff → due ≤ s.clock →
    exec (.verticalPortResend part core engine) s = .next ((s.setVport { s.vport part core with
      backoff := (s.vport part core).backoff.map fun b => if b.1 = engine then (b.1, b.2.1, none) else b }).post (.verticalEntryArrival part core))) ∧
  (∀ (s : State) (id : Nat) (r : Ray), s.rays.find? (fun x => x.id == id) = some r → s.rayRuns r = true →
    s.arenaReads (s.onBehalf r.uid r.tag r.eng) (s.traverseRay r).seen = (.data [] false, s) →
    ((s.traverseRay r).shown = none → r.bound = true →
      exec (.rayTraversalEnd id) s = .next ((s.updRay r.id fun x => { x with ready := some ((s.traverseRay r).record r.gen, true) }).updFibre r.uid fun f =>
        if f.wait == .ray then f.retry else f)) ∧
    ((s.traverseRay r).shown = none → r.bound = false →
      exec (.rayTraversalEnd id) s = .next ((let t := (s.freeRay r).updFibre r.uid (fun f => if f.live then f.setRange r.dst (((s.traverseRay r).record r.gen).map fun w => ⟨w, false⟩) else f); { t with pendV := t.pendV.filter fun x => !(x.1 == r.uid && r.dst ≤ x.2 && x.2 < r.dst + 8) }).retryPending r.part)) ∧
    (∀ h, (s.traverseRay r).shown = some h →
      exec (.rayCandidateReady id) s = .next ((s.updRay r.id fun x => { x with ready := some (hitRecord h 0 x.gen false, false) }).updFibre r.uid fun f =>
        if f.wait == .ray then f.retry else f))) ∧
  (∀ (s t : State) (id : Nat) (b : Beam) (bad : Bool), s.beams.find? (fun x => x.id == id && x.placed && x.eng.wait == .none) = some b → b.got = none →
    s.arenaReads (s.onBehalf b.uid b.tag b.eng) b.reads = (.data [] bad, t) →
    exec (.beamComplete id) s = .next ((t.updBeam id fun x => { x with got := some !bad }).finishBeam { b with got := some !bad })) ∧
  (∀ (s t : State) (id : Nat) (b : Beam), s.beams.find? (fun x => x.id == id && x.placed && x.eng.wait == .none) = some b → b.got = some true →
    s.allAcked b.uids = true → s.beamWays b = some t →
    let w := (b.rows.zip b.data).foldl (fun s (r, d) =>
      if s.engineWrites b.part b.pipe b.repl r.2.key then
        (List.range 8).foldl (fun s i => s.homeWrite b.part b.tag { r.2 with key := r.2.key + 16 * i } ((d.drop (16 * i)).take 16)) (s.noteEngineWrite b.uids r.2.key)
      else s) t
    let v := ({ w with beams := w.beams.filter fun x => x.id != b.id }).unpinGen b.part b.ctx b.gen
    exec (.beamComplete id) s = .next ((b.uids.foldl (fun s u => s.release (s.fibre u)) v).writeToken
      ⟨b.part, b.grp, b.repl⟩ b.token ⟨BitVec.ofNat 64 b.hits, false⟩)) ∧
  ∀ (s t : State) (id : Nat) (g : Gather) (x : Tex) (xs : List ((Nat × Nat × Nat) × Option (List FV))),
    s.gathers.find? (fun y => y.id == id) = some g → s.gatherRuns g = true → g.bad = false → parseTex g.desc = some x →
    let plan := texPlan x (g.minor = 1) (g.mod.getLsbD 1) g.sampler g.coords
    s.readTexels g x ((plan.map fun p => p.reads (g.minor = 1)).getD []).eraseDups = (xs, none, t, none) →
    exec (.gatherResultReturn id) s = .next ((({ t with
        gathers := t.gathers.filter fun y => y.id != id, pendV := t.pendV.filter fun (y : Nat × Nat) => !(y.1 == g.uid && g.dst ≤ y.2 && y.2 < g.dst + 4) }).updFibre g.uid fun f =>
      if f.live then f.setRange g.dst (texResult (g.minor = 1) (bits g.mod.toNat 2 2) plan fun q => (xs.find? (fun (y : (Nat × Nat × Nat) × Option (List FV)) => y.1 == q)).bind fun y => y.2) else f).retryPending g.part)

namespace Sys2Proof

/-- BLD.BUILD, BLD.REFIT and BLD.REBAL (R339, R343, R354): a job is queued and its token is pending; a descriptor with a memory-error mark gives a
poisoned token. -/
def jobRows (instr : Instr) (kind : Nat) (e : Ext) : List OpRow :=
  let i : Issue := { issueOf 0x34 kind e e.len with once := true, take := takeJob e }
  let acc (s : State) (f : Fibre) : Acc := { ea := (s.sA f e).toNat, n := 64, form := 0, acc := 1, align := 64 }
  let common (s : State) (us : List Nat) : Prop := notCommit s us ∧ noPoison (readUses 0x34 kind e) s us
  [{ instr := instr, issue := i
     pre := fun s us =>
       let f := s.fibre (us.headD 0)
       common s us ∧ ∃ ps ws, s.place f (acc s f) = .ok (ps, ws) ∧ (s.plainPieces f ps).2 = false ∧
         jobDescOk (ofLeBytes (s.plainPieces f ps).1) kind f.tag = true
     post := fun s us =>
       let f := s.fibre (us.headD 0)
       orSame (s.place f (acc s f)) s us fun (ps, ws) =>
         let t := s.keepWalks f ws
         let d := (s.plainPieces f ps).1
         let id := t.nextId
         let j : Job := { id := id, part := f.part, pipe := f.pipe, uids := us, grp := f.cur, repl := f.repl, token := e.d.toNat, kind := kind
                          desc := wordsOfBytes d, ctx := (jobDesc (ofLeBytes d)).handle % 1024, fresh := false, tag := f.tag, addr := (s.sA f e).toNat
                          pc := f.pc, eng := EngineWait.idle, growWait := false, refused := false }
         let t := ({ t with nextId := id + 1, jobs := t.jobs ++ [j] }).updGroup f.groupId fun g => { g with pend := g.pend ++ [(e.d.toNat, none)] }
         (t.updAll us fun f => { f with info := [0, 0, 0, id] }, []) },
   { instr := instr, issue := i
     pre := fun s us =>
       let f := s.fibre (us.headD 0)
       common s us ∧ ∃ ps ws, s.place f (acc s f) = .ok (ps, ws) ∧ (s.plainPieces f ps).2 = true
     post := fun s us =>
       let f := s.fibre (us.headD 0)
       orSame (s.place f (acc s f)) s us fun (_, ws) => ((s.keepWalks f ws).setS f.groupId e.d.toNat ⟨0, true⟩, []) }]

/-- A job on the structure is not done for the fibre's tag (R355): one that made it or whose handle names it. -/
def busyFor (s : State) (f : Fibre) (c : StructCtx) : Bool :=
  s.jobs.any fun j => j.part == c.part && j.ctx == c.idx && (j.fresh || j.d.handle == c.handle) && s.genTag j.part j.tag c.top == s.genTag f.part f.tag c.top

/-- Major 0x34 (R337 to R358). -/
def builderRows (e : Ext) : List OpRow :=
  jobRows (.bldBuild e) 0 e ++ jobRows (.bldRefit e) 1 e ++ jobRows (.bldRebal e) 2 e ++
  [{ instr := .bldPub e, issue := { issueOf 0x34 3 e e.len with compare := true, once := true }
     pre := fun s us => notCommit s us ∧ noPoison (readUses 0x34 3 e) s us ∧ acked 4 s us ∧
       ∀ c, (released s us).structOf ((released s us).fibre (us.headD 0)).part ((released s us).sA ((released s us).fibre (us.headD 0)) e) = some c →
         busyFor (released s us) ((released s us).fibre (us.headD 0)) c = false
     post := fun s us =>
       let t := released s us
       let f := t.fibre (us.headD 0)
       let done (t : State) (gen status : Nat) : State × List Nat := (t.setS f.groupId e.d.toNat ⟨BitVec.ofNat 64 (gen * 2 ^ 32 + status), false⟩, [])
       match t.structOf f.part (t.sA f e) with
       | none => done t 0 2
       | some c =>
         let tag := t.genTag f.part f.tag c.top
         match c.staged.find? fun x => x.1 == tag with
         | none => done t 0 1
         | some x => if c.maxGen = 2 ^ 32 - 1 then done t 0 3 else done (t.publish f.part c tag x.2) (c.maxGen + 1) 0 },
   { instr := .bldPin e, issue := { issueOf 0x34 4 e e.len with once := true, take := takeGen }
     pre := fun s us => notCommit s us ∧ noPoison (readUses 0x34 4 e) s us
     post := fun s us =>
       let f := s.fibre (us.headD 0)
       let t := s.acquire f 4
       let done (t : State) (gen status : Nat) : State × List Nat := (t.setS f.groupId e.d.toNat ⟨BitVec.ofNat 64 (gen * 2 ^ 32 + status), false⟩, [])
       match (t.structOf f.part (t.sA f e)).bind fun c => (t.currentGen f.part f.tag c).map fun g => (c, g) with
       | none => done t 0 1
       | some (c, g) => if 256 ≤ (t.pipeOf f).pins.length then done t 0 2
         else done (t.updPipe f.part f.pipe fun p => { p with pins := p.pins ++ [(c.idx, g.num)] }) g.num 0 },
   { instr := .bldUnpin e, issue := { issueOf 0x34 5 e e.len with once := true }
     pre := fun s us => notCommit s us ∧ noPoison (readUses 0x34 5 e) s us
     post := fun s us =>
       let f := s.fibre (us.headD 0)
       let n := (s.sB f e).toNat % 2 ^ 32
       match s.structOf f.part (s.sA f e) with
       | none => (s.setPredAll us e.pd.toNat false, [])
       | some c => if (s.pipeOf f).pins.contains (c.idx, n) then
           (((s.updPipe f.part f.pipe fun p => { p with pins := p.pins.erase (c.idx, n) }).checkReclaim f.part c.idx n).setPredAll us e.pd.toNat true, [])
         else (s.setPredAll us e.pd.toNat false, []) },
   { instr := .bldGen e, issue := { issueOf 0x34 6 e e.len with once := true, take := takeGen }
     pre := fun s us => notCommit s us ∧ noPoison (readUses 0x34 6 e) s us
     post := fun s us =>
       let f := s.fibre (us.headD 0)
       let x : Nat := match s.structOf f.part (s.sA f e) with
         | none => 1
         | some c =>
           let gen := s.currentGen f.part f.tag c
           ((gen.map fun g => g.num).getD 0) * 2 ^ 32 + (if c.staged.any fun x => x.1 == s.genTag f.part f.tag c.top then 2 ^ 31 else 0) +
             (if busyFor s f c then 2 ^ 30 else 0) + ((gen.map fun g => min 65535 (g.pins + s.otherPins f.part c.idx g.num)).getD 0) * 2 ^ 8
       ((s.acquire f 4).setS f.groupId e.d.toNat ⟨BitVec.ofNat 64 x, false⟩, []) },
   { instr := .bldQual e, issue := { issueOf 0x34 7 e e.len with once := true, take := takeGen }
     pre := fun s us => notCommit s us ∧ noPoison (readUses 0x34 7 e) s us
     post := fun s us =>
       let f := s.fibre (us.headD 0)
       let g := (s.structOf f.part (s.sA f e)).bind fun c => (s.currentGen f.part f.tag c).map fun g => g.data
       let x : DWord := (g.map fun g => g.overlap ++ g.sah).getD 0
       let y : DWord := (g.map fun g => BitVec.ofNat 64 (g.refits * 2 ^ 32 + g.degen % 2 ^ 32)).getD 0
       (((s.acquire f 4).setS f.groupId e.d.toNat ⟨x, false⟩).setS f.groupId (e.d.toNat + 1) ⟨y, false⟩, []) }]

/-- SIGRD, to a pair and to an s-register, and SIGCHK (R375, R376). -/
def signatureRows (e : Ext) : List OpRow :=
  [{ instr := .sigrd e, issue := issueOf 0x36 0 e e.len
     post := fun s us => if e.dk then (s.setS (s.fibre (us.headD 0)).groupId e.d.toNat ⟨(s.fibre (us.headD 0)).sig, false⟩, [])
       else (eachDo (fun _ f => f.setPair e.d.toNat ⟨f.sig, false⟩) s us, []) },
   { instr := .sigchk e, issue := { issueOf 0x36 1 e e.len with compare := true }, post := fun s us => (s.updAll us fun f => f.setPred e.pd.toNat true, []) }]

/-- REP (R187): the repeats of the instruction that follows begin, or go on where a wait interrupted them. -/
def repRow (r : RepWord) : OpRow :=
  { instr := .rep r, issue := issueOf 0 1 (plainExt r.stall) 4
    pre := fun s us =>
      let f := s.fibre (us.headD 0)
      f.repcnt ≤ r.cnt.toNat + 1 ∧ ∃ ws walks, s.fetchInstr f (f.pc.toNat + 4) = .ok (ws, walks) ∧ repAllows r ws = true
    post := fun s us =>
      let f := s.fibre (us.headD 0)
      orSame (s.fetchInstr f (f.pc.toNat + 4)) s us fun (ws, walks) =>
        ((s.keepWalks f walks).updAll us fun f =>
          { f with repLive := true, repLen := 4 * ws.length, repcnt := if f.repcnt = 0 then r.cnt.toNat + 1 else f.repcnt }, us) }

end Sys2Proof

/-- BLD.BUILD, BLD.REFIT, BLD.REBAL, BLD.PUB, BLD.PIN, BLD.UNPIN, BLD.GEN and BLD.QUAL complete with exactly the effect of their rule: a job is queued under its token, a publication answers the new generation or a status, a pin counts the current generation, BLD.GEN and BLD.QUAL report the fields of R357 and R358 for the current generation of the fibre's tag (or zeros, and 1). -/
def Obligations.BuilderInstructions : Prop :=
  ∀ e : Ext, ∀ r ∈ builderRows e, r.completes

/-- SIGRD writes the fibre's signature, to a pair of each active fibre or to an s-register from the lowest; SIGCHK, in agreement, sets pD in every active fibre; REP fetches the instruction it prefixes, checks it, and sets the repeat count where no repeat is under way. -/
def Obligations.SignatureAndRepeat : Prop :=
  ∀ (e : Ext) (r : RepWord), (∀ x ∈ signatureRows e, x.completes) ∧ (repRow r).completes

namespace Sys2Proof

/-- The word that a job writes to its token (R343). -/
def jobAnswer (handle status : Nat) (reb : Bool) : PDWord := ⟨BitVec.ofNat 64 (handle * 2 ^ 32 + (if reb then 256 else 0) + status), false⟩
/-- A job whose result meets a place of the arena that waits or fails (R338, R343). -/
def notWritten (w : Fetched × State) (j : Job) (handle : Nat) : Host.Outcome State Fault Refusal :=
  match w.1 with
  | .waits p => .next (w.2.updJob j.id fun j => { j with eng := { j.eng with wait := p } })
  | .fails t => .next (w.2.failRead j handle t)
  | .stops x => .fault x
  | .data .. => .next w.2
/-- The job leaves the queue, its issuers' writes are released, and its token is written (R99, R346). -/
def jobEnds (s : State) (j : Job) (x : PDWord) : State := (({ s with jobs := s.jobs.filter fun y => y.id != j.id }).releaseFor j.uids).jobToken j x

end Sys2Proof

/-- BUILD_JOB_COMPLETE, for a job whose turn has come: with HANDLE 0 it takes the lowest free context, or ends with status 7; a full build whose input has been read and whose result fits its arena writes the new nodes to its arena, stages the result and answers (HANDLE, 0), waiting for an arena page that is absent; a read or an arena page that fails ends it with a record and status 4. ARENA_EXTENSION_SERVICE grows the arena by its original size or notes the refusal. GENERATION_RECLAIM_COMPLETE ends a RECLAIMING generation. -/
def Obligations.BuilderEvents : Prop :=
  (∀ (s : State) (id : Nat) (j : Job), s.jobs.find? (fun x => x.id == id) = some j → s.jobRuns j = true →
    (j.d.handle = 0 → j.fresh = false → j.d.free = false →
      (∀ k, s.freeStructIdx j.part = some k → exec (.buildJobComplete id) s = .next (s.newStruct j k)) ∧
      (s.freeStructIdx j.part = none → exec (.buildJobComplete id) s = .next (jobEnds s j (jobAnswer 0 7 false)))) ∧
    ∀ c, (j.d.handle = 0 → j.fresh = true) → (if j.fresh then s.structCtx j.part j.ctx else s.structOf j.part (BitVec.ofNat 64 j.d.handle)) = some c →
      j.d.free = false → j.kind = 0 →
      let x := if c.top then s.readInstances (s.onBehalf (j.uids.headD 0) j.tag j.eng) j.d else s.readGeometries (s.onBehalf (j.uids.headD 0) j.tag j.eng) j.d
      let r := x.1
      let live := (List.range r.items.length).filter fun k => ((r.items[k]?).map fun y => y.bad.isNone).getD false
      let g := genDataOf r.items (if live = [] then [] else newTree r.items (r.items.length + 1) 0 (List.range r.items.length)) x.2 c.top 0 none
      let tag := r.s.genTag j.part j.tag c.top
      (∀ t, r.halt = some (.fails t) → j.d.strict = false → exec (.buildJobComplete id) s = .next (r.s.failRead j c.handle t)) ∧
      (r.halt = none → (j.d.strict = true → ∀ y ∈ r.items, y.bad = none) → Config.arenaNeed (c.footprint g).1 (c.footprint g).2 ≤ c.size →
        let g' : GenData := { g with nodes := numberNodes (r.s.nextId + 1) g.nodes }
        let new := (g'.nodes.map fun b => b.id).filter fun k => decide (r.s.nextId < k)
        let w := r.s.writeNodes (r.s.onBehalf (j.uids.headD 0) j.tag j.eng) c new
        (w.1 = .data [] false →
          exec (.buildJobComplete id) s = .next (jobEnds (({ w.2 with nextId := w.2.nextId + 1 + g.nodes.length }.dropStaged j.part c.idx fun x => x == tag).updStruct
            j.part c.idx fun c => { c with staged := c.staged ++ [(tag, g')] }) j (jobAnswer c.handle 0 false))) ∧
        (w.1 ≠ .data [] false → exec (.buildJobComplete id) s = notWritten w j c.handle))) ∧
  (∀ (s : State) (id : Nat) (j : Job), s.jobs.find? (fun x => x.id == id && x.growWait) = some j →
    exec (.arenaExtensionService id true) s = .next ((s.updJob id fun j => { j with growWait := false, refused := false }).updStruct j.part j.ctx fun c =>
      { c with size := c.size + c.original, extensions := c.extensions + 1 }) ∧
    exec (.arenaExtensionService id false) s = .next (s.updJob id fun j => { j with growWait := false, refused := true })) ∧
  ∀ (s : State) (part ctx gen : Nat) (g : Gen), s.genOf part ctx gen = some g → g.state = 3 →
    exec (.generationReclaimComplete part ctx gen) s =
      .next ((g.data.insts.filter fun r => r.w2o != []).foldl (fun s r => s.checkReclaim part r.ctx r.gen) (s.updGen part ctx gen fun g => { g with state := 4 }))

namespace Sys2Proof

/-- A copy ends: its fibres' writes are released, and its token takes the number of sectors (R99, R258). -/
def copyEnds (s : State) (c : Copy) : State :=
  (({ s with copies := s.copies.filter fun x => x.id != c.id }).releaseFor c.uids).writeToken ⟨c.part, c.grp, c.repl⟩ c.token ⟨BitVec.ofNat 64 c.total, false⟩

end Sys2Proof

/-- COPY_PREWALK_DONE lets the copy's wave go on past it and starts the transfer; COPY_SECTOR_LAND writes one sector where it finds its way, and after the last one, the stores of its fibres acknowledged, releases their writes and writes the token with the number of sectors; ENGINE_WAY_TIMEOUT fails a copy that has waited 2^20 clocks for a way; LEASE_EXPIRE ends the leases whose clock has come; MATRIX_STEP and TSQ_STEP run the step that is picked; MXE_SLOT_BOUNDARY makes slot writes effective and lets engines look again. -/
def Obligations.CopyAndMatrixEvents : Prop :=
  (∀ (s : State) (id : Nat) (c : Copy), s.copy? id = some c → c.started = false →
    let t : State := { s with fibres := mapIf (fun (f : Fibre) => f.wait == Wait.prewalk id) Fibre.continues s.fibres
                              copies := mapIf (fun (x : Copy) => x.id == id) (fun x => { x with started := true }) s.copies }
    (c.left ≠ [] → exec (.copyPrewalkDone id) s = .next (t.post (.copySectorLand id c.next))) ∧
    (c.left = [] → t.allAcked c.uids = true → exec (.copyPrewalkDone id) s = .next (copyEnds t c)) ∧
    (c.left = [] → t.allAcked c.uids = false → exec (.copyPrewalkDone id) s = .next t)) ∧
  (∀ (s t : State) (id sector : Nat) (c : Copy) (x : CopySector), s.copy? id = some c → c.started = true →
    (c.rel = true ∨ c.txb.isSome = true → s.allAcked c.uids = true) → (s.preread c).find? (fun y => y.idx == sector) = some x →
    let d : Copy := { c with left := s.preread c }
    let s1 := s.updCopy id fun _ => d
    let tag := if x.dst.vers then s1.writeTag c.part c.tag else 0
    s1.engineWay c.part tag x.dst = some t →
    ∀ c', (t.landSector d x).copy? id = some c' →
    (c'.left ≠ [] → exec (.copySectorLand id sector) s = .next ((t.landSector d x).post (.copySectorLand id c'.next))) ∧
    (c'.left = [] → (t.landSector d x).allAcked c'.uids = true → exec (.copySectorLand id sector) s = .next (copyEnds (t.landSector d x) c')) ∧
    (c'.left = [] → (t.landSector d x).allAcked c'.uids = false → exec (.copySectorLand id sector) s = .next (t.landSector d x))) ∧
  (∀ (s : State) (id k : Nat) (c : Copy), s.copies.find? (fun (c : Copy) => c.id == id && wayExpired s.clock c.stuck) = some c → c.stuck = some k →
    k + 2 ^ 20 ≤ s.clock ∧ ∃ t, exec (.engineWayTimeout id) s = .next t ∧
      t = ({ s.wayRec c.part c.pipe c.repl (c.uids.headD 0) c.tag ((c.left.map fun x => x.dst.key).headD 0) with
        copies := (s.wayRec c.part c.pipe c.repl (c.uids.headD 0) c.tag ((c.left.map fun x => x.dst.key).headD 0)).copies.filter fun x => x.id != c.id } : State).writeToken ⟨c.part, c.grp, c.repl⟩ c.token ⟨0, true⟩) ∧
  (∀ (s : State) (part handle : Nat), exec (.leaseExpire part handle) s =
    .next { s with leases := s.leases.filter fun l => !(l.part == part && l.handle == handle && l.expiry ≤ s.clock) }) ∧
  (∀ (s : State) (part core engine : Nat) (r : MatReq), s.pickStep part core engine = some r →
    (r.tile = false → ∀ x, s.stepSets.find? (fun y => y.id == r.id) = some x →
      exec (.matrixStep part core engine) s = .next ((s.runSet x).timer ((s.runSet x).clock + 12) (.matrixStep part core engine))) ∧
    (r.tile = true → exec (.matrixStep part core engine) s = .next (s.post (.tsqStep part core engine))) ∧
    (r.tile = true → ∀ x, s.tmmas.find? (fun y => y.id == r.id) = some x →
      exec (.tsqStep part core engine) s = .next ((s.runTile x).timer ((s.runTile x).clock + 12) (.matrixStep part core engine))) ∧
    (r.tile = false → exec (.tsqStep part core engine) s = .next (s.post (.matrixStep part core engine)))) ∧
  (∀ (s : State) (part core engine : Nat), s.pickStep part core engine = none →
    (s.bound part core engine = [] → exec (.matrixStep part core engine) s = .next s ∧ exec (.tsqStep part core engine) s = .next s) ∧
    (s.bound part core engine ≠ [] → exec (.matrixStep part core engine) s = .next s.watchSlots ∧ exec (.tsqStep part core engine) s = .next s.watchSlots)) ∧
  ∀ s : State,
    (let t := s.applySlots.overrunSlots
     exec .mxeSlotBoundary s = .next (((t.stepSets.filterMap fun x => x.bound.map fun b => (x.part, x.core, b.1)) ++
       t.tmmas.map fun t => (t.part, t.core, t.engine)).foldl (fun s x => s.kick x.1 x.2.1 x.2.2) t)) ∧
    (s.stepSets = [] → s.tmmas = [] → exec .mxeSlotBoundary s = .next { s with
      mxe := (s.mxe.map fun m => match m.next with
        | none => m
        | some (h, x) => if h = 0 ∨ (s.pipe m.part h).runs = true then { m with handle := h, excl := x, next := none }
            else { m with handle := 0, excl := false, next := none }).filter fun m => m.handle != 0 || m.excl })

/-- SQUASH_DRAIN_COMPLETE makes a SQUASHED tag RECLAIMING; TAG_RECLAIM_COMPLETE makes a RECLAIMING tag FREE, drops its lines, and ends the waits for it; FUTURE_COMMIT_POINT, for a COMMITTING tag with nothing outstanding, releases what its fibres and those that commit have written, merges its versions into its parent, makes its flips pending, moves its fibres and requests to the trunk, gives its generations to the parent, marks the tags of its set with the winner, answers 0x100 to its FUT.COMMIT, and squashes the LIVE tags that are still of its set; SINK_SLOT_START latches written registers, makes the pending record current, and sets the next slot. An event that is not enabled changes nothing. -/
def Obligations.FutureEvents : Prop :=
  (∀ (s : State) (t : Nat),
    ((s.tagRec t).state = 3 → exec (.squashDrainComplete t) s = .next ((s.updTag t fun r => { r with state := 4 }).post (.tagReclaimComplete t))) ∧
    ((s.tagRec t).state ≠ 3 → exec (.squashDrainComplete t) s = .next s) ∧
    ((s.tagRec t).state = 4 → exec (.tagReclaimComplete t) s =
      .next ((({ s with verLines := s.verLines.filter fun v => v.tag != t }).updTag t fun _ => TagRec.reset).tagEvent fun w => w == Wait.tagFree t)) ∧
    ((s.tagRec t).state ≠ 4 → exec (.tagReclaimComplete t) s = .next s) ∧
    (¬ ((s.tagRec t).state = 2 ∧ s.commitReady t = true) → exec (.futureCommitPoint t) s = .next s) ∧
    ((s.tagRec t).state = 2 → s.commitReady t = true →
      let r := s.tagRec t
      let p := s.parentTag t
      let mates := (List.range 64).filter fun i => (s.tagRec i).state != 0 && (s.tagRec i).part == r.part && (s.tagRec i).set == r.set && r.set.getLsbD i
      let writers := s.fibres.filter fun f => (f.live && f.wait == Wait.commit t) || (f.part == r.part && f.tag == t)
      let s1 := r.flips.foldl (fun s x => s.makePending r.part x.1 x.2) ((writers.foldl (fun s f => s.release f) s).mergeVersions r.part t p)
      let movers := s1.fibres.filter fun f => f.part == r.part && f.tag == t && f.live
      let s2 := (movers.foldl (fun s f => s.selfInval (s.coreOf f)) (s1.retag r.part t)).commitGens r.part t p
      let ends (x : TagRec × Nat) : TagRec :=
        if mates.contains x.2 then
          { x.1 with winner := t, cmt := x.2 == t, state := if x.2 = t then 4 else x.1.state, flips := if x.2 = t then [] else x.1.flips
                     answer := if x.2 = t then none else x.1.answer }
        else x.1
      let s3 : State := { s2 with tags := (s2.tags.zip (List.range s2.tags.length)).map ends }
      let s4 := match r.answer with
        | some (i, n) => (s3.updGroup i fun g => { g.setS n ⟨0x100, false⟩ with pend := g.pend.filter fun x => x != (n, none) }).retryPending r.part
        | none => s3
      let s5 := s4.tagEvent fun w => w == Wait.commit t || w == Wait.tagDone t
      exec (.futureCommitPoint t) s = .next ((mates.foldl (fun s i => if i ≠ t ∧ s.tagState r.part i = 1 then s.squash i else s) s5).post
        (.tagReclaimComplete t)))) ∧
  ∀ (s : State) (k : Nat), k < 20 →
    (((s.sink k).mode.getLsbD 63 = false ∨ s.clock < (s.sink k).slotAt) → exec (.sinkSlotStart k) s = .next s) ∧
    ((s.sink k).mode.getLsbD 63 = true → (s.sink k).slotAt ≤ s.clock →
      let s1 := s.updSink k fun x => { x with
        mode := x.nextMode.getD x.mode, time := x.nextTime.getD x.time, timing := x.nextTiming.getD x.timing, pclk := x.nextPclk.getD x.pclk
        nextMode := none, nextTime := none, nextTiming := none, nextPclk := none
        current := if x.pending.isSome then x.pending else x.current, pending := none }
      let s2 := match s1.sinkOwner k with
        | some p => (s1.showSurface p k).syncPeriods p k
        | none => s1.updSink k fun x => { x with shown := none }
      let due := s2.clock + (s2.sink k).period k
      exec (.sinkSlotStart k) s = .next (if (s2.sink k).mode.getLsbD 63 then (s2.updSink k fun x => { x with slotAt := due }).timer due (.sinkSlotStart k)
        else s2.updSink k fun x => { x with shown := none }))

namespace Sys2Proof

/-- Every live replica of the fibre's set has arrived at its comparison point (R366). -/
def allArrived (s : State) (f : Fibre) : Prop := f.live = true ∧ ∀ g ∈ s.replicaSet f, g.wait = .compare
/-- Any two replicas of the set that have arrived agree with the first. -/
def allAgree (s : State) (f : Fibre) : Prop := ∀ x r, s.replicaSet f = x :: r → ∀ g ∈ r, s.agree x g = true

end Sys2Proof

/-- REPL_COMPARISON: where every live replica has arrived and all agree in signature, PC and operands, the leader's journal is performed, and every replica goes on with an empty journal and signature 0; where one replica has not arrived, nothing happens. REPL_COMPARE_TIMEOUT: a replica that waits at its point for CONVWD clocks has its set compared as it stands. Two that agree differ in no signature, PC or operand. -/
def Obligations.ReplicaEvents : Prop :=
  ∀ (s : State) (u : Nat),
    let f := s.fibre u
    (allArrived s f → allAgree s f →
      exec (.replComparison u) s = .next ((((s.replicaSet f).filter fun g => g.repl == (s.pipeOf f).leader).foldl (fun s g => s.performJournal g.uid) s).updAll
        ((s.replicaSet f).map fun g => g.uid) fun g => { g.retry with sig := 0, journal := [], agreed := true, engWrote := false })) ∧
    ((∃ g ∈ s.replicaSet f, g.wait ≠ .compare) → exec (.replComparison u) s = .next s) ∧
    (f.live = true → f.wait = .compare → f.pointAt + watchdog (s.pipeOf f).convwd ≤ s.clock → exec (.replCompareTimeout u) s = .next (s.compare f true)) ∧
    (s.clock < f.pointAt + watchdog (s.pipeOf f).convwd → exec (.replCompareTimeout u) s = .next s) ∧
    ∀ g h, s.agree g h = true → g.sig = h.sig ∧ g.pc = h.pc ∧ s.pointOperands g = s.pointOperands h ∧ g.wait = .compare ∧ h.wait = .compare

namespace Sys2Proof

/-- The window of a port without its first entry not yet sent; or with that entry noted as sent (R56). -/
def firstSent (s : State) (i : PortId) (keep : Bool) : Port := (s.port i).sendFirst keep

end Sys2Proof

/-- TEMPLATE_INSTANCE_START starts the oldest pending instance of its stage where it finds room, and takes it and its entry from the queue; QUEUE_ENTRY_ARRIVAL makes the next entry of a port arrive: accepted at the tail where the queue has room, NACKed where it is full or drops the entries of its port, dropped where its pipeline has ended; QUEUE_PORT_RESEND makes a backed-off port send everything for the queue again; QUEUE_CLOSE_ARRIVAL closes the queue and discards what ports hold for it; STAGE_CORE_REBALANCE moves at most one core, tries the pending instances again and sets the next period; SLEEP_EXPIRE wakes a fibre whose clock has come; REPACK_BUDGET_EXPIRE ends a collection whose clock has come; a watchdog that has expired writes its record and terminates the pipeline. -/
def Obligations.ExecutionEvents : Prop :=
  (∀ (s t : State) (part pipe stage : Nat) (x : PendInst),
    let p := s.pipe part pipe
    p.ended = none → p.pending.find? (fun x => x.stage == stage) = some x →
    (s.startInstance p x = some t →
      let u := t.updPipe part pipe fun p => { p with
        pending := p.pending.eraseP fun x => x.stage == stage
        queues := match x.entry, (p.stages[stage]?).bind fun r => r.inq with
          | some _, some q => p.queues.modify q fun q => { q with entries := q.entries.drop 1 }
          | _, _ => p.queues }
      exec (.templateInstanceStart part pipe stage) s =
        .next (if (u.pipe part pipe).pending.any fun x => x.stage == stage then u.post (.templateInstanceStart part pipe stage) else u)) ∧
    (s.startInstance p x = none → p.contract = none → exec (.templateInstanceStart part pipe stage) s = .next s)) ∧
  (∀ (s : State) (i : PortId) (e : PortEntry),
    let p := s.pipe i.part e.pipe
    let q := p.queue e.queue
    let more (t : State) : State := if (t.port i).next.isSome then t.post (.queueEntryArrival i) else t
    (s.port i).next = some e →
    (p.ended ≠ none → exec (.queueEntryArrival i) s = .next (more (s.setPort (firstSent s i false)))) ∧
    (p.ended = none → i ∉ q.dropping → e.close = true →
      exec (.queueEntryArrival i) s = .next (more ((s.setPort (firstSent s i true)).post (.queueCloseArrival i.part e.pipe e.queue)))) ∧
    (p.ended = none → i ∉ q.dropping → e.close = false → q.entries.length < q.depth → q.launching = false →
      let pt := firstSent s i false
      exec (.queueEntryArrival i) s = .next (more ((s.setPort { pt with backoff := pt.backoff.filter fun b => !(b.pipe == e.pipe && b.queue == e.queue) }).updQueue
        i.part e.pipe e.queue fun q => { q with entries := q.entries ++ [e.entry] }))) ∧
    (p.ended = none → i ∉ q.dropping → e.close = false → q.depth ≤ q.entries.length → exec (.queueEntryArrival i) s = .next (more (s.nack i e true))) ∧
    (p.ended = none → i ∈ q.dropping → exec (.queueEntryArrival i) s = .next (more ((s.setPort (firstSent s i true)).noteNack i)))) ∧
  (∀ (s : State) (i : PortId), (s.port i).next = none → exec (.queueEntryArrival i) s = .next s) ∧
  (∀ (s : State) (i : PortId) (pipe queue : Nat) (b : Backoff), b ∈ (s.port i).backoff → b.pipe = pipe → b.queue = queue → b.due ≤ s.clock →
    i ∈ ((s.pipe i.part pipe).queue queue).dropping →
    exec (.queuePortResend i pipe queue) s = .next (((s.setPort { s.port i with
        window := mapIf (fun e => e.pipe == pipe && e.queue == queue) (fun e => { e with sent := false }) (s.port i).window }).updQueue i.part pipe queue fun q =>
      { q with dropping := q.dropping.filter fun x => !(x == i) }).post (.queueEntryArrival i))) ∧
  (∀ (s : State) (part pipe queue : Nat),
    let mine (e : PortEntry) : Bool := e.pipe == pipe && e.queue == queue
    (∃ p ∈ s.ports, p.id.part = part ∧ p.id ∉ ((s.pipe part pipe).queue queue).dropping ∧ ∃ e ∈ p.window, mine e = true ∧ e.close = true ∧ e.sent = true) →
    exec (.queueCloseArrival part pipe queue) s = .next ((((s.ports.filter fun (p : Port) => p.id.part == part).map fun (p : Port) => p.window.filter fun e => mine e && !e.close).foldl
      (fun (s : State) (g : List PortEntry) => s.closureRec part pipe queue g)
      (({ s with ports := mapIf (fun (p : Port) => p.id.part == part) (fun p => { p with
            window := p.window.filter (fun e => !mine e), backoff := p.backoff.filter fun b => !(b.pipe == pipe && b.queue == queue) }) s.ports }).updQueue
        part pipe queue fun q => { q with closed := true, dropping := [] })).checkPipe part pipe)) ∧
  (∀ (s : State) (part pipe : Nat),
    ((s.pipe part pipe).ended = none → exec (.stageCoreRebalance part pipe) s =
      .next (((s.updPipe part pipe Pipe.rebalance).retryInstances part).timer (s.clock + 2048) (.stageCoreRebalance part pipe))) ∧
    ((s.pipe part pipe).ended ≠ none → exec (.stageCoreRebalance part pipe) s = .next s)) ∧
  (∀ (s : State) (u : Nat), ∃ t, exec (.sleepExpire u) s = .next t ∧ t = { s with fibres := t.fibres } ∧ (∀ v, v ≠ u → t.fibre v = s.fibre v) ∧
    ((∃ f ∈ s.fibres, f.uid = u) → (s.fibre u).st = .sleeping →
      (∀ c, (s.fibre u).wait = .sleep (some c) → c ≤ s.clock → t.fibre u = { (s.fibre u).advancePc (s.fibre u).ilen with st := .runnable, wait := .none }) ∧
      (∀ c, (s.fibre u).wait = .sleep (some c) → s.clock < c → t.fibre u = s.fibre u) ∧
      ((s.fibre u).wait = .sleep none → t.fibre u = s.fibre u))) ∧
  (∀ (s : State) (id : Nat),
    (∀ c, s.collects.find? (fun (c : Collect) => c.id == id && c.plan.isEmpty && decide (c.due ≤ s.clock)) = some c →
      exec (.repackBudgetExpire id) s = .next (s.endCollect c)) ∧
    ((∀ c ∈ s.collects, c.id = id → s.clock < c.due) → exec (.repackBudgetExpire id) s = .next s)) ∧
  ∀ (s : State) (i : GroupId) (n : Nat) (g : Group), s.group? i = some g →
    (∀ w ∈ s.watches g, w.kind = 0 → w.num = n → w.due ≤ s.watchClock i.part w.pipe → (∀ v ∈ s.watches g, v.kind = 0 → v.num = n → v = w) →
      ∀ x, s.firstExpired i.part w.pipe = some x → exec (.barrierTimeout i n) s = .next (s.watchdogExpires x)) ∧
    (∀ w ∈ s.watches g, w.kind ≠ 0 → w.num = n → w.due ≤ s.watchClock i.part w.pipe → (∀ v ∈ s.watches g, v.kind ≠ 0 → v.num = n → v = w) →
      ∀ x, s.firstExpired i.part w.pipe = some x → exec (.convergeTimeout i n) s = .next (s.watchdogExpires x)) ∧
    ((∀ w ∈ s.watches g, s.watchClock i.part w.pipe < w.due) → exec (.barrierTimeout i n) s = .next s ∧ exec (.convergeTimeout i n) s = .next s)

/-- LOAD_RESPONSE gives each element of a load its bytes (a load that ended fibres cancelled gives nothing, and one of host lines that the VAC does not hold asks for them) and retries what waited for them; REGISTRATION_REQUEST makes the core the owner of a block of which it still holds dirty words, recalling another owner's, and is acknowledged; REGISTRY_ACK acknowledges the stores that wait for it; FORWARDED_REQUEST writes back the owner's released words; L1_FILL fills the clean words of a line; VAC_FILL makes room; PAGE_WALK, which promotes the owners of released words of the table, keeps the translation it finds; MMP_FAULT_SERVICE serves a page request by the mode of the function and the region as they stood when the fault was raised. -/
def Obligations.MemoryEvents : Prop :=
  (∀ (s : State) (id : Nat) (r : LoadReq), s.loads.find? (fun x => x.id == id) = some r →     (r.cancelled = true → exec (.loadResponse id) s = .next { s with loads := s.loads.filter fun x => x.id != id }) ∧
    (r.cancelled = false → (∃ x ∈ r.elems, x.loc.cached = true ∧ (s.hostLineStop x.loc.key false).isSome = true) →
      exec (.loadResponse id) s = .next (s.askLines r.uid (r.elems.map fun x => x.loc))) ∧
    (r.cancelled = false → (∀ x ∈ r.elems, x.loc.cached = true → s.hostLineStop x.loc.key false = none) →
      let f := { s.fibre r.uid with tag := r.tag }
      let got := r.elems.foldl (fun (acc : State × List (LoadElem × List Byte × Bool)) x =>
        let y := acc.1.readHome f x.loc x.n r.acq
        (y.2.2, acc.2 ++ [(x, f.overlay x.va y.1, y.2.1 && !f.journalled x.va x.n)])) (s, [])
      let dst := (r.elems.headD ⟨0, ⟨0, false, false, 0⟩, 0, 0⟩).reg
      let s2 := if r.sreg then
          (got.1.setS ⟨f.part, r.grp, f.repl⟩ dst ⟨scalarLoaded r.ty (got.2.flatMap fun x => x.2.1), got.2.any fun x => x.2.2⟩).updGroup ⟨f.part, r.grp, f.repl⟩ fun g =>
            { g with pend := g.pend.filter fun x => x != (dst, none) }
        else got.2.foldl (fun s x => s.giveElem r.uid r.ty x.1 x.2.1 x.2.2) got.1
      let s3 : State := { s2 with pendV := s2.pendV.filter (fun x => !(x.1 == r.uid && r.elems.any fun l => l.reg == x.2 && !r.sreg))
                                  loads := s2.loads.filter fun x => x.id != id }
      exec (.loadResponse id) s = .next ((if r.inval then s3.selfInval r.core else s3).retryPending f.part))) ∧
  (∀ (s : State) (id : Nat), (∀ r ∈ s.loads, r.id ≠ id) → exec (.loadResponse id) s = .next s) ∧
  (∀ (s : State) (core tag block : Nat),
    ((∃ w ∈ s.l1, w.core = core ∧ w.tag = tag ∧ w.dirty ≠ 0 ∧ inBlock block w.key = true) →
      exec (.registrationRequest core tag block) s = .next ((s.register core tag block).post (.registryAck core tag block)) ∧
      ((s.register core tag block).registry.find? fun r => r.block == block && r.tag == tag) = some { block := block, tag := tag, owner := core }) ∧
    ((∀ w ∈ s.l1, w.core = core → w.tag = tag → w.dirty ≠ 0 → inBlock block w.key = false) →
      exec (.registrationRequest core tag block) s = .next (s.post (.registryAck core tag block)))) ∧
  (∀ (s : State) (core tag block : Nat), ∃ t, exec (.registryAck core tag block) s = .next t ∧
    t.fibres = s.fibres.map (fun f => { f with unacked := f.unacked.filter fun y => y != (core, tag, block) }) ∧ t.mem = s.mem ∧
    ∀ p ∈ t.ports, ∀ e ∈ p.window, (core, tag, block) ∉ e.waitFor) ∧
  (∀ (s : State) (owner tag word : Nat) (acq : Bool),
    ((s.l1Word owner tag word).isNone = true → exec (.forwardedRequest owner tag word acq) s = .next s) ∧
    ∀ w, s.l1Word owner tag word = some w →
      ((w.dirty ≠ 0 ∧ (acq = true ∨ w.rls = true)) →
        exec (.forwardedRequest owner tag word acq) s = .next ((s.writeBack fun w => w.core == owner && w.rls).dropRegs owner)) ∧
      (¬ (w.dirty ≠ 0 ∧ (acq = true ∨ w.rls = true)) → exec (.forwardedRequest owner tag word acq) s = .next s)) ∧
  (∀ (s : State) (core tag line : Nat) (met : Bool) (victim : Option (Nat × Nat)),
    let t := match victim with | some v => s.evictLine core v.1 v.2 (core / 4 * 4 + (core + 1) % 4) | none => s
    ((met = true ∨ (tag ≠ 0 ∧ t.hasVersion (line / 32) tag = false)) → exec (.l1Fill core tag line met victim) s = .next t) ∧
    (met = false → (tag = 0 ∨ t.hasVersion (line / 32) tag = true) → exec (.l1Fill core tag line met victim) s =
      .next ((List.range 4).foldl (fun u i => u.fillSector core tag (line / 128 * 128 + 32 * i) (fillGrain u core tag line)) t))) ∧
  (∀ (s : State) (tag line : Nat),
    let here := s.unslotted line
    (here.length + s.leasedWays line < 16 → (∀ h ∈ s.hostLines, h.mesi = 0) → exec (.vacFill tag line) s = .next s) ∧
    (16 ≤ here.length + s.leasedWays line →
      (∀ v, here.find? (fun v => decide (s.slotsUsed v.part 0 < (s.partn v.part).voaSlots)) = some v →
        exec (.vacFill tag line) s = .next { s with verLines := mapIf (fun w => w == v) (fun w => { w with slotted := true }) s.verLines }) ∧
      ((∀ v ∈ here, (s.partn v.part).voaSlots ≤ s.slotsUsed v.part 0) → exec (.vacFill tag line) s = .next s))) ∧
  (∀ (s : State) (part core : Nat) (va : BitVec 64),
    let r := s.promoteWalk part va.toNat
    (r.walk part va.toNat = none → exec (.pageWalk part core va) s = .next r) ∧
    ∀ e, r.walk part va.toNat = some e → ∃ t, exec (.pageWalk part core va) s = .next t ∧ t = { r with tlb := t.tlb } ∧
      (⟨part, false, core, BitVec.ofNat 128 e⟩ : TlbEntry) ∈ t.tlb ∧ (⟨part, true, core / 4, BitVec.ofNat 128 e⟩ : TlbEntry) ∈ t.tlb) ∧
  ∀ (s : State) (part : Nat) (va : BitVec 64),
    ((∀ x ∈ (s.partn part).services, x.va ≠ va.toNat) → exec (.mmpFaultService part va) s = .next s) ∧
    ∀ x, (s.partn part).services.find? (fun x => x.va == va.toNat && x.hostSeq.isNone) = some x →
      let p := s.partn part
      ((s.walk part x.va).isSome = true → exec (.mmpFaultService part va) s = .next (s.dropService part x.va)) ∧
      (s.walk part x.va = none → p.ptLog? ≠ none → x.save = none →
        (x.mode.getLsbD 0 = true → exec (.mmpFaultService part va) s = .next (s.askHost part x 1 0)) ∧
        (x.mode.getLsbD 0 = false → x.region = none → exec (.mmpFaultService part va) s = .next (s.serviceFails part x 0)) ∧
        (x.mode.getLsbD 0 = false → ∀ r, x.region = some r →
          (s.takeFrames part (pageFrames (bits r 10 2)) = none → exec (.mmpFaultService part va) s = .next (s.serviceFails part x 1)) ∧
          (∀ k t, s.takeFrames part (pageFrames (bits r 10 2)) = some (k, t) → bits r 0 2 ≠ 2 →
            exec (.mmpFaultService part va) s =
              .next (((t.updService part x.va fun y => { y with frame := some k }).zeroFrames k (pageFrames (bits r 10 2))).insertEntry part x r k))))

/-- A CXL.mem read before READY gives poisoned words, after it the words that the home slice serves; a write before READY is discarded, after it the bytes land at home; a back-invalidation ends the copy of the host of a line; a snoop waits for a fill in flight, gives the data of a line in M, and leaves the line in I, S or as it was; a completion takes in what the host has written to the line and installs it in E or S, or ends an eviction; an expired completion poisons the line or discards the eviction, with its record; a peer write is acknowledged; lanes that fail take spares where four suffice; a burst that a retrain does not mend is marked, with its record; and the loss of the link stops the device. -/
def Obligations.CoherenceEvents : Prop :=
  (∀ (s : State) (addr count : Nat), addr + 4 * count ≤ deviceSize → addr % 4 = 0 →
    (s.ready = false → exec (.cxlMemRead addr count) s = .next { s with hostData := List.replicate count ⟨0, true⟩ }) ∧
    (s.ready = true →
      let d := s.serveHost (devKey addr) count
      exec (.cxlMemRead addr count) s = .next { d.2 with
        hostData := d.1, hostHeld := (deviceLines addr (4 * count)).foldl (fun l k => addOnce l k) d.2.hostHeld })) ∧
  (∀ (s : State) (addr count : Nat), (deviceSize < addr + 4 * count ∨ addr % 4 ≠ 0) → exec (.cxlMemRead addr count) s = .next s) ∧
  (∀ (s : State) (addr : Nat) (data : List Byte),
    (s.ready = false ∨ deviceSize < addr + data.length → exec (.cxlMemWrite addr data) s = .next s) ∧
    (s.ready = true → addr + data.length ≤ deviceSize → exec (.cxlMemWrite addr data) s = .next (s.hostStores (devKey addr) data (data.length / 32 + 2)))) ∧
  (∀ (s : State) (line : Nat),
    exec (.backInvalidationComplete line) s = .next { s with hostHeld := s.hostHeld.filter fun x => x != line }) ∧
  (∀ (s : State) (line kind : Nat) (i : Instr),
    ((kind = 0 ∧ i = .snpInv line) ∨ (kind = 1 ∧ i = .snpData line) ∨ (kind = 2 ∧ i = .snpCur line)) →
    ((∀ h ∈ s.hostLines, h.line ≠ line) → exec i s = .next s) ∧
    ∀ h, s.hostLines.find? (fun (h : HostLine) => h.line == line) = some h →
      ((h.request = some 0 ∨ h.request = some 1) → exec i s = .next (s.updHostLine line fun x => { x with snoops := x.snoops ++ [kind] })) ∧
      (h.request ≠ some 0 → h.request ≠ some 1 → h.mesi = 0 → exec i s = .next s) ∧
      (h.request ≠ some 0 → h.request ≠ some 1 → h.mesi ≠ 0 →
        let d := s.serveHost (hostLineKey line) 32
        let u : State := if d.2.hostLines.any (fun (x : HostLine) => x.line == line && x.mesi == 3) then { d.2 with hostData := d.1 } else d.2
        exec i s = .next (if kind = 0 then u.dropHostLine line else if kind = 1 then u.updHostLine line (fun x => { x with mesi := 1, backup := [] }) else u))) ∧
  (∀ (s : State) (line : Nat) (own grantE : Bool) (answer : HostAnswer),
    ((∀ h ∈ s.hostLines, h.line = line → h.request = none) → exec (.cxlCacheCompletion line own grantE answer) s = .next s) ∧
    ∀ h, s.hostLines.find? (fun (h : HostLine) => h.line == line && h.request.isSome) = some h →
      (h.request = some 2 → exec (.cxlCacheCompletion line own grantE answer) s = .next (s.loseHostLine line)) ∧
      (h.request = some (if own then 1 else 0) → exec (.cxlCacheCompletion line own grantE answer) s =
        .next ((s.hostWrote line answer.data).fillHostLine h (if own || grantE then 2 else 1) (if answer.poisoned then h.request else none)))) ∧
  (∀ (s : State) (line : Nat),
    (∀ (req : Nat) (h : HostLine), req ≤ 1 →
      s.hostLines.find? (fun (h : HostLine) => h.line == line && h.request == some req && decide (h.since + 10 * clocksPerMs ≤ s.clock)) = some h →
      exec (.cxlCompletionTimeout req line) s = .next (s.fillHostLine h (if req = 1 then 2 else 1) (some 5))) ∧
    (∀ h, s.hostLines.find? (fun (h : HostLine) => h.line == line && h.request == some 2 && decide (h.since + 10 * clocksPerMs ≤ s.clock)) = some h →
      let t := (s.setBytes (hostLineKey line) h.backup).loseHostLine line
      exec (.cxlCompletionTimeout 2 line) s = .next (t.report (t.linkRec line none 2))) ∧
    (∀ w, s.peerWrites.find? (fun (w : PeerWrite) => w.key / 128 == line && decide (w.since + 10 * clocksPerMs ≤ s.clock)) = some w →
      let t := ({ s with peerWrites := s.peerWrites.erase w }.updAll (w.uid :: w.also) fun f => { f with peerUnacked := f.peerUnacked - 1 }).setBytes w.key w.old
      exec (.cxlCompletionTimeout 4 line) s = .next (t.report (t.linkRec line (some w.uid) 4))) ∧
    (∀ req, (∀ h ∈ s.hostLines, h.line = line → s.clock < h.since + 10 * clocksPerMs) → req ≠ 4 → exec (.cxlCompletionTimeout req line) s = .next s)) ∧
  (∀ (s : State) (u : Nat),
    ((∀ w ∈ s.peerWrites, w.uid ≠ u) → exec (.peerWriteAck u) s = .next s) ∧
    ∀ w, s.peerWrites.find? (fun (w : PeerWrite) => w.uid == u) = some w →
      exec (.peerWriteAck u) s = .next ({ s with peerWrites := s.peerWrites.erase w }.updAll (w.uid :: w.also) fun f => { f with peerUnacked := f.peerUnacked - 1 })) ∧
  (∀ (s : State) (core channel offset : Nat) (failing : List Nat) (resent : Bool), core < 128 → channel < 16 → offset < 2 ^ 22 →
    let lanes := sortBy (fun n => n) (failing.foldl addOnce [])
    let o := offset / 32 * 32
    let lost (t : State) : State :=
      let u := t.report (t.vaultRec core { cause := 0x0101, addr := o, detail := vaultArray o * 2 ^ 8 + 2 ^ 12 + channel * 2 ^ 13 })
      if vaultArray o = 1 then u.markGranules (vltKey core (o - 2 ^ 20)) else u
    (lanes = [] ∨ 4 < lanes.length + s.sparesUsed core channel → exec (.bondLaneTest core channel offset failing resent) s = .next (lost s)) ∧
    (lanes ≠ [] → lanes.length + s.sparesUsed core channel ≤ 4 →
      let swapped := lanes.foldl (fun (u : State) lane => (u.report (u.vaultRec core
        { cause := 0x0103, addr := o, rung := 6
          detail := channel + lane * 2 ^ 8 + u.sparesUsed core channel * 2 ^ 16 + (if lane < 231 then lane / 33 else 0) * 2 ^ 24 })).useSpare core channel) s
      exec (.bondLaneTest core channel offset failing resent) s = .next (if resent then swapped else lost swapped))) ∧
  (∀ (s : State) (sector resends : Nat) (isWrite : Bool), 32 * sector < deviceSize →
    let pa := 32 * sector
    let r : Rec := { cause := 0x0106, addr := pa, detail := gddrController pa, part := s.frameOwner pa, pcore := vacSlice (devKey pa) }
    exec (.gddr7Retrain sector resends true isWrite) s =
      .next (s.report { r with detail := r.detail + max 5 (min resends 8) * 2 ^ 16 + 2 ^ 20, rung := 1 }) ∧
    (let t := s.report { r with cause := 0x0105, detail := r.detail + 2 ^ 8 }
     let u := (if isWrite then t.dropClean 0 (devKey pa) else t).markGranules (devKey pa)
     (u.poisonList (vacSlice (devKey pa))).length ≤ 1024 → exec (.gddr7Retrain sector resends false isWrite) s = .next u)) ∧
  ∀ s : State, ∃ t, exec .hostLinkLoss s = .next t ∧ t.ready = false ∧ t.linkLost = true ∧ t.agenda = [] ∧ t.timers = [] ∧ t.slots = [] ∧ t.cur = [] ∧
    16 ∈ t.msix ∧ t.mem = s.mem ∧ t.fibres = s.fibres

/-- CREATE refuses a partition that is not DOWN with status 2 and one whose page breaks a limit with status 1, and otherwise applies the page and leaves it IDLE; RESET ends everything of a partition and reads RESETTING until no move of it is in progress, then IDLE; SUSPEND asks every running pipeline to save and completes with the image written and STATE SUSPENDED; RESUME from SUSPENDED returns the work of the last image of the partition, and otherwise restores the area that ARG names, serving its absent pages first (an area that this device did not write gives a free value or status 1: a choice of the model, notes/assumptions/85.md); DESTROY waits for the tags of the partition and leaves it DOWN; a command of no row answers status 3; PART_LAUNCH answers status 6 outside IDLE; in IDLE it reads the descriptor past the stale words of its L1, waiting for a page that is absent, and starts the supervisor pipeline. -/
def Obligations.PartitionCommands : Prop :=
  (∀ (s : State) (part : Nat), s.ready = true → s.cmdStat ≠ 0xFF →
    ((s.partn part).state ≠ 0 → exec (.create part) s = .next { s with cmdStat := 2 }) ∧
    ((s.partn part).state = 0 → s.mayCreate part = false → exec (.create part) s = .next { s with cmdStat := 1 }) ∧
    ((s.partn part).state = 0 → s.mayCreate part = true → s.takeOverflow part = none → exec (.create part) s = .next { s with cmdStat := 1 }) ∧
    (∀ u, (s.partn part).state = 0 → s.mayCreate part = true → s.takeOverflow part = some u →
      exec (.create part) s = .next { ((u.claimSinks part).updPart part fun p => { p with state := 1, lmap := p.lmapPage, voaCtl := p.voaPage }).clearRings part with cmdStat := 0 })) ∧
  (∀ (s : State) (part : Nat), s.ready = true → s.cmdStat ≠ 0xFF →
    ((s.partn part).state = 0 → exec (.reset part) s = .next { s with cmdStat := 2 }) ∧
    ((s.partn part).state ≠ 0 → exec (.reset part) s = .next (s.resetPart part))) ∧
  (∀ (s : State) (part : Nat),
    (∀ p, (s.resetPart part).parts[part]? = some p → p.state = 4 ∧ p.captures = [none, none] ∧ p.preqs = [] ∧ p.suspending = false ∧ p.emergency = none) ∧
    (s.resetPart part).cmdStat = 0xFF ∧ .resetComplete part ∈ (s.resetPart part).agenda ∧ ∀ l ∈ (s.resetPart part).leases, l.part ≠ part) ∧
  (∀ (s : State) (part : Nat),
    ((s.partn part).state = 4 → (s.partn part).migrs = [] → exec (.resetComplete part) s = .next { s.updPart part fun p => { p with state := 1 } with cmdStat := 0 }) ∧
    ((s.partn part).state ≠ 4 ∨ (s.partn part).migrs ≠ [] → exec (.resetComplete part) s = .next s)) ∧
  (∀ (s : State) (part : Nat), s.ready = true → s.cmdStat ≠ 0xFF →
    ((s.partn part).state ≠ 2 → exec (.suspend part) s = .next { s with cmdStat := 2 }) ∧
    ((s.partn part).state = 2 →
      let u := s.updPart part fun p => { p with suspending := true, migrs := p.migrs.filter fun m => m.state == 2 }
      exec (.suspend part) s = .next { u.requestSave part 2 ((u.runningPipes part).map fun (p : Pipe) => p.handle) (u.partn part).preemptDl with cmdStat := 0xFF })) ∧
  (∀ (s : State) (part : Nat),
    let p := s.partn part
    (s.suspendReady part = false → exec (.suspendComplete part) s = .next s) ∧
    (s.suspendReady part = true → p.saveBase = 0 → exec (.suspendComplete part) s = .next (s.saveFault part 0 0 0 0)) ∧
    (s.suspendReady part = true → p.saveBase ≠ 0 →
      (∀ c off va, s.areaAbsent part p.saveBase ((mapEntries p.lmap).map fun e => e.1) = some (c, off, va) →
        exec (.suspendComplete part) s = .next (s.servicePage part c off va false)) ∧
      (s.areaAbsent part p.saveBase ((mapEntries p.lmap).map fun e => e.1) = none →
        let u := ((s.suspendBoundary part).squashAll part).flushCores part
        exec (.suspendComplete part) s = .next { (u.dropWork part).updPart part (fun q => { q with
          state := 3, suspending := false, image := some (q.saveBase, u.captureOf part ((u.runningPipes part).map fun (x : Pipe) => x.handle) true) }) with cmdStat := 0 }))) ∧
  (∀ (s : State) (part : Nat) (arg : BitVec 48), s.ready = true → s.cmdStat ≠ 0xFF → (s.partn part).resuming = none →
    let p := s.partn part
    let base := if arg = 0 then p.saveBase else arg.toNat * 2 ^ 16
    (p.state ≠ 3 → p.state ≠ 1 → exec (.resume part arg) s = .next { s with cmdStat := 2 }) ∧
    (∀ c, p.state = 3 → p.image = some (base, c) →
      exec (.resume part arg) s = .next (((s.restoreWork c).sendAgain part c).runAgain part)) ∧
    (p.state = 1 ∨ p.state = 3 ∧ p.imageAt base = none →
      (base = 0 → exec (.resume part arg) s = .next (s.saveFault part 0 0 0 0)) ∧
      (base ≠ 0 → ∀ k off va, s.areaAbsent part base (p.imageCores base) = some (k, off, va) →
        exec (.resume part arg) s = .next { (s.updPart part fun p => { p with resuming := some base }).servicePage part k off va true with cmdStat := 0xFF }) ∧
      (base ≠ 0 → s.areaAbsent part base (p.imageCores base) = none →
        (∀ c, p.state = 1 → p.image = some (base, c) →
          let old (h : Nat) : Pipe := (c.pipes.find? fun (x : Pipe) => x.handle == h).getD Pipe.blank
          exec (.resume part arg) s = .next ((s.restoreCapture part false c (fun h => (old h).holds) fun h => (old h).pins).runAgain part)) ∧
        (p.imageAt base = none →
          let t : State := { s with free := s.free + 1 }
          (Config.foreignImage part base s.free = none →
            exec (.resume part arg) s = .next { t.updPart part fun p => { p with resuming := none } with cmdStat := 1 }) ∧
          ∀ c, Config.foreignImage part base s.free = some c → exec (.resume part arg) s = .next (t.restoreImage part (c.forPart part)))))) ∧
  (∀ (s : State) (part : Nat), s.ready = true → s.cmdStat ≠ 0xFF →
    ((s.partn part).state ≠ 1 → exec (.destroy part) s = .next { s with cmdStat := 2 }) ∧
    ((s.partn part).state = 1 → exec (.destroy part) s = .next { s with cmdStat := 0xFF, destroyWait := some part })) ∧
  (∀ (s : State) (part : Nat),
    (s.destroyWait ≠ some part ∨ s.tagsFree part = false → exec (.destroyComplete part) s = .next s) ∧
    (s.destroyWait = some part → s.tagsFree part = true → part < s.parts.length → ∃ t, exec (.destroyComplete part) s = .next t ∧
      (t.partn part).state = 0 ∧ (t.partn part).lmap = List.replicate 128 0 ∧ t.destroyWait = none ∧ t.cmdStat = 0 ∧
      (∀ p ∈ t.pipes, p.part ≠ part) ∧ (∀ c ∈ t.structs, c.part ≠ part) ∧ (∀ x ∈ t.tlb, x.part ≠ part) ∧ (∀ x ∈ t.sinks, x.owner ≠ some part) ∧
      t.mem = s.mem ∧ t.fibres = s.fibres ∧ ∀ k, k ≠ part → t.partn k = s.partn k)) ∧
  (∀ (s : State) (part cmd : Nat), s.ready = true → s.cmdStat ≠ 0xFF → (cmd = 0 ∨ 5 < cmd) → exec (.partCmdUnknown part cmd) s = .next { s with cmdStat := 3 }) ∧
  (∀ (s : State) (part cmd : Nat) (arg : BitVec 48), s.ready = true → s.cmdStat = 0xFF →
    exec (.create part) s = .next (s.timer (s.clock + 1) (.create part)) ∧ exec (.reset part) s = .next (s.timer (s.clock + 1) (.reset part)) ∧
    exec (.suspend part) s = .next (s.timer (s.clock + 1) (.suspend part)) ∧ exec (.destroy part) s = .next (s.timer (s.clock + 1) (.destroy part)) ∧
    exec (.partCmdUnknown part cmd) s = .next (s.timer (s.clock + 1) (.partCmdUnknown part cmd)) ∧
    ((s.partn part).resuming = none → exec (.resume part arg) s = .next (s.timer (s.clock + 1) (.resume part arg)))) ∧
  ∀ (s : State) (part : Nat) (word : BitVec 64),
    let p := s.partn part
    let f := s.launchReader part word
    let done (t : State) (st : Nat) : State := t.updPart part fun p => { p with lstat := st, launchWait := none }
    (s.ready = false → exec (.partLaunch part word) s = .next s) ∧
    (s.ready = true → p.state ≠ 1 → exec (.partLaunch part word) s = .next (s.updPart part fun p => { p with lstat := 6 })) ∧
    (s.ready = true → p.state = 1 → word.toNat % 64 ≠ 0 → exec (.partLaunch part word) s = .next (done s 1)) ∧
    (s.ready = true → p.state = 1 → word.toNat % 64 = 0 →
      let r := s.selfInval (s.coreOf f)
      (∀ t, r.readDescriptor f word.toNat = .error (.trap t) → exec (.partLaunch part word) s = .next (done r 5)) ∧
      (∀ va acc, r.readDescriptor f word.toNat = .error (.service va acc) → exec (.partLaunch part word) s =
        .next ((r.raiseService part va acc false).updPart part fun q => { q with launchWait := some (word, ⟨.page (p.servicePage va), none⟩) })) ∧
      (∀ d walks, r.readDescriptor f word.toNat = .ok (d, true, walks) → exec (.partLaunch part word) s = .next (done r 5)) ∧
      (∀ d walks, r.readDescriptor f word.toNat = .ok (d, false, walks) →
        let a := (r.keepWalks f walks).launch part 0 (mapEntries p.lmap).length 0 d true true
        (a.2.1 ≠ 0 → exec (.partLaunch part word) s = .next (done a.2.2 a.2.1)) ∧
        (a.2.1 = 0 →
          let u := (done a.2.2 0).updPart part fun p => { p with state := 2, boundaryAt := (done a.2.2 0).clock }
          exec (.partLaunch part word) s = .next (if (u.partn part).intCtl.getLsbD 33 then u.armBoundary part else u))))

namespace Sys2Proof

/-- A write of a register D (R388): in DOWN it is applied, in IDLE where the limits of R387 hold with it, and otherwise nothing changes. -/
def writesD (s t : State) (part : Nat) (g : Partition → Partition) : Prop :=
  let p := g (s.partn part)
  ((s.partn part).state = 0 → t = s.updPart part g) ∧
  ((s.partn part).state = 1 → s.limitsOk part p p.lmap p.voaCtl p.voaTaken = true → t = (s.updPart part g).claimSinks part) ∧
  ((s.partn part).state = 1 → s.limitsOk part p p.lmap p.voaCtl p.voaTaken = false → t = s) ∧
  ((s.partn part).state ≠ 0 → (s.partn part).state ≠ 1 → t = s)

end Sys2Proof

/-- A write of a frame contract withdraws a contract, changes the fields of one that is not enabled, or admits it where the sums allow; a write of FPOOL refills the pool of a partition that is DOWN or IDLE; a sink register takes a value at once while EN reads 0, else at the next slot, and setting EN starts the slots; VLT_PWR changes the four slabs, or waits while an access that has begun on a slab leaving ON runs or an earlier write of the core waits, and a wake ends by its event; DBG_CTL resumes as SKIP what BKPT holds in a partition that it no longer enables; DBG_RESUME resumes or ends one fibre; a debug read gives eight bytes of a halted core; a register D is written in DOWN, and in IDLE where the limits still hold, and before READY partition pages ignore writes; a read of eight bytes gives the register that stands there, and zero for a register WO and for an offset without a register. -/
def Obligations.RegisterWrites : Prop :=
  (∀ (s : State) (part k : Nat) (v : BitVec 64),
    (s.ready = false ∨ 16 ≤ part ∨ 16 ≤ k → exec (.fscContractWrite part k v) s = .next s) ∧
    (s.ready = true → part < 16 → k < 16 →
      let c := s.contract part k
      let w := kept contractBits v
      (c.en = true → w.getLsbD 63 = true → exec (.fscContractWrite part k v) s = .next s) ∧
      (c.en = true → w.getLsbD 63 = false → exec (.fscContractWrite part k v) s = .next (s.updContract part k fun c =>
        { c with reg := kept (contractBits - 2 ^ 63) c.reg, adm := false, start := none, spent := 0, delivered := false, overrun := false })) ∧
      (c.en = false → w.getLsbD 63 = false → exec (.fscContractWrite part k v) s = .next (s.updContract part k fun c => { c with reg := w })) ∧
      (c.en = false → w.getLsbD 63 = true →
        let c' := { Contract.blank with reg := w }
        ((s.partn part).admits c' = false →
          exec (.fscContractWrite part k v) s = .next (s.updContract part k fun c => { c with reg := kept (contractBits - 2 ^ 63) w })) ∧
        ((s.partn part).admits c' = true →
          let u := s.updContract part k fun _ => { c' with reg := w ||| BitVec.ofNat 64 (2 ^ 62), adm := true }
          exec (.fscContractWrite part k v) s = .next (if c'.sync then u
            else (u.beginPeriod part k s.clock).timer (s.clock + c'.p * clocksPerUs) (.fscPeriodStart part k)))))) ∧
  (∀ (s : State) (part : Nat) (v : BitVec 64),
    (s.ready = false → exec (.fpoolWrite part v) s = .next s) ∧
    (s.ready = true → ∃ t, exec (.fpoolWrite part v) s = .next t ∧
      writesD s t part fun p => { p with fpool := v &&& BitVec.ofNat 64 ((2 ^ 31 - 1) * 2 ^ 21 + 65535), framesOut := [] })) ∧
  (∀ (s : State) (off : Nat) (v : BitVec 64),
    (sinkRegister off = none → exec (.sinkModeWrite off v) s = .next s) ∧
    ∀ k r, sinkRegister off = some (k, r) →
      let w := kept (sinkMask r) v
      ((s.sink k).mode.getLsbD 63 = true → exec (.sinkModeWrite off v) s = .next (s.updSink k fun x => x.put r w)) ∧
      ((s.sink k).mode.getLsbD 63 = false →
        let u := s.updSink k fun x => (x.put r w).latch
        exec (.sinkModeWrite off v) s = .next (if (u.sink k).mode.getLsbD 63
          then (u.updSink k fun x => { x with slotAt := u.clock + (u.sink k).firstSlot k }).timer (u.clock + (u.sink k).firstSlot k) (.sinkSlotStart k) else u))) ∧
  (∀ (s : State) (part core : Nat) (v : BitVec 8),
    (s.ready = false ∨ 128 ≤ core → exec (.vltPwrWrite part core v) s = .next s) ∧
    (s.slabBusy part core v = true ↔ ∃ k < 4, (s.partn part).slab core k = 0 ∧ (slabCode v k = 1 ∨ slabCode v k = 2) ∧ s.begunOn part core k = true) ∧
    (s.ready = true → core < 128 → (∀ x ∈ (s.partn part).slabWrites, x.1 ≠ core) → s.slabBusy part core v = false → exec (.vltPwrWrite part core v) s =
      .next ((List.range 4).foldl (fun s k => s.setSlab part core k (v.extractLsb' (2 * k) 2).toNat) s)) ∧
    (s.ready = true → core < 128 → (∃ x ∈ (s.partn part).slabWrites, x.1 = core) ∨ s.slabBusy part core v = true → exec (.vltPwrWrite part core v) s =
      .next (s.updPart part fun p => { p with slabWrites := p.slabWrites ++ [(core, v)] }))) ∧
  (∀ (s : State) (part core slab : Nat),
    (s.isSet (.vaultSlabWakeDone part core slab) = true → exec (.vaultSlabWakeDone part core slab) s = .next s) ∧
    (s.isSet (.vaultSlabWakeDone part core slab) = false → exec (.vaultSlabWakeDone part core slab) s =
      .next (s.updPart part fun p => { p with waking := p.waking.filter fun x => x != (core, slab) }))) ∧
  (∀ (s : State) (v : BitVec 64),
    exec (.dbgCtlWrite v) s = .next { s with
      dbgEn := v.extractLsb' 0 16
      fibres := s.fibres.map fun f => if f.atBreak && s.dbgEn.getLsbD f.part && !(v.extractLsb' 0 16).getLsbD f.part then f.resume 1 0 else f }) ∧
  (∀ (s : State) (v : BitVec 64),
    let held := (s.fibres.filter fun f => f.atBreak && f.fid == bits v.toNat 0 32 && f.part == bits v.toNat 32 4).map fun f => f.uid
    (bits v.toNat 40 2 = 3 → exec (.dbgResume v) s = .next s) ∧
    (bits v.toNat 40 2 = 2 → exec (.dbgResume v) s = .next (held.foldl (fun s u => s.endFibre u false) s)) ∧
    (bits v.toNat 40 2 ≤ 1 → exec (.dbgResume v) s = .next (s.updAll held fun f => f.resume (bits v.toNat 40 2) 0))) ∧
  (∀ (s : State) (part core array off : Nat),
    let p := s.partn part
    let ok := s.halted part core = true ∧ (p.phys? core).isSome = true
    let got (n : Nat) : Host.Outcome State Fault Refusal := .next { s with dbgData := [BitVec.ofNat 64 n] }
    (¬ ok → exec (.debugMemoryRead part core array off) s = .next s) ∧
    (ok → array = 0 → p.slab core (off % 2 ^ 20 / 2 ^ 18) ≠ 2 →
      exec (.debugMemoryRead part core array off) s = got (s.readNat (vltKey (p.phys core) (off % 2 ^ 20 / 8 * 8)) 8)) ∧
    (ok → array = 0 → p.slab core (off % 2 ^ 20 / 2 ^ 18) = 2 →
      exec (.debugMemoryRead part core array off) s = .next { s with dbgData := [BitVec.allOnes 64], dbgDark := true }) ∧
    (ok → array = 1 → exec (.debugMemoryRead part core array off) s = got (s.readNat (spdKey (p.phys core) (off % 2 ^ 18 / 8 * 8)) 8)) ∧
    (ok → array = 2 → ∀ f, s.fibres.find? (fun f => f.part == part && f.onCore == core && f.live && f.fid == off / 512) = some f →
      exec (.debugMemoryRead part core array off) s = .next { s with dbgData := [(f.vPair (off % 512)).val] }) ∧
    (ok → 3 ≤ array → ∀ g, s.groups.find? (fun (g : Group) => g.part == part && g.handle == off / 192) = some g →
      exec (.debugMemoryRead part core array off) s = .next { s with dbgData := [(g.sreg (off % 192)).val] })) ∧
  (∀ (s : State) (off : Nat) (v : BitVec 64), exec (.registerWrite none off v) s = .next (s.writeDevicePage off v)) ∧
  (∀ (s : State) (p off : Nat) (v : BitVec 64),
    (s.ready = false ∨ 16 ≤ p → exec (.registerWrite (some p) off v) s = .next s) ∧
    (s.ready = true → p < 16 → exec (.registerWrite (some p) off v) s = .next (s.writePage p off v))) ∧
  (∀ (s : State) (p : Nat) (v : BitVec 64),
    ((s.partn p).state ≠ 0 → (s.partn p).state ≠ 1 →
      ∀ off ∈ [0x010, 0x020, 0x028, 0x038, 0x040, 0x048, 0x060, 0x068, 0x070, 0x400], s.writePage p off v = s) ∧
    (writesD s (s.writePage p 0x010 v) p fun x => { x with clus := v.extractLsb' 0 32 }) ∧
    (writesD s (s.writePage p 0x028 v) p fun x => { x with reqva := kept (maskAt 6 58) v }) ∧
    (writesD s (s.writePage p 0x048 v) p fun x => { x with hsvcBase := v }) ∧
    (writesD s (s.writePage p 0x400 v) p fun x => { x with errlog := kept (maskAt 16 36 + maskAt 0 4) v }) ∧
    s.writePage p 0x018 v = s.updPart p (fun x => { x with mode := v.extractLsb' 0 5 }) ∧
    (v.toNat = 0 ∨ 4194240 < v.toNat → s.writePage p 0x030 v = s) ∧
    (0 < v.toNat → v.toNat ≤ 4194240 → s.writePage p 0x030 v = s.updPart p fun x => { x with preemptDl := v.toNat })) ∧
  ∀ (s : State) (p : Nat),
    s.readPage p 0x000 = BitVec.ofNat 64 ((s.partn p).state + (s.partn p).lstat * 2 ^ 24 + min 65535 (s.partn p).ovrcnt * 2 ^ 32) ∧
    s.readPage p 0x008 = 0 ∧ s.readPage p 0x050 = 0 ∧ s.readPage p 0x058 = 0 ∧ s.readPage p 0x408 = 0 ∧ (∀ off, 0x700 ≤ off → s.readPage p off = 0) ∧
    s.readPage p 0x010 = (s.partn p).clus.setWidth 64 ∧ s.readPage p 0x020 = (s.partn p).res ∧ s.readPage p 0x078 = (s.partn p).intCtl ∧
    (∀ k, k < 16 → s.readPage p (0x080 + 8 * k) = (s.contract p k).reg) ∧ s.readPage p 0x410 = (s.partn p).fpool ∧
    s.readDevicePage 0x008 = BitVec.ofNat 64 s.cmdStat ∧ s.readDevicePage 0x000 = 0 ∧ s.readDevicePage 0x030 = 0 ∧
    s.readDevicePage 0x010 = BitVec.ofNat 64 s.sysStat ∧ s.readDevicePage 0x028 = s.dbgEn.setWidth 64 ∧
    ∀ k, k < 8 → s.readDevicePage (0x600 + 16 * k) = (s.sink k).mode ∧ s.readDevicePage (0x608 + 16 * k) = (s.sink k).time

/-- A new sequence number of the request record is served, and its status is written with it: INT_CTL, PREEMPT_DL and the frame contracts may be written so, any other register answers status 2; the next host event is written into its slot with its count and MSI-X, unless the event 63 before it is unanswered; an answer to a written event closes it and acts on it as served or refused, any other answer is ignored; an event unanswered at its time counts as refused. -/
def Obligations.HostServices : Prop :=
  (∀ (s : State) (part : Nat),
    ((s.partn part).state ≠ 2 → exec (.requestRecordService part) s = .next s) ∧
    ((s.partn part).state = 2 → s.mmpRead part ((s.partn part).reqva.toNat + 16) = none → exec (.requestRecordService part) s = .next s) ∧
    ((s.partn part).state = 2 → ∀ seq s1, s.mmpRead part ((s.partn part).reqva.toNat + 16) = some (seq, s1) →
      (seq = (s1.partn part).reqSeq → exec (.requestRecordService part) s = .next s1) ∧
      (seq ≠ (s1.partn part).reqSeq → ∀ off s2 v s3, s1.mmpRead part (s.partn part).reqva.toNat = some (off, s2) →
        s2.mmpRead part ((s.partn part).reqva.toNat + 8) = some (v, s3) →
        let r := s3.requestWrite part off (BitVec.ofNat 64 v)
        exec (.requestRecordService part) s =
          .next ((r.1.updPart part fun p => { p with reqSeq := seq }).mmpWrite part ((s.partn part).reqva.toNat + 32) (seq * 256 % 2 ^ 64 + r.2))))) ∧
  (∀ (s : State) (part : Nat) (v : DWord),
    s.requestWrite part 0x078 v = ((s.writeIntCtl part v).1, if (s.writeIntCtl part v).2 then 0 else 1) ∧
    s.requestWrite part 0x030 v = ((s.writePreemptDl part v).1, if (s.writePreemptDl part v).2 then 0 else 1) ∧
    (∀ k, k < 16 → s.requestWrite part (0x080 + 8 * k) v = ((s.writeContract part k v).1, if (s.writeContract part k v).2 then 0 else 1)) ∧
    ∀ off, off ≠ 0x078 → off ≠ 0x030 → (off < 0x080 ∨ 0x100 ≤ off ∨ off % 8 ≠ 0) → s.requestWrite part off v = (s, 2)) ∧
  (∀ (s : State) (part : Nat),
    ((∀ e ∈ (s.partn part).hostEvents, e.written = true) → exec (.hostEventPost part) s = .next s) ∧
    ∀ e, (s.partn part).hostEvents.find? (fun e => !e.written) = some e →
      ((∃ x ∈ (s.partn part).hostEvents, x.written = true ∧ x.seq + 63 = e.seq) → exec (.hostEventPost part) s = .next s) ∧
      ((∀ x ∈ (s.partn part).hostEvents, x.written = true → x.seq + 63 ≠ e.seq) →
        let base := (s.partn part).hsvcBase.toNat
        let t := (s.hostWrite (base + 64 * (1 + (e.seq - 1) % 63)) (e.record part)).hostWrite base (leBytes 8 e.seq)
        let limited := e.kind = 1 ∨ e.kind = 2 ∨ e.kind = 3 ∨ e.kind = 6
        let due := t.clock + 50 * clocksPerMs
        let u := t.updPart part fun q => { q with
          hostCount := e.seq
          hostEvents := mapIf (fun (x : HostEvent) => x.seq == e.seq) (fun (x : HostEvent) => { x with written := true, due := if limited then some due else none }) q.hostEvents }
        let w := if limited then u.timer due (.hostEventTimeout part e.seq) else u
        exec (.hostEventPost part) s = .next (if (w.partn part).hostEvents.any (fun x => !x.written)
          then ({ w with msix := w.msix ++ [part] } : State).post (.hostEventPost part) else { w with msix := w.msix ++ [part] }))) ∧
  (∀ (s : State) (part : Nat) (word : BitVec 64),
    ((∀ e ∈ (s.partn part).hostEvents, e.written = true → e.seq ≠ word.toNat / 2 ^ 16) → exec (.hsvcAns part word) s = .next s) ∧
    ∀ e, (s.partn part).hostEvents.find? (fun e => e.written && e.seq == word.toNat / 2 ^ 16) = some e →
      exec (.hsvcAns part word) s = (s.closeEvent part e).answered part e (word.toNat % 256 == 0)) ∧
  (∀ (s : State) (part seq : Nat),
    (∀ e d, e ∈ (s.partn part).hostEvents → e.written = true → e.seq = seq → e.due = some d → d ≤ s.clock →
      (∀ x ∈ (s.partn part).hostEvents, x.seq = seq → x = e) → exec (.hostEventTimeout part seq) s = (s.closeEvent part e).answered part e false) ∧
    ((∀ e ∈ (s.partn part).hostEvents, e.seq = seq → ∀ d, e.due = some d → s.clock < d) → exec (.hostEventTimeout part seq) s = .next s)) ∧
  ∀ (s : State) (part : Nat) (e : HostEvent) (served : Bool), e.kind ≠ 3 →
    (e.kind = 5 → s.answered part e served = .next s) ∧
    (e.kind = 4 → s.answered part e served = .next (s.escalated part e served)) ∧
    (e.kind = 1 ∨ e.kind = 2 ∨ e.kind = 6 →
      ((s.partn part).serviceOf e.seq = none → s.answered part e served = .next s) ∧
      ∀ x, (s.partn part).serviceOf e.seq = some x →
        (served = false → s.answered part e served = .next (s.serviceFails part x 2)) ∧
        (served = true → s.walk part x.va = none → ∀ k r, x.frame = some k → x.region = some r →
          s.answered part e served = .next (s.insertEntry part x r k)))

/-- A boundary that is due asks the participating pipelines to save, and its capture turns the interval; a contract's period ends at its length, overrun where it has not delivered, and a budget spent before delivery overruns it; the FSC asks the fewest lower pipelines to save; a deadline saves by force; a gang without issue for 64 clocks leaves physical storage where another gang of its quadrant needs that to issue, and is recalled where there is room; a saved gang returns whole where nothing holds it; the starvation and age limits mark their gang; a diverted image is copied when its pages are there and a second one that has waited 2^24 clocks is a save fault; a migration moves its source to the target. -/
def Obligations.IntervalAndPreemption : Prop :=
  (∀ (s : State) (part : Nat),
    (s.boundaryDue part = false → exec (.intervalBoundary part) s = .next s) ∧
    (s.boundaryDue part = true →
      let u := s.updPart part fun p => { p with boundary := true }
      exec (.intervalBoundary part) s = .next (u.requestSave part 1 (u.participants part) (u.partn part).preemptDl))) ∧
  (∀ (s : State) (part : Nat),
    let p := s.partn part
    let hs := s.participants part
    let k := 1 - p.lastCapture
    let absent := (s.coresOf part hs).findSome? fun c => (s.absentPage part (slotBase p.saveBase (1 + k) c) (imageOffsets true)).map fun x => (c, x)
    (p.boundary = false ∨ s.captureReady part = false → exec (.intervalCapture part) s = .next s) ∧
    (p.boundary = true → s.captureReady part = true → p.saveBase = 0 → exec (.intervalCapture part) s = .next (s.saveFault part 0 0 0 0)) ∧
    (p.boundary = true → s.captureReady part = true → p.saveBase ≠ 0 → ∀ c off va, absent = some (c, off, va) →
      exec (.intervalCapture part) s = .next (s.servicePage part c off va false)) ∧
    (p.boundary = true → s.captureReady part = true → p.saveBase ≠ 0 → absent = none →
      let u := ((s.updPart part fun p => { p with captures := [none, none].set k (some (s.captureOf part hs false)), lastCapture := k, boundary := false, ickpt := false }).turnInterval part).armBoundary part
      let w : State := { u with pipes := mapIf (fun (x : Pipe) => x.part == part && hs.contains x.handle) (fun (x : Pipe) => { x with holds := addOnce (x.holds.filter fun h => h != 1) 3 }) u.pipes }
      let v := if (w.partn part).mode.getLsbD 4 then w.raiseHost part 5 (slotBase (w.partn part).saveBase (1 + k) 0) 98304 0 (1 + k) none 0 else w
      exec (.intervalCapture part) s = .next v)) ∧
  (∀ (s : State) (part k : Nat),
    let c := s.contract part k
    (c.adm = false → exec (.fscPeriodStart part k) s = .next s) ∧
    (c.adm = true → c.sync = true → exec (.fscPeriodStart part k) s = .next (s.beginPeriod part k s.clock)) ∧
    (∀ t, c.adm = true → c.sync = false → c.start = some t →
      (s.clock < t + c.p * 1800 → exec (.fscPeriodStart part k) s = .next s) ∧
      (t + c.p * 1800 ≤ s.clock → exec (.fscPeriodStart part k) s =
        .next ((s.beginPeriod part k (t + c.p * 1800)).timer (t + c.p * 1800 + c.p * 1800) (.fscPeriodStart part k))))) ∧
  (∀ (s : State) (part k : Nat),
    let c := s.contract part k
    let exhausted := c.adm = true ∧ c.start.isSome = true ∧ c.c * 1800 ≤ c.spent ∧ c.delivered = false ∧ c.overrun = false
    (exhausted → exec (.fscBudgetExhausted part k) s = .next (s.overrunPeriod part k)) ∧ (¬ exhausted → exec (.fscBudgetExhausted part k) s = .next s)) ∧
  (∀ (s : State) (part : Nat),
    (s.activeContract part = none → exec (.fscPreempt part) s = .next s) ∧
    ∀ k p x h hs, s.activeContract part = some k →
      ((s.runningPipes part).findSome? fun (p : Pipe) => if p.contract ≠ some k then none
        else (p.pending.find? fun x => (p.stages[x.stage]?).isSome && (s.startInstance p x).isNone).map fun x => (p, x)) = some (p, x) →
      (let order := (sortBy (fun (q : Pipe) => 3 - s.pipePrio q) ((s.runningPipes part).filter fun (q : Pipe) =>
          decide (((p.stages[x.stage]?).map fun r => s.effPrio p r.prio).getD 0 < s.pipePrio q) && q.holds.isEmpty)).map fun q => q.handle
       ((List.range (order.length + 1)).flatMap fun n => choose n order).find? fun hs => ((s.without part hs).startInstance p x).isSome) = some (h :: hs) →
      exec (.fscPreempt part) s = .next (s.requestSave part 3 (h :: hs) (s.partn part).preemptDl)) ∧
  (∀ (s : State) (part : Nat), exec (.preemptDeadline part) s = .next (s.forceSaves part) ∧
    ((∀ q ∈ (s.partn part).preqs, s.clock < q.deadline) → (∀ m ∈ (s.partn part).migrs, m.state = 1 → s.clock < m.deadline) →
      exec (.preemptDeadline part) s = .next s)) ∧
  (∀ (s : State) (g : GangId),
    let waits := g.slot < 8 ∧ (∃ f ∈ s.gangFibres g, f.tiered = false) ∧ (∀ f ∈ s.gangFibres g, f.lastIssue + 64 ≤ s.clock) ∧
      ∃ h ∈ s.neighbours g, s.wantsRecall h = true ∧ 32768 < s.wordsHeld h.part h.lcore h.quad false + s.gangWords h true ∧
        s.wordsHeld g.part g.lcore g.quad true + s.gangWords g false ≤ 65536 + s.gangWords h true
    let room := s.wordsHeld g.part g.lcore g.quad false + s.gangWords g true ≤ 32768
    (waits → exec (.gangTier g) s = .next { s with fibres := s.fibres.map fun f => if f.live && f.gang == g then { f with tiered := true, repLive := false, sb := [] } else f }) ∧
    (¬ waits → exec (.gangTier g) s = .next s) ∧
    (room → exec (.gangRecall g) s = .next { s with fibres := s.fibres.map fun f => if f.live && f.gang == g then { f with tiered := false } else f }) ∧
    (¬ room → exec (.gangRecall g) s = .next s)) ∧
  (∀ (s : State) (g : GangId),
    (s.gangFibres g = [] ∨ g.slot < 8 ∨ (∃ f ∈ s.gangFibres g, f.saved = false ∨ s.mayReturn f = false) ∨ s.slotFor (s.gangFibres g) = none →
      exec (.gangRestore g) s = .next s) ∧
    ∀ f fs k, s.gangFibres g = f :: fs → 8 ≤ g.slot → (∀ f ∈ s.gangFibres g, f.saved = true ∧ s.mayReturn f = true) → s.slotFor (s.gangFibres g) = some k →
      let missing := s.absentPage f.part (slotBase (s.partn f.part).saveBase 0 f.onCore) (imageOffsets false)
      (missing = none ∨ (s.partn f.part).emergency = some f.onCore → exec (.gangRestore g) s =
        .next ((s.gangFibres g).foldl (fun t f => t.updFibre f.uid fun x =>
          { x with slot := k, saved := false, tiered := decide (32768 < t.wordsHeld (s.fibre f.uid).part (s.fibre f.uid).onCore (s.fibre f.uid).quad false + (s.fibre f.uid).win) }) s)) ∧
      (∀ off va, missing = some (off, va) → (s.partn f.part).emergency ≠ some f.onCore →
        exec (.gangRestore g) s = .next (s.servicePage f.part f.onCore off va true))) ∧
  (∀ (s : State) (g : GangId),
    (g ∈ s.liveGangs → exec (.starvationBreak g) s = .next (s.setGang { s.gangRec g with breakNext := true, starve := 0 }) ∧
      exec (.primaryWaveAgeLimit g) s = .next (s.setGang { s.gangRec g with force := true })) ∧
    (g ∉ s.liveGangs → exec (.starvationBreak g) s = .next s ∧ exec (.primaryWaveAgeLimit g) s = .next s)) ∧
  (∀ (s : State) (part : Nat),
    ((s.partn part).emergency = none → exec (.emergencyImageCopy part) s = .next s) ∧
    ∀ core, (s.partn part).emergency = some core →
      let missing := s.absentPage part (slotBase (s.partn part).saveBase 0 core) (imageOffsets false)
      (missing = none → exec (.emergencyImageCopy part) s = .next (s.updPart part fun p => { p with emergency := none })) ∧
      (∀ off va, missing = some (off, va) → exec (.emergencyImageCopy part) s = .next (s.servicePage part core off va false))) ∧
  (∀ (s : State) (part : Nat),
    ((∀ x ∈ (s.partn part).diverting, s.clock < x.2 + 2 ^ 24) → exec (.saveDivertTimeout part) s = .next s) ∧
    ∀ core since off va, (s.partn part).diverting.find? (fun x => decide (x.2 + 2 ^ 24 ≤ s.clock)) = some (core, since) →
      s.absentPage part (slotBase (s.partn part).saveBase 0 core) (imageOffsets false) = some (off, va) →
      exec (.saveDivertTimeout part) s = .next (s.saveFault part core off va 2)) ∧
  ∀ (s : State) (part core : Nat),
    ((∀ m ∈ (s.partn part).migrs, m.src = core → m.state ≠ 2) → exec (.migrationMove part core) s = .next s) ∧
    ∀ m a, (s.partn part).migrs.find? (fun m => m.src == core && m.state == 2) = some m → (s.partn part).phys? core = some a →
      let u := s.writeBack fun w => w.core == a
      let w : State := { u with l1 := u.l1.filter (fun x => x.core != a), registry := u.registry.filter fun r => r.owner != a }
      exec (.migrationMove part core) s = .next ((((w.moveCore a m.dst).redirect part a m.dst).updPart part fun p => { p with
        lmap := p.lmap.set core (BitVec.ofNat 8 (128 + m.dst)), migrs := p.migrs.filter fun x => x.src != core }).selfInval m.dst)

/-- A sensor sample is kept; at 105 °C a core throttles until it is below 100 °C, at 115 °C the device trips and stops; a loop that a zone reads as lost brings its reduced table into force and the loss of both trips the device, and a table that changes raises MSI-X 17; bring-up leaves the machine as after reset with host memory as it was, and a failing step withholds READY with its step, reason and detail; a new ANS that names a pending record is acted on and acknowledged with 0, one that names none with 1, one that does not apply with 2; and a mismatch without an answer in time terminates its pipeline. -/
def Obligations.DeviceEvents : Prop :=
  (∀ (s : State) (core : Nat) (t : BitVec 12),
    (128 ≤ core ∨ s.trip = true → exec (.thermalSensorSample core t) s = .next s) ∧
    (core < 128 → s.trip = false →
      let was := (nth (0, false, false) s.therm core).2.1
      let u : State := { s with therm := s.therm.set core (t, decide (1680 ≤ t.toNat) || (was && decide (1600 ≤ t.toNat)), decide (1840 ≤ t.toNat)) }
      (t.toNat < 1520 ∨ (t.toNat < 1840 ∧ s.ready = false) → exec (.thermalSensorSample core t) s = .next u) ∧
      (1520 ≤ t.toNat → t.toNat < 1840 → s.ready = true → exec (.thermalSensorSample core t) s = .next (u.hotCore core t.toNat)) ∧
      (1840 ≤ t.toNat → ∃ v, exec (.thermalSensorSample core t) s = .next v ∧ v.trip = true ∧ v.table = 3 ∧ v.ready = false ∧ v.slots = [] ∧
        v.mem = s.mem ∧ v.fibres = s.fibres ∧ v.therm = u.therm))) ∧
  (∀ (s : State) (zone : Nat) (lost : Bool × Bool),
    (s.trip = true → exec (.coolingLoopLoss zone lost) s = .next s ∧ exec .nominalTableReturn s = .next s) ∧
    (s.trip = false →
      let u : State := { s with loops := s.loops.modify zone fun x => (x.1 || lost.1, x.2 || lost.2) }
      ((∃ x ∈ u.loops, x.1 = true) → (∃ x ∈ u.loops, x.2 = true) → exec (.coolingLoopLoss zone lost) s = .next (u.tripDevice 256)) ∧
      ((∃ x ∈ u.loops, x.1 = true) → (∀ x ∈ u.loops, x.2 = false) → exec (.coolingLoopLoss zone lost) s = .next (u.useTable 1)) ∧
      ((∀ x ∈ u.loops, x.1 = false) → (∃ x ∈ u.loops, x.2 = true) → exec (.coolingLoopLoss zone lost) s = .next (u.useTable 2)) ∧
      ((∀ x ∈ u.loops, x.1 = false) → (∀ x ∈ u.loops, x.2 = false) → exec (.coolingLoopLoss zone lost) s = .next u) ∧
      exec .nominalTableReturn s = .next ({ s with loops := List.replicate 8 (false, false) }.useTable 0))) ∧
  (∀ (s : State) (n : Nat), (s.table = n → s.useTable n = s) ∧ (s.table ≠ n → s.useTable n = { s with table := n, msix := s.msix ++ [17] })) ∧
  (∀ s : State, exec (.perstDeassert none) s =
    .next { State.reset with mem := s.mem.filter fun c => isHostKey c.1, fwver := s.fwver }) ∧
  (∀ (s : State) (x : BringFail), exec (.perstDeassert (some x)) s = .next { State.reset with
    mem := s.mem.filter fun c => isHostKey c.1, fwver := s.fwver, ready := false, failed := true, step := x.step - 1
    bringStep := BitVec.ofNat 3 x.step, bringReason := BitVec.ofNat 4 x.reason, bringDetail := BitVec.ofNat 16 x.detail }) ∧
  (∀ (s : State) (v : BitVec 16) (fail : Option BringFail),
    (s.ready = false → s.failed = false → exec (.firmwareReload v fail) s = .next s) ∧
    (s.ready = true ∨ s.failed = true →
      (fail = none → exec (.firmwareReload v fail) s = .next { State.reset with mem := s.mem.filter fun c => isHostKey c.1, fwver := v }) ∧
      ∀ x, fail = some x → exec (.firmwareReload v fail) s = .next { State.reset with
        mem := s.mem.filter fun c => isHostKey c.1, fwver := if x.step = 1 then s.fwver else v, ready := false, failed := true, step := x.step - 1
        bringStep := BitVec.ofNat 3 x.step, bringReason := BitVec.ofNat 4 x.reason, bringDetail := BitVec.ofNat 16 x.detail })) ∧
  (∀ (s : State) (part action : Nat) (i : Instr) (f : State → Awaited → Option State),
    ((action = 1 ∧ i = .ansRollback part ∧ f = fun s a => some (s.rollback part a.cause)) ∨
     (action = 2 ∧ i = .ansTerminate part ∧ f = fun s a => some (s.terminate part a.pipe a.cause)) ∨
     (action = 3 ∧ i = .ansReset part ∧ f = fun s _ => some (s.resetPart part)) ∨
     (action = 4 ∧ i = .ansRelease part ∧ f = fun s a => if a.cause = cReplMismatch ∧ (s.fibre a.uid).live then some (s.releasePoint a) else none)) →
    (s.ansWord part = none → exec i s = .next s) ∧
    ∀ ans, s.ansWord part = some ans →
      (s.ansNew part ans = false ∨ ans.toNat % 256 ≠ action → exec i s = .next s) ∧
      (s.ansNew part ans = true → ans.toNat % 256 = action →
        let u := s.acquireAns part ans
        (u.answered? part ans = none → exec i s = .next (u.acknowledgeAns part ans 1)) ∧
        (∀ a, u.answered? part ans = some a → f u a = none → exec i s = .next (u.acknowledgeAns part ans 2)) ∧
        (∀ a t, u.answered? part ans = some a → f u a = some t →
          exec i s = .next ((t.updPart part fun q => { q with awaited := q.awaited.filter fun x => x.seq != a.seq }).acknowledgeAns part ans 0)))) ∧
  ∀ (s : State) (part : Nat),
    (∀ a d, a ∈ (s.partn part).awaited → a.cause = cReplMismatch → a.due = some d → d ≤ s.clock →
      (∀ x ∈ (s.partn part).awaited, x.cause = cReplMismatch → x = a) → exec (.replMismatchTimeout part) s =
        .next ((s.updPart part fun q => { q with awaited := q.awaited.filter fun x => x.seq != a.seq }).terminate part a.pipe a.cause)) ∧
    ((∀ a ∈ (s.partn part).awaited, ∀ d, a.due = some d → s.clock < d) → exec (.replMismatchTimeout part) s = .next s)

/-- A store to a place that the core does not cache writes its bytes there, which then read back, and every other byte reads as before; a store to a cached place leaves memory as it is and writes the core's word of its tag: the bytes stored are valid and dirty, RLS is clear, a load of the fibre hits them at once, and every other word of every L1 is as it was. -/
def Obligations.StoreEffects : Prop :=
  (∀ (s : State) (f : Fibre) (l : Loc) (d : List Byte), l.cached = false → l.vers = false → isPeer l = false → s.owner 0 l.key l.grain = none →
    Memory.wf s.mem = true →
    let t := s.storeAt f l d
    t.bytes l.key d.length = d ∧ (∀ a, a < l.key ∨ l.key + d.length ≤ a → t.byte a = s.byte a) ∧ Memory.wf t.mem = true ∧
    t.fibres = s.fibres ∧ t.groups = s.groups ∧ t.parts = s.parts ∧ t.pipes = s.pipes ∧ t.registry = s.registry) ∧
  ∀ (s : State) (f : Fibre) (l : Loc) (d : List Byte), l.cached = true → l.vers = false → isPeer l = false → 0 < d.length → l.key % 4 + d.length ≤ 4 →
    let t := s.storeAt f l d
    t.mem = s.mem ∧ t.poisoned = s.poisoned ∧ t.registry = s.registry ∧ t.groups = s.groups ∧ t.parts = s.parts ∧
    (∃ w, t.l1Word (s.coreOf f) 0 l.key = some w ∧ w.rls = false ∧
      (∀ i, i < d.length → w.valid.getLsbD (l.key % 4 + i) = true ∧ w.dirty.getLsbD (l.key % 4 + i) = true) ∧
      ∀ b, b < 4 → (b < l.key % 4 ∨ l.key % 4 + d.length ≤ b) → ∀ o, s.l1Word (s.coreOf f) 0 l.key = some o →
        w.valid.getLsbD b = o.valid.getLsbD b ∧ w.dirty.getLsbD b = o.dirty.getLsbD b ∧ w.data.extractLsb' (8 * b) 8 = o.data.extractLsb' (8 * b) 8) ∧
    (∃ p, t.l1Hit f.part (s.coreOf f) f.tag l d.length false = some (d, p)) ∧
    ∀ c g k, (c ≠ s.coreOf f ∨ g ≠ 0 ∨ k / 4 ≠ l.key / 4) → t.l1Word c g k = s.l1Word c g k

namespace Sys2Proof

/-- The storing instructions, their issue, and the places that their accesses take (R243, R251, R252, R215). -/
def storeForms (e : Ext) : List (Instr × Issue × (State → List Nat → Except Stop (List Placed × List Nat))) :=
  [(.st e, { issueOf 0x21 0 e e.len with compare := e.sync = 2 }, fun s us => s.placeAll (usesOf 0x21 0 e) (accOf e (accessBytes e) 2 s) false us),
   (.mst e, { issueOf 0x22 0 e e.len with compare := e.sync = 2 }, fun s us => s.placeAll (usesOf 0x22 0 e) (multiAccs e (accessSize e.ty) s) true us),
   (.rst e, { issueOf 0x22 1 e e.len with compare := e.sync = 2 }, fun s us => s.placeAll [] (multiAccs e (if e.ty.wide then 8 else 4) s) true (us.take 1)),
   (.sst e, { issueOf 0x12 1 e e.len with compare := e.sync = 2 }, fun s us => s.placeAll (usesOf 0x12 1 e) (accOf e (accessSize e.ty) 2 s) false (us.take 1))]

/-- The spans that a store writes: the places of its accesses; an RST writes each element as a whole (R252). -/
def storedSpans (x : Instr) (e : Ext) (ps : List Placed) : List (Nat × Nat) :=
  if x = .rst e then ps.flatMap fun p => (p.pieces.take 1).map fun y => (y.loc.key, if e.ty.wide then 8 else 4)
  else ps.flatMap fun p => p.pieces.map fun y => (y.loc.key, y.n)
/-- No place of some accesses that goes round the L1 is registered; a registered block would first be written back (R78). -/
def directFree (s : State) (x : Instr) (e : Ext) (ps : List Placed) : Prop :=
  ∀ p ∈ ps, ∀ y ∈ p.pieces, y.loc.cached = false ∨ isPeer y.loc = true ∨ x = .rst e →
    ∀ t, s.owner t y.loc.key y.loc.grain = none

end Sys2Proof

/-- Where ST, MST, RST or SST completes: every byte of memory outside the places that the accesses take reads as before (versions of future tags and intervals are copies with places of their own), but for what the walks of its translations, which acquire, let owners write back, and for the phase of a named transaction barrier that the store reaches; every register, predicate, flag and FTZ mode of every fibre, every s-register of every group, the partitions and the pipelines are unchanged; the next state has no fibre more or less. -/
def Obligations.StoreFrame : Prop :=
  ∀ e : Ext, ∀ x ∈ storeForms e, ∀ (s t : State) (ps : List Placed) (ws : List Nat),
    let s1 := s.issuedBy x.2.1
    let us := s.activeSet x.2.1
    let s2 := s1.keepWalks (s1.fibre (us.headD 0)) ws
    Issues s x.2.1 → relPre e s1 us → x.2.2 s1 us = .ok (ps, ws) → notCommit s2 us → (x.1 ≠ .rst e → storePre s2 us ps) →
    (∀ y, x.1 = .rst y → s1.poisonUse (s1.fibre (us.headD 0)) (usesOf 0x22 1 e) = none ∧
      noPoison [⟨false, e.d.toNat, if e.ty.wide then 2 else 1, true, false⟩] s1 us ∧
      extraOk.redTypeOk ((s1.srcC (s1.fibre (us.headD 0)) e true).val.toNat / 16 % 8) e.ty = true) →
    Memory.wf s.mem = true → directFree s x.1 e ps → exec x.1 s = .next t →
      (∀ a, (∀ r ∈ storedSpans x.1 e ps, a < r.1 ∨ r.1 + r.2 ≤ a) → a < 16 * spaceSize → a ∉ s.txbs →
        (∀ w ∈ s.l1, w.dirty ≠ 0 → w.rls = true → a < copyKey w.tag w.key ∨ copyKey w.tag w.key + 4 ≤ a) → t.byte a = s.byte a) ∧
      (∀ u, (t.fibre u).vregs = (s.fibre u).vregs ∧ (t.fibre u).preds = (s.fibre u).preds ∧ (t.fibre u).flags = (s.fibre u).flags ∧
        (t.fibre u).ftz = (s.fibre u).ftz) ∧
      (∀ i, (t.group i).sregs = (s.group i).sregs) ∧ t.parts = s.parts ∧ t.pipes = s.pipes ∧ t.fibres.length = s.fibres.length

namespace Sys2Proof

/-- The instructions of one checked access for each fibre: the issue, the registers read, the access, and the first check (R241, R511). -/
def accessForms (e : Ext) (s : State) : List (Instr × Issue × List RegUse × Nat) :=
  [(.ld e, { issueOf 0x20 0 e e.len with once := e.sync = 1, take := takeAcquire e }, addrUses e, accessBytes e),
   (.st e, { issueOf 0x21 0 e e.len with compare := e.sync = 2 }, usesOf 0x21 0 e, accessBytes e)] ++
  (atomics e).map fun x => (x.1, atomIssue x.2 e s, usesOf x.2.major x.2.op e, atomicSize e.ty)

end Sys2Proof

/-- For LD, and for ST, ATOM, CAS and RED without a release, the checks of the lowest active fibre come first and in this order: a poisoned register read gives POISON_USE; an address that is no multiple of its alignment, the size up to 16 bytes, gives MISALIGN with ADDR the address and DETAIL the alignment; an access across its window, or an address of global memory that is not canonical, gives the trap of the window. The trap holds the active fibres, and nothing has been accessed. -/
def Obligations.AccessTraps : Prop :=
  ∀ (e : Ext) (s : State), ∀ x ∈ accessForms e s,
    let s1 := s.issuedBy x.2.1
    let us := s.activeSet x.2.1
    let f := s1.fibre (us.headD 0)
    let n := x.2.2.2
    Issues s x.2.1 → (x.1 = .ld e ∨ e.sync < 2) →
      (∀ t, s1.poisonUse f x.2.2.1 = some t → exec x.1 s = .next (s.trap (us.headD 0) us t none (some e.len))) ∧
      (s1.poisonUse f x.2.2.1 = none → s1.ea f e % min n 16 ≠ 0 →
        exec x.1 s = .next (s.trap (us.headD 0) us { cause := 0x0003, addr := s1.ea f e, detail := min n 16 } none (some e.len))) ∧
      (s1.poisonUse f x.2.2.1 = none → s1.ea f e % min n 16 = 0 → ∀ t, decodeWindow (s1.ea f e) n e.win = .error t →
        exec x.1 s = .next (s.trap (us.headD 0) us t none (some e.len)))

namespace Sys2Proof

/-- The instructions that first check the registers they read in every active fibre (R105, R448). -/
def poisonForms (e : Ext) : List (Instr × Issue × List RegUse) :=
  [(.spawn e, { issueOf 2 5 e e.len with once := true, take := takeSpawn },
      slotUse (.vs .pair 1) e.ak e.a true false e ++ bSlotUse (.src [0, 1, 2] .one 1 false true) e),
   (.repack e, issueOf 2 6 e e.len, [⟨false, e.a.toNat, 1, true, false⟩]),
   (.launch e, { issueOf 5 0 e e.len with compare := true, once := true }, [⟨true, e.a.toNat, 1, true, false⟩]),
   (.prefetch e, issueOf 0x23 1 e e.len, addrUses e), (.cinv e, issueOf 0x37 0 e e.len, addrUses e), (.cwb e, issueOf 0x37 1 e e.len, addrUses e),
   (.tlbinv e, { issueOf 0x37 2 e e.len with priv := true }, addrUses e)]

/-- The instructions that check an address in each active fibre, ascending: the registers read, and the checks that follow those of poison (R241, R446). -/
def laneForms (e : Ext) : List (Instr × Issue × List RegUse × (State → Fibre → Except Stop Unit)) :=
  [(.pagereq e, { issueOf 0x23 0 e e.len with compare := true, once := true }, addrUses e, fun s f =>
      match decodeWindow (s.ea f e) 1 e.win with | .error t => .error (.trap t) | .ok _ => .ok ()),
   (.txbarr e, { issueOf 0x27 6 e e.len with compare := true }, usesOf 0x27 6 e, fun s f => (s.txbKey f e 3).map fun _ => ()),
   (.txbwait e, issueOf 0x27 7 e e.len, usesOf 0x27 7 e, fun s f => (s.txbKey f e 1).map fun _ => ())]

end Sys2Proof

/-- SPAWN, REPACK, LAUNCH, PREFETCH, CINV, CWB and TLBINV trap POISON_USE where a register that an active fibre reads carries poison; PAGEREQ, TXBARR and TXBWAIT trap with the cause of the lowest active fibre that fails, POISON_USE where a register that it reads carries poison and else that of its address; SPAWN traps MISALIGN at an entry address that is no multiple of 4, LAUNCH at a descriptor address that is no multiple of 64; TFENCE traps ARITH where a flag of an active fibre is set that TRAP_ENABLES enables, with those flags as DETAIL. -/
def Obligations.OperandTraps : Prop :=
  ∀ (e : Ext) (s : State),
    (∀ x ∈ poisonForms e,
      let s1 := s.issuedBy x.2.1
      let us := s.activeSet x.2.1
      Issues s x.2.1 → ∀ t, us.findSome? (fun u => s1.poisonUse (s1.fibre u) x.2.2) = some t →
        exec x.1 s = .next (s.trap (us.headD 0) us t none (some e.len))) ∧
    (∀ x ∈ laneForms e,
      let s1 := s.issuedBy x.2.1
      let us := s.activeSet x.2.1
      Issues s x.2.1 → ∀ vs u ws, us = vs ++ u :: ws →
        (∀ v ∈ vs, s1.poisonUse (s1.fibre v) x.2.2.1 = none ∧ x.2.2.2 s1 (s1.fibre v) = .ok ()) →
        ∀ t, (s1.poisonUse (s1.fibre u) x.2.2.1 = some t ∨ s1.poisonUse (s1.fibre u) x.2.2.1 = none ∧ x.2.2.2 s1 (s1.fibre u) = .error (.trap t)) →
          exec x.1 s = .next (s.trap (us.headD 0) us t none (some e.len))) ∧
    (let i : Issue := { issueOf 2 5 e e.len with once := true, take := takeSpawn }
     let s1 := s.issuedBy i
     let us := s.activeSet i
     Issues s i → (∀ u ∈ us, s1.poisonUse (s1.fibre u) (slotUse (.vs .pair 1) e.ak e.a true false e ++ bSlotUse (.src [0, 1, 2] .one 1 false true) e) = none) →
       ∀ u, us.find? (fun u => (s1.srcA (s1.fibre u) e true).val.toNat % 4 != 0) = some u →
         exec (.spawn e) s = .next (s.trap (us.headD 0) us { cause := 0x0003, addr := (s1.srcA (s1.fibre u) e true).val.toNat, detail := 4 } none (some e.len))) ∧
    (let i : Issue := { issueOf 5 0 e e.len with compare := true, once := true }
     let s1 := s.issuedBy i
     let us := s.activeSet i
     let a := (s1.srcA (s1.fibre (us.headD 0)) e true).val.toNat
     Issues s i → (∀ u ∈ us, s1.poisonUse (s1.fibre u) [⟨true, e.a.toNat, 1, true, false⟩] = none) → a % 64 ≠ 0 →
       exec (.launch e) s = .next (s.trap (us.headD 0) us { cause := 0x0003, addr := a, detail := 64 } none (some e.len))) ∧
    (let i : Issue := issueOf 6 7 e e.len
     let s1 := s.issuedBy i
     let us := s.activeSet i
     let on (u : Nat) := (s1.fibre u).flags &&& (s1.fibre u).ftz.extractLsb' 32 5
     Issues s i → ∀ u, us.find? (fun u => on u != 0) = some u →
       exec (.tfence e) s = .next (s.trap (us.headD 0) us { cause := 0x0009, detail := (on u).toNat } none (some e.len)))

end
end

