-- ==== Sys2Proof/Laws/Map.lean ====
section
/-! SUPPORT. The laws of finite maps in canonical form: reading what was written, leaving every other key alone, and keeping the form. -/

namespace Sys2Proof.Machine

section

variable {β : Type} [DecidableEq β] {d : β}

theorem mapGet_nil (a : Nat) : mapGet d ([] : List (Nat × β)) a = d := rfl

/-- A key below every listed one reads as the default. -/
theorem mapGet_of_lt {m : List (Nat × β)} {k a : Nat} (h : mapWfFrom d (some k) m) (ha : a ≤ k) : mapGet d m a = d := by
  induction m generalizing k with
  | nil => rfl
  | cons e r ih =>
    obtain ⟨k', v⟩ := e
    simp only [mapWfFrom, Bool.and_eq_true, decide_eq_true_eq] at h
    have : a ≠ k' := by omega
    simp only [mapGet, this, if_false]
    exact ih h.2 (by omega)

/-- A looser lower bound. -/
theorem mapWfFrom_mono {m : List (Nat × β)} {l k : Nat} (h : mapWfFrom d (some k) m) (hl : l ≤ k) : mapWfFrom d (some l) m := by
  cases m with
  | nil => rfl
  | cons e r =>
    obtain ⟨k', v⟩ := e
    simp only [mapWfFrom, Bool.and_eq_true, decide_eq_true_eq] at h ⊢
    exact ⟨⟨by omega, h.1.2⟩, h.2⟩

/-- No lower bound. -/
theorem mapWfFrom_none {m : List (Nat × β)} {k : Nat} (h : mapWfFrom d (some k) m) : mapWfFrom d none m := by
  cases m with
  | nil => rfl
  | cons e r =>
    obtain ⟨k', v⟩ := e
    simp only [mapWfFrom, Bool.and_eq_true, decide_eq_true_eq] at h ⊢
    exact ⟨⟨trivial, h.1.2⟩, h.2⟩

/-- Writing keeps the form above a bound that lies below the key. -/
theorem mapWfFrom_set {m : List (Nat × β)} {l a : Nat} {x : β} (h : mapWfFrom d (some l) m) (ha : l < a) :
    mapWfFrom d (some l) (mapSet d m a x) := by
  induction m generalizing l with
  | nil =>
    by_cases hx : x = d
    · simp [mapSet, hx, mapWfFrom]
    · simp [mapSet, hx, mapWfFrom, ha]
  | cons e r ih =>
    obtain ⟨k, v⟩ := e
    simp only [mapWfFrom, Bool.and_eq_true, decide_eq_true_eq] at h
    simp only [mapSet]
    split
    · split
      · simp [mapWfFrom, h]
      · simp_all [mapWfFrom]
    · split
      · split
        · exact mapWfFrom_mono h.2 (by omega)
        · simp_all [mapWfFrom]
      · simp only [mapWfFrom, Bool.and_eq_true, decide_eq_true_eq]
        exact ⟨h.1, ih h.2 (by omega)⟩

/-- Writing keeps the canonical form. -/
theorem mapWf_set {m : List (Nat × β)} {a : Nat} {x : β} (h : mapWf d m) : mapWf d (mapSet d m a x) := by
  cases m with
  | nil => by_cases hx : x = d <;> simp [mapSet, hx, mapWf, mapWfFrom]
  | cons e r =>
    obtain ⟨k, v⟩ := e
    simp only [mapWf, mapWfFrom, Bool.and_eq_true, decide_eq_true_eq, true_and] at h
    simp only [mapWf, mapSet]
    split
    · split
      · simp [mapWfFrom, h]
      · simp_all [mapWfFrom]
    · split
      · split
        · exact mapWfFrom_none h.2
        · simp_all [mapWfFrom]
      · simp only [mapWfFrom, Bool.and_eq_true, decide_eq_true_eq]
        exact ⟨⟨trivial, h.1⟩, mapWfFrom_set h.2 (by omega)⟩

/-- What reads after a write, in a map in canonical form above a bound. -/
theorem mapGet_setFrom {m : List (Nat × β)} {o : Option Nat} {a b : Nat} {x : β} (h : mapWfFrom d o m) :
    mapGet d (mapSet d m a x) b = if b = a then x else mapGet d m b := by
  induction m generalizing o with
  | nil => by_cases hx : x = d <;> by_cases hb : b = a <;> simp [mapSet, hx, hb, mapGet]
  | cons e r ih =>
    obtain ⟨k, v⟩ := e
    simp only [mapWfFrom, Bool.and_eq_true] at h
    simp only [mapSet]
    split
    · rename_i hlt
      split
      · rename_i hx
        by_cases hb : b = a
        · subst hb; subst hx
          have : b ≠ k := by omega
          simp only [mapGet, this, if_false, if_true]
          exact mapGet_of_lt h.2 (by omega)
        · simp [hb]
      · by_cases hb : b = a <;> simp [mapGet, hb]
    · split
      · rename_i hk
        subst hk
        split
        · rename_i hx
          by_cases hb : b = a
          · subst hb; subst hx
            simp only [if_true]
            exact mapGet_of_lt h.2 (Nat.le_refl _)
          · simp [mapGet, hb]
        · by_cases hb : b = a <;> simp [mapGet, hb]
      · by_cases hb : b = k
        · subst hb
          rename_i _ hk
          simp [mapGet, Ne.symm hk]
        · simp only [mapGet, hb, if_false]
          exact ih h.2

/-- Reading the key written gives the value written. -/
theorem mapGet_set_same {m : List (Nat × β)} {a : Nat} {x : β} (h : mapWf d m) : mapGet d (mapSet d m a x) a = x := by
  rw [mapGet_setFrom h, if_pos rfl]

/-- Writing a key leaves every other key alone. -/
theorem mapGet_set_other {m : List (Nat × β)} {a b : Nat} {x : β} (h : b ≠ a) (hm : mapWf d m) : mapGet d (mapSet d m a x) b = mapGet d m b := by
  rw [mapGet_setFrom hm, if_neg h]

/-- Leaving out entries keeps the form above a bound. -/
theorem mapWfFrom_filter {m : List (Nat × β)} {p : Nat × β → Bool} {l : Nat} (h : mapWfFrom d (some l) m) :
    mapWfFrom d (some l) (m.filter p) := by
  induction m generalizing l with
  | nil => rfl
  | cons e r ih =>
    obtain ⟨k, v⟩ := e
    simp only [mapWfFrom, Bool.and_eq_true, decide_eq_true_eq] at h
    simp only [List.filter]
    split
    · simp only [mapWfFrom, Bool.and_eq_true, decide_eq_true_eq]
      exact ⟨h.1, ih h.2⟩
    · exact mapWfFrom_mono (ih h.2) (by omega)

/-- Leaving out entries keeps the canonical form. -/
theorem mapWf_filter {m : List (Nat × β)} {p : Nat × β → Bool} (h : mapWf d m) : mapWf d (m.filter p) := by
  induction m with
  | nil => rfl
  | cons e r ih =>
    obtain ⟨k, v⟩ := e
    simp only [mapWf, mapWfFrom, Bool.and_eq_true, decide_eq_true_eq, true_and] at h
    simp only [List.filter]
    split
    · simp only [mapWf, mapWfFrom, Bool.and_eq_true, decide_eq_true_eq, true_and]
      exact ⟨h.1, mapWfFrom_filter h.2⟩
    · exact ih (mapWfFrom_none h.2)

end

end Sys2Proof.Machine
end

