-- ==== Sys2Proof/Laws/State.lean ====
section
/-! SUPPORT. One lemma for each field and each update of the state: what the update leaves alone. -/

namespace Sys2Proof.Machine

section

variable (s : State)

/-! ### updFibre -/

@[simp] theorem State.updFibre_clock (u : Nat) (g : Fibre → Fibre) : (s.updFibre u g).clock = s.clock := rfl
@[simp] theorem State.updFibre_ready (u : Nat) (g : Fibre → Fibre) : (s.updFibre u g).ready = s.ready := rfl
@[simp] theorem State.updFibre_failed (u : Nat) (g : Fibre → Fibre) : (s.updFibre u g).failed = s.failed := rfl
@[simp] theorem State.updFibre_trip (u : Nat) (g : Fibre → Fibre) : (s.updFibre u g).trip = s.trip := rfl
@[simp] theorem State.updFibre_step (u : Nat) (g : Fibre → Fibre) : (s.updFibre u g).step = s.step := rfl
@[simp] theorem State.updFibre_fwver (u : Nat) (g : Fibre → Fibre) : (s.updFibre u g).fwver = s.fwver := rfl
@[simp] theorem State.updFibre_table (u : Nat) (g : Fibre → Fibre) : (s.updFibre u g).table = s.table := rfl
@[simp] theorem State.updFibre_bringDetail (u : Nat) (g : Fibre → Fibre) : (s.updFibre u g).bringDetail = s.bringDetail := rfl
@[simp] theorem State.updFibre_bringReason (u : Nat) (g : Fibre → Fibre) : (s.updFibre u g).bringReason = s.bringReason := rfl
@[simp] theorem State.updFibre_bringStep (u : Nat) (g : Fibre → Fibre) : (s.updFibre u g).bringStep = s.bringStep := rfl
@[simp] theorem State.updFibre_loops (u : Nat) (g : Fibre → Fibre) : (s.updFibre u g).loops = s.loops := rfl
@[simp] theorem State.updFibre_therm (u : Nat) (g : Fibre → Fibre) : (s.updFibre u g).therm = s.therm := rfl
@[simp] theorem State.updFibre_dbgDark (u : Nat) (g : Fibre → Fibre) : (s.updFibre u g).dbgDark = s.dbgDark := rfl
@[simp] theorem State.updFibre_dbgEn (u : Nat) (g : Fibre → Fibre) : (s.updFibre u g).dbgEn = s.dbgEn := rfl
@[simp] theorem State.updFibre_dbgData (u : Nat) (g : Fibre → Fibre) : (s.updFibre u g).dbgData = s.dbgData := rfl
@[simp] theorem State.updFibre_cmdStat (u : Nat) (g : Fibre → Fibre) : (s.updFibre u g).cmdStat = s.cmdStat := rfl
@[simp] theorem State.updFibre_destroyWait (u : Nat) (g : Fibre → Fibre) : (s.updFibre u g).destroyWait = s.destroyWait := rfl
@[simp] theorem State.updFibre_sinks (u : Nat) (g : Fibre → Fibre) : (s.updFibre u g).sinks = s.sinks := rfl
@[simp] theorem State.updFibre_dlog (u : Nat) (g : Fibre → Fibre) : (s.updFibre u g).dlog = s.dlog := rfl
@[simp] theorem State.updFibre_dlogHead (u : Nat) (g : Fibre → Fibre) : (s.updFibre u g).dlogHead = s.dlogHead := rfl
@[simp] theorem State.updFibre_dlogSel (u : Nat) (g : Fibre → Fibre) : (s.updFibre u g).dlogSel = s.dlogSel := rfl
@[simp] theorem State.updFibre_msix (u : Nat) (g : Fibre → Fibre) : (s.updFibre u g).msix = s.msix := rfl
@[simp] theorem State.updFibre_linkLost (u : Nat) (g : Fibre → Fibre) : (s.updFibre u g).linkLost = s.linkLost := rfl
@[simp] theorem State.updFibre_tags (u : Nat) (g : Fibre → Fibre) : (s.updFibre u g).tags = s.tags := rfl
@[simp] theorem State.updFibre_parts (u : Nat) (g : Fibre → Fibre) : (s.updFibre u g).parts = s.parts := rfl
@[simp] theorem State.updFibre_pipes (u : Nat) (g : Fibre → Fibre) : (s.updFibre u g).pipes = s.pipes := rfl
@[simp] theorem State.updFibre_groups (u : Nat) (g : Fibre → Fibre) : (s.updFibre u g).groups = s.groups := rfl
@[simp] theorem State.updFibre_ports (u : Nat) (g : Fibre → Fibre) : (s.updFibre u g).ports = s.ports := rfl
@[simp] theorem State.updFibre_vports (u : Nat) (g : Fibre → Fibre) : (s.updFibre u g).vports = s.vports := rfl
@[simp] theorem State.updFibre_rays (u : Nat) (g : Fibre → Fibre) : (s.updFibre u g).rays = s.rays := rfl
@[simp] theorem State.updFibre_gathers (u : Nat) (g : Fibre → Fibre) : (s.updFibre u g).gathers = s.gathers := rfl
@[simp] theorem State.updFibre_gfails (u : Nat) (g : Fibre → Fibre) : (s.updFibre u g).gfails = s.gfails := rfl
@[simp] theorem State.updFibre_copies (u : Nat) (g : Fibre → Fibre) : (s.updFibre u g).copies = s.copies := rfl
@[simp] theorem State.updFibre_beams (u : Nat) (g : Fibre → Fibre) : (s.updFibre u g).beams = s.beams := rfl
@[simp] theorem State.updFibre_jobs (u : Nat) (g : Fibre → Fibre) : (s.updFibre u g).jobs = s.jobs := rfl
@[simp] theorem State.updFibre_structs (u : Nat) (g : Fibre → Fibre) : (s.updFibre u g).structs = s.structs := rfl
@[simp] theorem State.updFibre_stepSets (u : Nat) (g : Fibre → Fibre) : (s.updFibre u g).stepSets = s.stepSets := rfl
@[simp] theorem State.updFibre_tmmas (u : Nat) (g : Fibre → Fibre) : (s.updFibre u g).tmmas = s.tmmas := rfl
@[simp] theorem State.updFibre_mxe (u : Nat) (g : Fibre → Fibre) : (s.updFibre u g).mxe = s.mxe := rfl
@[simp] theorem State.updFibre_collects (u : Nat) (g : Fibre → Fibre) : (s.updFibre u g).collects = s.collects := rfl
@[simp] theorem State.updFibre_gangs (u : Nat) (g : Fibre → Fibre) : (s.updFibre u g).gangs = s.gangs := rfl
@[simp] theorem State.updFibre_mem (u : Nat) (g : Fibre → Fibre) : (s.updFibre u g).mem = s.mem := rfl
@[simp] theorem State.updFibre_l1 (u : Nat) (g : Fibre → Fibre) : (s.updFibre u g).l1 = s.l1 := rfl
@[simp] theorem State.updFibre_registry (u : Nat) (g : Fibre → Fibre) : (s.updFibre u g).registry = s.registry := rfl
@[simp] theorem State.updFibre_vers (u : Nat) (g : Fibre → Fibre) : (s.updFibre u g).vers = s.vers := rfl
@[simp] theorem State.updFibre_verLines (u : Nat) (g : Fibre → Fibre) : (s.updFibre u g).verLines = s.verLines := rfl
@[simp] theorem State.updFibre_hostLines (u : Nat) (g : Fibre → Fibre) : (s.updFibre u g).hostLines = s.hostLines := rfl
@[simp] theorem State.updFibre_hostHeld (u : Nat) (g : Fibre → Fibre) : (s.updFibre u g).hostHeld = s.hostHeld := rfl
@[simp] theorem State.updFibre_peerWrites (u : Nat) (g : Fibre → Fibre) : (s.updFibre u g).peerWrites = s.peerWrites := rfl
@[simp] theorem State.updFibre_reducing (u : Nat) (g : Fibre → Fibre) : (s.updFibre u g).reducing = s.reducing := rfl
@[simp] theorem State.updFibre_txbs (u : Nat) (g : Fibre → Fibre) : (s.updFibre u g).txbs = s.txbs := rfl
@[simp] theorem State.updFibre_hostData (u : Nat) (g : Fibre → Fibre) : (s.updFibre u g).hostData = s.hostData := rfl
@[simp] theorem State.updFibre_tlb (u : Nat) (g : Fibre → Fibre) : (s.updFibre u g).tlb = s.tlb := rfl
@[simp] theorem State.updFibre_leases (u : Nat) (g : Fibre → Fibre) : (s.updFibre u g).leases = s.leases := rfl
@[simp] theorem State.updFibre_loads (u : Nat) (g : Fibre → Fibre) : (s.updFibre u g).loads = s.loads := rfl
@[simp] theorem State.updFibre_poisoned (u : Nat) (g : Fibre → Fibre) : (s.updFibre u g).poisoned = s.poisoned := rfl
@[simp] theorem State.updFibre_spares (u : Nat) (g : Fibre → Fibre) : (s.updFibre u g).spares = s.spares := rfl
@[simp] theorem State.updFibre_merged (u : Nat) (g : Fibre → Fibre) : (s.updFibre u g).merged = s.merged := rfl
@[simp] theorem State.updFibre_errors (u : Nat) (g : Fibre → Fibre) : (s.updFibre u g).errors = s.errors := rfl
@[simp] theorem State.updFibre_pendV (u : Nat) (g : Fibre → Fibre) : (s.updFibre u g).pendV = s.pendV := rfl
@[simp] theorem State.updFibre_cur (u : Nat) (g : Fibre → Fibre) : (s.updFibre u g).cur = s.cur := rfl
@[simp] theorem State.updFibre_agenda (u : Nat) (g : Fibre → Fibre) : (s.updFibre u g).agenda = s.agenda := rfl
@[simp] theorem State.updFibre_timers (u : Nat) (g : Fibre → Fibre) : (s.updFibre u g).timers = s.timers := rfl
@[simp] theorem State.updFibre_curWord (u : Nat) (g : Fibre → Fibre) : (s.updFibre u g).curWord = s.curWord := rfl
@[simp] theorem State.updFibre_slots (u : Nat) (g : Fibre → Fibre) : (s.updFibre u g).slots = s.slots := rfl
@[simp] theorem State.updFibre_plan (u : Nat) (g : Fibre → Fibre) : (s.updFibre u g).plan = s.plan := rfl
@[simp] theorem State.updFibre_nextUid (u : Nat) (g : Fibre → Fibre) : (s.updFibre u g).nextUid = s.nextUid := rfl
@[simp] theorem State.updFibre_nextId (u : Nat) (g : Fibre → Fibre) : (s.updFibre u g).nextId = s.nextId := rfl
@[simp] theorem State.updFibre_free (u : Nat) (g : Fibre → Fibre) : (s.updFibre u g).free = s.free := rfl

/-! ### updAll -/

@[simp] theorem State.updAll_clock (us : List Nat) (g : Fibre → Fibre) : (s.updAll us g).clock = s.clock := rfl
@[simp] theorem State.updAll_ready (us : List Nat) (g : Fibre → Fibre) : (s.updAll us g).ready = s.ready := rfl
@[simp] theorem State.updAll_failed (us : List Nat) (g : Fibre → Fibre) : (s.updAll us g).failed = s.failed := rfl
@[simp] theorem State.updAll_trip (us : List Nat) (g : Fibre → Fibre) : (s.updAll us g).trip = s.trip := rfl
@[simp] theorem State.updAll_step (us : List Nat) (g : Fibre → Fibre) : (s.updAll us g).step = s.step := rfl
@[simp] theorem State.updAll_fwver (us : List Nat) (g : Fibre → Fibre) : (s.updAll us g).fwver = s.fwver := rfl
@[simp] theorem State.updAll_table (us : List Nat) (g : Fibre → Fibre) : (s.updAll us g).table = s.table := rfl
@[simp] theorem State.updAll_bringDetail (us : List Nat) (g : Fibre → Fibre) : (s.updAll us g).bringDetail = s.bringDetail := rfl
@[simp] theorem State.updAll_bringReason (us : List Nat) (g : Fibre → Fibre) : (s.updAll us g).bringReason = s.bringReason := rfl
@[simp] theorem State.updAll_bringStep (us : List Nat) (g : Fibre → Fibre) : (s.updAll us g).bringStep = s.bringStep := rfl
@[simp] theorem State.updAll_loops (us : List Nat) (g : Fibre → Fibre) : (s.updAll us g).loops = s.loops := rfl
@[simp] theorem State.updAll_therm (us : List Nat) (g : Fibre → Fibre) : (s.updAll us g).therm = s.therm := rfl
@[simp] theorem State.updAll_dbgDark (us : List Nat) (g : Fibre → Fibre) : (s.updAll us g).dbgDark = s.dbgDark := rfl
@[simp] theorem State.updAll_dbgEn (us : List Nat) (g : Fibre → Fibre) : (s.updAll us g).dbgEn = s.dbgEn := rfl
@[simp] theorem State.updAll_dbgData (us : List Nat) (g : Fibre → Fibre) : (s.updAll us g).dbgData = s.dbgData := rfl
@[simp] theorem State.updAll_cmdStat (us : List Nat) (g : Fibre → Fibre) : (s.updAll us g).cmdStat = s.cmdStat := rfl
@[simp] theorem State.updAll_destroyWait (us : List Nat) (g : Fibre → Fibre) : (s.updAll us g).destroyWait = s.destroyWait := rfl
@[simp] theorem State.updAll_sinks (us : List Nat) (g : Fibre → Fibre) : (s.updAll us g).sinks = s.sinks := rfl
@[simp] theorem State.updAll_dlog (us : List Nat) (g : Fibre → Fibre) : (s.updAll us g).dlog = s.dlog := rfl
@[simp] theorem State.updAll_dlogHead (us : List Nat) (g : Fibre → Fibre) : (s.updAll us g).dlogHead = s.dlogHead := rfl
@[simp] theorem State.updAll_dlogSel (us : List Nat) (g : Fibre → Fibre) : (s.updAll us g).dlogSel = s.dlogSel := rfl
@[simp] theorem State.updAll_msix (us : List Nat) (g : Fibre → Fibre) : (s.updAll us g).msix = s.msix := rfl
@[simp] theorem State.updAll_linkLost (us : List Nat) (g : Fibre → Fibre) : (s.updAll us g).linkLost = s.linkLost := rfl
@[simp] theorem State.updAll_tags (us : List Nat) (g : Fibre → Fibre) : (s.updAll us g).tags = s.tags := rfl
@[simp] theorem State.updAll_parts (us : List Nat) (g : Fibre → Fibre) : (s.updAll us g).parts = s.parts := rfl
@[simp] theorem State.updAll_pipes (us : List Nat) (g : Fibre → Fibre) : (s.updAll us g).pipes = s.pipes := rfl
@[simp] theorem State.updAll_groups (us : List Nat) (g : Fibre → Fibre) : (s.updAll us g).groups = s.groups := rfl
@[simp] theorem State.updAll_ports (us : List Nat) (g : Fibre → Fibre) : (s.updAll us g).ports = s.ports := rfl
@[simp] theorem State.updAll_vports (us : List Nat) (g : Fibre → Fibre) : (s.updAll us g).vports = s.vports := rfl
@[simp] theorem State.updAll_rays (us : List Nat) (g : Fibre → Fibre) : (s.updAll us g).rays = s.rays := rfl
@[simp] theorem State.updAll_gathers (us : List Nat) (g : Fibre → Fibre) : (s.updAll us g).gathers = s.gathers := rfl
@[simp] theorem State.updAll_gfails (us : List Nat) (g : Fibre → Fibre) : (s.updAll us g).gfails = s.gfails := rfl
@[simp] theorem State.updAll_copies (us : List Nat) (g : Fibre → Fibre) : (s.updAll us g).copies = s.copies := rfl
@[simp] theorem State.updAll_beams (us : List Nat) (g : Fibre → Fibre) : (s.updAll us g).beams = s.beams := rfl
@[simp] theorem State.updAll_jobs (us : List Nat) (g : Fibre → Fibre) : (s.updAll us g).jobs = s.jobs := rfl
@[simp] theorem State.updAll_structs (us : List Nat) (g : Fibre → Fibre) : (s.updAll us g).structs = s.structs := rfl
@[simp] theorem State.updAll_stepSets (us : List Nat) (g : Fibre → Fibre) : (s.updAll us g).stepSets = s.stepSets := rfl
@[simp] theorem State.updAll_tmmas (us : List Nat) (g : Fibre → Fibre) : (s.updAll us g).tmmas = s.tmmas := rfl
@[simp] theorem State.updAll_mxe (us : List Nat) (g : Fibre → Fibre) : (s.updAll us g).mxe = s.mxe := rfl
@[simp] theorem State.updAll_collects (us : List Nat) (g : Fibre → Fibre) : (s.updAll us g).collects = s.collects := rfl
@[simp] theorem State.updAll_gangs (us : List Nat) (g : Fibre → Fibre) : (s.updAll us g).gangs = s.gangs := rfl
@[simp] theorem State.updAll_mem (us : List Nat) (g : Fibre → Fibre) : (s.updAll us g).mem = s.mem := rfl
@[simp] theorem State.updAll_l1 (us : List Nat) (g : Fibre → Fibre) : (s.updAll us g).l1 = s.l1 := rfl
@[simp] theorem State.updAll_registry (us : List Nat) (g : Fibre → Fibre) : (s.updAll us g).registry = s.registry := rfl
@[simp] theorem State.updAll_vers (us : List Nat) (g : Fibre → Fibre) : (s.updAll us g).vers = s.vers := rfl
@[simp] theorem State.updAll_verLines (us : List Nat) (g : Fibre → Fibre) : (s.updAll us g).verLines = s.verLines := rfl
@[simp] theorem State.updAll_hostLines (us : List Nat) (g : Fibre → Fibre) : (s.updAll us g).hostLines = s.hostLines := rfl
@[simp] theorem State.updAll_hostHeld (us : List Nat) (g : Fibre → Fibre) : (s.updAll us g).hostHeld = s.hostHeld := rfl
@[simp] theorem State.updAll_peerWrites (us : List Nat) (g : Fibre → Fibre) : (s.updAll us g).peerWrites = s.peerWrites := rfl
@[simp] theorem State.updAll_reducing (us : List Nat) (g : Fibre → Fibre) : (s.updAll us g).reducing = s.reducing := rfl
@[simp] theorem State.updAll_txbs (us : List Nat) (g : Fibre → Fibre) : (s.updAll us g).txbs = s.txbs := rfl
@[simp] theorem State.updAll_hostData (us : List Nat) (g : Fibre → Fibre) : (s.updAll us g).hostData = s.hostData := rfl
@[simp] theorem State.updAll_tlb (us : List Nat) (g : Fibre → Fibre) : (s.updAll us g).tlb = s.tlb := rfl
@[simp] theorem State.updAll_leases (us : List Nat) (g : Fibre → Fibre) : (s.updAll us g).leases = s.leases := rfl
@[simp] theorem State.updAll_loads (us : List Nat) (g : Fibre → Fibre) : (s.updAll us g).loads = s.loads := rfl
@[simp] theorem State.updAll_poisoned (us : List Nat) (g : Fibre → Fibre) : (s.updAll us g).poisoned = s.poisoned := rfl
@[simp] theorem State.updAll_spares (us : List Nat) (g : Fibre → Fibre) : (s.updAll us g).spares = s.spares := rfl
@[simp] theorem State.updAll_merged (us : List Nat) (g : Fibre → Fibre) : (s.updAll us g).merged = s.merged := rfl
@[simp] theorem State.updAll_errors (us : List Nat) (g : Fibre → Fibre) : (s.updAll us g).errors = s.errors := rfl
@[simp] theorem State.updAll_pendV (us : List Nat) (g : Fibre → Fibre) : (s.updAll us g).pendV = s.pendV := rfl
@[simp] theorem State.updAll_cur (us : List Nat) (g : Fibre → Fibre) : (s.updAll us g).cur = s.cur := rfl
@[simp] theorem State.updAll_agenda (us : List Nat) (g : Fibre → Fibre) : (s.updAll us g).agenda = s.agenda := rfl
@[simp] theorem State.updAll_timers (us : List Nat) (g : Fibre → Fibre) : (s.updAll us g).timers = s.timers := rfl
@[simp] theorem State.updAll_curWord (us : List Nat) (g : Fibre → Fibre) : (s.updAll us g).curWord = s.curWord := rfl
@[simp] theorem State.updAll_slots (us : List Nat) (g : Fibre → Fibre) : (s.updAll us g).slots = s.slots := rfl
@[simp] theorem State.updAll_plan (us : List Nat) (g : Fibre → Fibre) : (s.updAll us g).plan = s.plan := rfl
@[simp] theorem State.updAll_nextUid (us : List Nat) (g : Fibre → Fibre) : (s.updAll us g).nextUid = s.nextUid := rfl
@[simp] theorem State.updAll_nextId (us : List Nat) (g : Fibre → Fibre) : (s.updAll us g).nextId = s.nextId := rfl
@[simp] theorem State.updAll_free (us : List Nat) (g : Fibre → Fibre) : (s.updAll us g).free = s.free := rfl

/-! ### mapFibres -/

@[simp] theorem State.mapFibres_clock (g : Fibre → Fibre) : (s.mapFibres g).clock = s.clock := rfl
@[simp] theorem State.mapFibres_ready (g : Fibre → Fibre) : (s.mapFibres g).ready = s.ready := rfl
@[simp] theorem State.mapFibres_failed (g : Fibre → Fibre) : (s.mapFibres g).failed = s.failed := rfl
@[simp] theorem State.mapFibres_trip (g : Fibre → Fibre) : (s.mapFibres g).trip = s.trip := rfl
@[simp] theorem State.mapFibres_step (g : Fibre → Fibre) : (s.mapFibres g).step = s.step := rfl
@[simp] theorem State.mapFibres_fwver (g : Fibre → Fibre) : (s.mapFibres g).fwver = s.fwver := rfl
@[simp] theorem State.mapFibres_table (g : Fibre → Fibre) : (s.mapFibres g).table = s.table := rfl
@[simp] theorem State.mapFibres_bringDetail (g : Fibre → Fibre) : (s.mapFibres g).bringDetail = s.bringDetail := rfl
@[simp] theorem State.mapFibres_bringReason (g : Fibre → Fibre) : (s.mapFibres g).bringReason = s.bringReason := rfl
@[simp] theorem State.mapFibres_bringStep (g : Fibre → Fibre) : (s.mapFibres g).bringStep = s.bringStep := rfl
@[simp] theorem State.mapFibres_loops (g : Fibre → Fibre) : (s.mapFibres g).loops = s.loops := rfl
@[simp] theorem State.mapFibres_therm (g : Fibre → Fibre) : (s.mapFibres g).therm = s.therm := rfl
@[simp] theorem State.mapFibres_dbgDark (g : Fibre → Fibre) : (s.mapFibres g).dbgDark = s.dbgDark := rfl
@[simp] theorem State.mapFibres_dbgEn (g : Fibre → Fibre) : (s.mapFibres g).dbgEn = s.dbgEn := rfl
@[simp] theorem State.mapFibres_dbgData (g : Fibre → Fibre) : (s.mapFibres g).dbgData = s.dbgData := rfl
@[simp] theorem State.mapFibres_cmdStat (g : Fibre → Fibre) : (s.mapFibres g).cmdStat = s.cmdStat := rfl
@[simp] theorem State.mapFibres_destroyWait (g : Fibre → Fibre) : (s.mapFibres g).destroyWait = s.destroyWait := rfl
@[simp] theorem State.mapFibres_sinks (g : Fibre → Fibre) : (s.mapFibres g).sinks = s.sinks := rfl
@[simp] theorem State.mapFibres_dlog (g : Fibre → Fibre) : (s.mapFibres g).dlog = s.dlog := rfl
@[simp] theorem State.mapFibres_dlogHead (g : Fibre → Fibre) : (s.mapFibres g).dlogHead = s.dlogHead := rfl
@[simp] theorem State.mapFibres_dlogSel (g : Fibre → Fibre) : (s.mapFibres g).dlogSel = s.dlogSel := rfl
@[simp] theorem State.mapFibres_msix (g : Fibre → Fibre) : (s.mapFibres g).msix = s.msix := rfl
@[simp] theorem State.mapFibres_linkLost (g : Fibre → Fibre) : (s.mapFibres g).linkLost = s.linkLost := rfl
@[simp] theorem State.mapFibres_tags (g : Fibre → Fibre) : (s.mapFibres g).tags = s.tags := rfl
@[simp] theorem State.mapFibres_parts (g : Fibre → Fibre) : (s.mapFibres g).parts = s.parts := rfl
@[simp] theorem State.mapFibres_pipes (g : Fibre → Fibre) : (s.mapFibres g).pipes = s.pipes := rfl
@[simp] theorem State.mapFibres_groups (g : Fibre → Fibre) : (s.mapFibres g).groups = s.groups := rfl
@[simp] theorem State.mapFibres_ports (g : Fibre → Fibre) : (s.mapFibres g).ports = s.ports := rfl
@[simp] theorem State.mapFibres_vports (g : Fibre → Fibre) : (s.mapFibres g).vports = s.vports := rfl
@[simp] theorem State.mapFibres_rays (g : Fibre → Fibre) : (s.mapFibres g).rays = s.rays := rfl
@[simp] theorem State.mapFibres_gathers (g : Fibre → Fibre) : (s.mapFibres g).gathers = s.gathers := rfl
@[simp] theorem State.mapFibres_gfails (g : Fibre → Fibre) : (s.mapFibres g).gfails = s.gfails := rfl
@[simp] theorem State.mapFibres_copies (g : Fibre → Fibre) : (s.mapFibres g).copies = s.copies := rfl
@[simp] theorem State.mapFibres_beams (g : Fibre → Fibre) : (s.mapFibres g).beams = s.beams := rfl
@[simp] theorem State.mapFibres_jobs (g : Fibre → Fibre) : (s.mapFibres g).jobs = s.jobs := rfl
@[simp] theorem State.mapFibres_structs (g : Fibre → Fibre) : (s.mapFibres g).structs = s.structs := rfl
@[simp] theorem State.mapFibres_stepSets (g : Fibre → Fibre) : (s.mapFibres g).stepSets = s.stepSets := rfl
@[simp] theorem State.mapFibres_tmmas (g : Fibre → Fibre) : (s.mapFibres g).tmmas = s.tmmas := rfl
@[simp] theorem State.mapFibres_mxe (g : Fibre → Fibre) : (s.mapFibres g).mxe = s.mxe := rfl
@[simp] theorem State.mapFibres_collects (g : Fibre → Fibre) : (s.mapFibres g).collects = s.collects := rfl
@[simp] theorem State.mapFibres_gangs (g : Fibre → Fibre) : (s.mapFibres g).gangs = s.gangs := rfl
@[simp] theorem State.mapFibres_mem (g : Fibre → Fibre) : (s.mapFibres g).mem = s.mem := rfl
@[simp] theorem State.mapFibres_l1 (g : Fibre → Fibre) : (s.mapFibres g).l1 = s.l1 := rfl
@[simp] theorem State.mapFibres_registry (g : Fibre → Fibre) : (s.mapFibres g).registry = s.registry := rfl
@[simp] theorem State.mapFibres_vers (g : Fibre → Fibre) : (s.mapFibres g).vers = s.vers := rfl
@[simp] theorem State.mapFibres_verLines (g : Fibre → Fibre) : (s.mapFibres g).verLines = s.verLines := rfl
@[simp] theorem State.mapFibres_hostLines (g : Fibre → Fibre) : (s.mapFibres g).hostLines = s.hostLines := rfl
@[simp] theorem State.mapFibres_hostHeld (g : Fibre → Fibre) : (s.mapFibres g).hostHeld = s.hostHeld := rfl
@[simp] theorem State.mapFibres_peerWrites (g : Fibre → Fibre) : (s.mapFibres g).peerWrites = s.peerWrites := rfl
@[simp] theorem State.mapFibres_reducing (g : Fibre → Fibre) : (s.mapFibres g).reducing = s.reducing := rfl
@[simp] theorem State.mapFibres_txbs (g : Fibre → Fibre) : (s.mapFibres g).txbs = s.txbs := rfl
@[simp] theorem State.mapFibres_hostData (g : Fibre → Fibre) : (s.mapFibres g).hostData = s.hostData := rfl
@[simp] theorem State.mapFibres_tlb (g : Fibre → Fibre) : (s.mapFibres g).tlb = s.tlb := rfl
@[simp] theorem State.mapFibres_leases (g : Fibre → Fibre) : (s.mapFibres g).leases = s.leases := rfl
@[simp] theorem State.mapFibres_loads (g : Fibre → Fibre) : (s.mapFibres g).loads = s.loads := rfl
@[simp] theorem State.mapFibres_poisoned (g : Fibre → Fibre) : (s.mapFibres g).poisoned = s.poisoned := rfl
@[simp] theorem State.mapFibres_spares (g : Fibre → Fibre) : (s.mapFibres g).spares = s.spares := rfl
@[simp] theorem State.mapFibres_merged (g : Fibre → Fibre) : (s.mapFibres g).merged = s.merged := rfl
@[simp] theorem State.mapFibres_errors (g : Fibre → Fibre) : (s.mapFibres g).errors = s.errors := rfl
@[simp] theorem State.mapFibres_pendV (g : Fibre → Fibre) : (s.mapFibres g).pendV = s.pendV := rfl
@[simp] theorem State.mapFibres_cur (g : Fibre → Fibre) : (s.mapFibres g).cur = s.cur := rfl
@[simp] theorem State.mapFibres_agenda (g : Fibre → Fibre) : (s.mapFibres g).agenda = s.agenda := rfl
@[simp] theorem State.mapFibres_timers (g : Fibre → Fibre) : (s.mapFibres g).timers = s.timers := rfl
@[simp] theorem State.mapFibres_curWord (g : Fibre → Fibre) : (s.mapFibres g).curWord = s.curWord := rfl
@[simp] theorem State.mapFibres_slots (g : Fibre → Fibre) : (s.mapFibres g).slots = s.slots := rfl
@[simp] theorem State.mapFibres_plan (g : Fibre → Fibre) : (s.mapFibres g).plan = s.plan := rfl
@[simp] theorem State.mapFibres_nextUid (g : Fibre → Fibre) : (s.mapFibres g).nextUid = s.nextUid := rfl
@[simp] theorem State.mapFibres_nextId (g : Fibre → Fibre) : (s.mapFibres g).nextId = s.nextId := rfl
@[simp] theorem State.mapFibres_free (g : Fibre → Fibre) : (s.mapFibres g).free = s.free := rfl

/-! ### updGroup -/

@[simp] theorem State.updGroup_clock (i : GroupId) (g : Group → Group) : (s.updGroup i g).clock = s.clock := rfl
@[simp] theorem State.updGroup_ready (i : GroupId) (g : Group → Group) : (s.updGroup i g).ready = s.ready := rfl
@[simp] theorem State.updGroup_failed (i : GroupId) (g : Group → Group) : (s.updGroup i g).failed = s.failed := rfl
@[simp] theorem State.updGroup_trip (i : GroupId) (g : Group → Group) : (s.updGroup i g).trip = s.trip := rfl
@[simp] theorem State.updGroup_step (i : GroupId) (g : Group → Group) : (s.updGroup i g).step = s.step := rfl
@[simp] theorem State.updGroup_fwver (i : GroupId) (g : Group → Group) : (s.updGroup i g).fwver = s.fwver := rfl
@[simp] theorem State.updGroup_table (i : GroupId) (g : Group → Group) : (s.updGroup i g).table = s.table := rfl
@[simp] theorem State.updGroup_bringDetail (i : GroupId) (g : Group → Group) : (s.updGroup i g).bringDetail = s.bringDetail := rfl
@[simp] theorem State.updGroup_bringReason (i : GroupId) (g : Group → Group) : (s.updGroup i g).bringReason = s.bringReason := rfl
@[simp] theorem State.updGroup_bringStep (i : GroupId) (g : Group → Group) : (s.updGroup i g).bringStep = s.bringStep := rfl
@[simp] theorem State.updGroup_loops (i : GroupId) (g : Group → Group) : (s.updGroup i g).loops = s.loops := rfl
@[simp] theorem State.updGroup_therm (i : GroupId) (g : Group → Group) : (s.updGroup i g).therm = s.therm := rfl
@[simp] theorem State.updGroup_dbgDark (i : GroupId) (g : Group → Group) : (s.updGroup i g).dbgDark = s.dbgDark := rfl
@[simp] theorem State.updGroup_dbgEn (i : GroupId) (g : Group → Group) : (s.updGroup i g).dbgEn = s.dbgEn := rfl
@[simp] theorem State.updGroup_dbgData (i : GroupId) (g : Group → Group) : (s.updGroup i g).dbgData = s.dbgData := rfl
@[simp] theorem State.updGroup_cmdStat (i : GroupId) (g : Group → Group) : (s.updGroup i g).cmdStat = s.cmdStat := rfl
@[simp] theorem State.updGroup_destroyWait (i : GroupId) (g : Group → Group) : (s.updGroup i g).destroyWait = s.destroyWait := rfl
@[simp] theorem State.updGroup_sinks (i : GroupId) (g : Group → Group) : (s.updGroup i g).sinks = s.sinks := rfl
@[simp] theorem State.updGroup_dlog (i : GroupId) (g : Group → Group) : (s.updGroup i g).dlog = s.dlog := rfl
@[simp] theorem State.updGroup_dlogHead (i : GroupId) (g : Group → Group) : (s.updGroup i g).dlogHead = s.dlogHead := rfl
@[simp] theorem State.updGroup_dlogSel (i : GroupId) (g : Group → Group) : (s.updGroup i g).dlogSel = s.dlogSel := rfl
@[simp] theorem State.updGroup_msix (i : GroupId) (g : Group → Group) : (s.updGroup i g).msix = s.msix := rfl
@[simp] theorem State.updGroup_linkLost (i : GroupId) (g : Group → Group) : (s.updGroup i g).linkLost = s.linkLost := rfl
@[simp] theorem State.updGroup_tags (i : GroupId) (g : Group → Group) : (s.updGroup i g).tags = s.tags := rfl
@[simp] theorem State.updGroup_parts (i : GroupId) (g : Group → Group) : (s.updGroup i g).parts = s.parts := rfl
@[simp] theorem State.updGroup_pipes (i : GroupId) (g : Group → Group) : (s.updGroup i g).pipes = s.pipes := rfl
@[simp] theorem State.updGroup_fibres (i : GroupId) (g : Group → Group) : (s.updGroup i g).fibres = s.fibres := rfl
@[simp] theorem State.updGroup_ports (i : GroupId) (g : Group → Group) : (s.updGroup i g).ports = s.ports := rfl
@[simp] theorem State.updGroup_vports (i : GroupId) (g : Group → Group) : (s.updGroup i g).vports = s.vports := rfl
@[simp] theorem State.updGroup_rays (i : GroupId) (g : Group → Group) : (s.updGroup i g).rays = s.rays := rfl
@[simp] theorem State.updGroup_gathers (i : GroupId) (g : Group → Group) : (s.updGroup i g).gathers = s.gathers := rfl
@[simp] theorem State.updGroup_gfails (i : GroupId) (g : Group → Group) : (s.updGroup i g).gfails = s.gfails := rfl
@[simp] theorem State.updGroup_copies (i : GroupId) (g : Group → Group) : (s.updGroup i g).copies = s.copies := rfl
@[simp] theorem State.updGroup_beams (i : GroupId) (g : Group → Group) : (s.updGroup i g).beams = s.beams := rfl
@[simp] theorem State.updGroup_jobs (i : GroupId) (g : Group → Group) : (s.updGroup i g).jobs = s.jobs := rfl
@[simp] theorem State.updGroup_structs (i : GroupId) (g : Group → Group) : (s.updGroup i g).structs = s.structs := rfl
@[simp] theorem State.updGroup_stepSets (i : GroupId) (g : Group → Group) : (s.updGroup i g).stepSets = s.stepSets := rfl
@[simp] theorem State.updGroup_tmmas (i : GroupId) (g : Group → Group) : (s.updGroup i g).tmmas = s.tmmas := rfl
@[simp] theorem State.updGroup_mxe (i : GroupId) (g : Group → Group) : (s.updGroup i g).mxe = s.mxe := rfl
@[simp] theorem State.updGroup_collects (i : GroupId) (g : Group → Group) : (s.updGroup i g).collects = s.collects := rfl
@[simp] theorem State.updGroup_gangs (i : GroupId) (g : Group → Group) : (s.updGroup i g).gangs = s.gangs := rfl
@[simp] theorem State.updGroup_mem (i : GroupId) (g : Group → Group) : (s.updGroup i g).mem = s.mem := rfl
@[simp] theorem State.updGroup_l1 (i : GroupId) (g : Group → Group) : (s.updGroup i g).l1 = s.l1 := rfl
@[simp] theorem State.updGroup_registry (i : GroupId) (g : Group → Group) : (s.updGroup i g).registry = s.registry := rfl
@[simp] theorem State.updGroup_vers (i : GroupId) (g : Group → Group) : (s.updGroup i g).vers = s.vers := rfl
@[simp] theorem State.updGroup_verLines (i : GroupId) (g : Group → Group) : (s.updGroup i g).verLines = s.verLines := rfl
@[simp] theorem State.updGroup_hostLines (i : GroupId) (g : Group → Group) : (s.updGroup i g).hostLines = s.hostLines := rfl
@[simp] theorem State.updGroup_hostHeld (i : GroupId) (g : Group → Group) : (s.updGroup i g).hostHeld = s.hostHeld := rfl
@[simp] theorem State.updGroup_peerWrites (i : GroupId) (g : Group → Group) : (s.updGroup i g).peerWrites = s.peerWrites := rfl
@[simp] theorem State.updGroup_reducing (i : GroupId) (g : Group → Group) : (s.updGroup i g).reducing = s.reducing := rfl
@[simp] theorem State.updGroup_txbs (i : GroupId) (g : Group → Group) : (s.updGroup i g).txbs = s.txbs := rfl
@[simp] theorem State.updGroup_hostData (i : GroupId) (g : Group → Group) : (s.updGroup i g).hostData = s.hostData := rfl
@[simp] theorem State.updGroup_tlb (i : GroupId) (g : Group → Group) : (s.updGroup i g).tlb = s.tlb := rfl
@[simp] theorem State.updGroup_leases (i : GroupId) (g : Group → Group) : (s.updGroup i g).leases = s.leases := rfl
@[simp] theorem State.updGroup_loads (i : GroupId) (g : Group → Group) : (s.updGroup i g).loads = s.loads := rfl
@[simp] theorem State.updGroup_poisoned (i : GroupId) (g : Group → Group) : (s.updGroup i g).poisoned = s.poisoned := rfl
@[simp] theorem State.updGroup_spares (i : GroupId) (g : Group → Group) : (s.updGroup i g).spares = s.spares := rfl
@[simp] theorem State.updGroup_merged (i : GroupId) (g : Group → Group) : (s.updGroup i g).merged = s.merged := rfl
@[simp] theorem State.updGroup_errors (i : GroupId) (g : Group → Group) : (s.updGroup i g).errors = s.errors := rfl
@[simp] theorem State.updGroup_pendV (i : GroupId) (g : Group → Group) : (s.updGroup i g).pendV = s.pendV := rfl
@[simp] theorem State.updGroup_cur (i : GroupId) (g : Group → Group) : (s.updGroup i g).cur = s.cur := rfl
@[simp] theorem State.updGroup_agenda (i : GroupId) (g : Group → Group) : (s.updGroup i g).agenda = s.agenda := rfl
@[simp] theorem State.updGroup_timers (i : GroupId) (g : Group → Group) : (s.updGroup i g).timers = s.timers := rfl
@[simp] theorem State.updGroup_curWord (i : GroupId) (g : Group → Group) : (s.updGroup i g).curWord = s.curWord := rfl
@[simp] theorem State.updGroup_slots (i : GroupId) (g : Group → Group) : (s.updGroup i g).slots = s.slots := rfl
@[simp] theorem State.updGroup_plan (i : GroupId) (g : Group → Group) : (s.updGroup i g).plan = s.plan := rfl
@[simp] theorem State.updGroup_nextUid (i : GroupId) (g : Group → Group) : (s.updGroup i g).nextUid = s.nextUid := rfl
@[simp] theorem State.updGroup_nextId (i : GroupId) (g : Group → Group) : (s.updGroup i g).nextId = s.nextId := rfl
@[simp] theorem State.updGroup_free (i : GroupId) (g : Group → Group) : (s.updGroup i g).free = s.free := rfl

/-! ### setS -/

@[simp] theorem State.setS_clock (i : GroupId) (n : Nat) (x : PDWord) : (s.setS i n x).clock = s.clock := rfl
@[simp] theorem State.setS_ready (i : GroupId) (n : Nat) (x : PDWord) : (s.setS i n x).ready = s.ready := rfl
@[simp] theorem State.setS_failed (i : GroupId) (n : Nat) (x : PDWord) : (s.setS i n x).failed = s.failed := rfl
@[simp] theorem State.setS_trip (i : GroupId) (n : Nat) (x : PDWord) : (s.setS i n x).trip = s.trip := rfl
@[simp] theorem State.setS_step (i : GroupId) (n : Nat) (x : PDWord) : (s.setS i n x).step = s.step := rfl
@[simp] theorem State.setS_fwver (i : GroupId) (n : Nat) (x : PDWord) : (s.setS i n x).fwver = s.fwver := rfl
@[simp] theorem State.setS_table (i : GroupId) (n : Nat) (x : PDWord) : (s.setS i n x).table = s.table := rfl
@[simp] theorem State.setS_bringDetail (i : GroupId) (n : Nat) (x : PDWord) : (s.setS i n x).bringDetail = s.bringDetail := rfl
@[simp] theorem State.setS_bringReason (i : GroupId) (n : Nat) (x : PDWord) : (s.setS i n x).bringReason = s.bringReason := rfl
@[simp] theorem State.setS_bringStep (i : GroupId) (n : Nat) (x : PDWord) : (s.setS i n x).bringStep = s.bringStep := rfl
@[simp] theorem State.setS_loops (i : GroupId) (n : Nat) (x : PDWord) : (s.setS i n x).loops = s.loops := rfl
@[simp] theorem State.setS_therm (i : GroupId) (n : Nat) (x : PDWord) : (s.setS i n x).therm = s.therm := rfl
@[simp] theorem State.setS_dbgDark (i : GroupId) (n : Nat) (x : PDWord) : (s.setS i n x).dbgDark = s.dbgDark := rfl
@[simp] theorem State.setS_dbgEn (i : GroupId) (n : Nat) (x : PDWord) : (s.setS i n x).dbgEn = s.dbgEn := rfl
@[simp] theorem State.setS_dbgData (i : GroupId) (n : Nat) (x : PDWord) : (s.setS i n x).dbgData = s.dbgData := rfl
@[simp] theorem State.setS_cmdStat (i : GroupId) (n : Nat) (x : PDWord) : (s.setS i n x).cmdStat = s.cmdStat := rfl
@[simp] theorem State.setS_destroyWait (i : GroupId) (n : Nat) (x : PDWord) : (s.setS i n x).destroyWait = s.destroyWait := rfl
@[simp] theorem State.setS_sinks (i : GroupId) (n : Nat) (x : PDWord) : (s.setS i n x).sinks = s.sinks := rfl
@[simp] theorem State.setS_dlog (i : GroupId) (n : Nat) (x : PDWord) : (s.setS i n x).dlog = s.dlog := rfl
@[simp] theorem State.setS_dlogHead (i : GroupId) (n : Nat) (x : PDWord) : (s.setS i n x).dlogHead = s.dlogHead := rfl
@[simp] theorem State.setS_dlogSel (i : GroupId) (n : Nat) (x : PDWord) : (s.setS i n x).dlogSel = s.dlogSel := rfl
@[simp] theorem State.setS_msix (i : GroupId) (n : Nat) (x : PDWord) : (s.setS i n x).msix = s.msix := rfl
@[simp] theorem State.setS_linkLost (i : GroupId) (n : Nat) (x : PDWord) : (s.setS i n x).linkLost = s.linkLost := rfl
@[simp] theorem State.setS_tags (i : GroupId) (n : Nat) (x : PDWord) : (s.setS i n x).tags = s.tags := rfl
@[simp] theorem State.setS_parts (i : GroupId) (n : Nat) (x : PDWord) : (s.setS i n x).parts = s.parts := rfl
@[simp] theorem State.setS_pipes (i : GroupId) (n : Nat) (x : PDWord) : (s.setS i n x).pipes = s.pipes := rfl
@[simp] theorem State.setS_fibres (i : GroupId) (n : Nat) (x : PDWord) : (s.setS i n x).fibres = s.fibres := rfl
@[simp] theorem State.setS_ports (i : GroupId) (n : Nat) (x : PDWord) : (s.setS i n x).ports = s.ports := rfl
@[simp] theorem State.setS_vports (i : GroupId) (n : Nat) (x : PDWord) : (s.setS i n x).vports = s.vports := rfl
@[simp] theorem State.setS_rays (i : GroupId) (n : Nat) (x : PDWord) : (s.setS i n x).rays = s.rays := rfl
@[simp] theorem State.setS_gathers (i : GroupId) (n : Nat) (x : PDWord) : (s.setS i n x).gathers = s.gathers := rfl
@[simp] theorem State.setS_gfails (i : GroupId) (n : Nat) (x : PDWord) : (s.setS i n x).gfails = s.gfails := rfl
@[simp] theorem State.setS_copies (i : GroupId) (n : Nat) (x : PDWord) : (s.setS i n x).copies = s.copies := rfl
@[simp] theorem State.setS_beams (i : GroupId) (n : Nat) (x : PDWord) : (s.setS i n x).beams = s.beams := rfl
@[simp] theorem State.setS_jobs (i : GroupId) (n : Nat) (x : PDWord) : (s.setS i n x).jobs = s.jobs := rfl
@[simp] theorem State.setS_structs (i : GroupId) (n : Nat) (x : PDWord) : (s.setS i n x).structs = s.structs := rfl
@[simp] theorem State.setS_stepSets (i : GroupId) (n : Nat) (x : PDWord) : (s.setS i n x).stepSets = s.stepSets := rfl
@[simp] theorem State.setS_tmmas (i : GroupId) (n : Nat) (x : PDWord) : (s.setS i n x).tmmas = s.tmmas := rfl
@[simp] theorem State.setS_mxe (i : GroupId) (n : Nat) (x : PDWord) : (s.setS i n x).mxe = s.mxe := rfl
@[simp] theorem State.setS_collects (i : GroupId) (n : Nat) (x : PDWord) : (s.setS i n x).collects = s.collects := rfl
@[simp] theorem State.setS_gangs (i : GroupId) (n : Nat) (x : PDWord) : (s.setS i n x).gangs = s.gangs := rfl
@[simp] theorem State.setS_mem (i : GroupId) (n : Nat) (x : PDWord) : (s.setS i n x).mem = s.mem := rfl
@[simp] theorem State.setS_l1 (i : GroupId) (n : Nat) (x : PDWord) : (s.setS i n x).l1 = s.l1 := rfl
@[simp] theorem State.setS_registry (i : GroupId) (n : Nat) (x : PDWord) : (s.setS i n x).registry = s.registry := rfl
@[simp] theorem State.setS_vers (i : GroupId) (n : Nat) (x : PDWord) : (s.setS i n x).vers = s.vers := rfl
@[simp] theorem State.setS_verLines (i : GroupId) (n : Nat) (x : PDWord) : (s.setS i n x).verLines = s.verLines := rfl
@[simp] theorem State.setS_hostLines (i : GroupId) (n : Nat) (x : PDWord) : (s.setS i n x).hostLines = s.hostLines := rfl
@[simp] theorem State.setS_hostHeld (i : GroupId) (n : Nat) (x : PDWord) : (s.setS i n x).hostHeld = s.hostHeld := rfl
@[simp] theorem State.setS_peerWrites (i : GroupId) (n : Nat) (x : PDWord) : (s.setS i n x).peerWrites = s.peerWrites := rfl
@[simp] theorem State.setS_reducing (i : GroupId) (n : Nat) (x : PDWord) : (s.setS i n x).reducing = s.reducing := rfl
@[simp] theorem State.setS_txbs (i : GroupId) (n : Nat) (x : PDWord) : (s.setS i n x).txbs = s.txbs := rfl
@[simp] theorem State.setS_hostData (i : GroupId) (n : Nat) (x : PDWord) : (s.setS i n x).hostData = s.hostData := rfl
@[simp] theorem State.setS_tlb (i : GroupId) (n : Nat) (x : PDWord) : (s.setS i n x).tlb = s.tlb := rfl
@[simp] theorem State.setS_leases (i : GroupId) (n : Nat) (x : PDWord) : (s.setS i n x).leases = s.leases := rfl
@[simp] theorem State.setS_loads (i : GroupId) (n : Nat) (x : PDWord) : (s.setS i n x).loads = s.loads := rfl
@[simp] theorem State.setS_poisoned (i : GroupId) (n : Nat) (x : PDWord) : (s.setS i n x).poisoned = s.poisoned := rfl
@[simp] theorem State.setS_spares (i : GroupId) (n : Nat) (x : PDWord) : (s.setS i n x).spares = s.spares := rfl
@[simp] theorem State.setS_merged (i : GroupId) (n : Nat) (x : PDWord) : (s.setS i n x).merged = s.merged := rfl
@[simp] theorem State.setS_errors (i : GroupId) (n : Nat) (x : PDWord) : (s.setS i n x).errors = s.errors := rfl
@[simp] theorem State.setS_pendV (i : GroupId) (n : Nat) (x : PDWord) : (s.setS i n x).pendV = s.pendV := rfl
@[simp] theorem State.setS_cur (i : GroupId) (n : Nat) (x : PDWord) : (s.setS i n x).cur = s.cur := rfl
@[simp] theorem State.setS_agenda (i : GroupId) (n : Nat) (x : PDWord) : (s.setS i n x).agenda = s.agenda := rfl
@[simp] theorem State.setS_timers (i : GroupId) (n : Nat) (x : PDWord) : (s.setS i n x).timers = s.timers := rfl
@[simp] theorem State.setS_curWord (i : GroupId) (n : Nat) (x : PDWord) : (s.setS i n x).curWord = s.curWord := rfl
@[simp] theorem State.setS_slots (i : GroupId) (n : Nat) (x : PDWord) : (s.setS i n x).slots = s.slots := rfl
@[simp] theorem State.setS_plan (i : GroupId) (n : Nat) (x : PDWord) : (s.setS i n x).plan = s.plan := rfl
@[simp] theorem State.setS_nextUid (i : GroupId) (n : Nat) (x : PDWord) : (s.setS i n x).nextUid = s.nextUid := rfl
@[simp] theorem State.setS_nextId (i : GroupId) (n : Nat) (x : PDWord) : (s.setS i n x).nextId = s.nextId := rfl
@[simp] theorem State.setS_free (i : GroupId) (n : Nat) (x : PDWord) : (s.setS i n x).free = s.free := rfl

/-! ### updPipe -/

@[simp] theorem State.updPipe_clock (p h : Nat) (g : Pipe → Pipe) : (s.updPipe p h g).clock = s.clock := rfl
@[simp] theorem State.updPipe_ready (p h : Nat) (g : Pipe → Pipe) : (s.updPipe p h g).ready = s.ready := rfl
@[simp] theorem State.updPipe_failed (p h : Nat) (g : Pipe → Pipe) : (s.updPipe p h g).failed = s.failed := rfl
@[simp] theorem State.updPipe_trip (p h : Nat) (g : Pipe → Pipe) : (s.updPipe p h g).trip = s.trip := rfl
@[simp] theorem State.updPipe_step (p h : Nat) (g : Pipe → Pipe) : (s.updPipe p h g).step = s.step := rfl
@[simp] theorem State.updPipe_fwver (p h : Nat) (g : Pipe → Pipe) : (s.updPipe p h g).fwver = s.fwver := rfl
@[simp] theorem State.updPipe_table (p h : Nat) (g : Pipe → Pipe) : (s.updPipe p h g).table = s.table := rfl
@[simp] theorem State.updPipe_bringDetail (p h : Nat) (g : Pipe → Pipe) : (s.updPipe p h g).bringDetail = s.bringDetail := rfl
@[simp] theorem State.updPipe_bringReason (p h : Nat) (g : Pipe → Pipe) : (s.updPipe p h g).bringReason = s.bringReason := rfl
@[simp] theorem State.updPipe_bringStep (p h : Nat) (g : Pipe → Pipe) : (s.updPipe p h g).bringStep = s.bringStep := rfl
@[simp] theorem State.updPipe_loops (p h : Nat) (g : Pipe → Pipe) : (s.updPipe p h g).loops = s.loops := rfl
@[simp] theorem State.updPipe_therm (p h : Nat) (g : Pipe → Pipe) : (s.updPipe p h g).therm = s.therm := rfl
@[simp] theorem State.updPipe_dbgDark (p h : Nat) (g : Pipe → Pipe) : (s.updPipe p h g).dbgDark = s.dbgDark := rfl
@[simp] theorem State.updPipe_dbgEn (p h : Nat) (g : Pipe → Pipe) : (s.updPipe p h g).dbgEn = s.dbgEn := rfl
@[simp] theorem State.updPipe_dbgData (p h : Nat) (g : Pipe → Pipe) : (s.updPipe p h g).dbgData = s.dbgData := rfl
@[simp] theorem State.updPipe_cmdStat (p h : Nat) (g : Pipe → Pipe) : (s.updPipe p h g).cmdStat = s.cmdStat := rfl
@[simp] theorem State.updPipe_destroyWait (p h : Nat) (g : Pipe → Pipe) : (s.updPipe p h g).destroyWait = s.destroyWait := rfl
@[simp] theorem State.updPipe_sinks (p h : Nat) (g : Pipe → Pipe) : (s.updPipe p h g).sinks = s.sinks := rfl
@[simp] theorem State.updPipe_dlog (p h : Nat) (g : Pipe → Pipe) : (s.updPipe p h g).dlog = s.dlog := rfl
@[simp] theorem State.updPipe_dlogHead (p h : Nat) (g : Pipe → Pipe) : (s.updPipe p h g).dlogHead = s.dlogHead := rfl
@[simp] theorem State.updPipe_dlogSel (p h : Nat) (g : Pipe → Pipe) : (s.updPipe p h g).dlogSel = s.dlogSel := rfl
@[simp] theorem State.updPipe_msix (p h : Nat) (g : Pipe → Pipe) : (s.updPipe p h g).msix = s.msix := rfl
@[simp] theorem State.updPipe_linkLost (p h : Nat) (g : Pipe → Pipe) : (s.updPipe p h g).linkLost = s.linkLost := rfl
@[simp] theorem State.updPipe_tags (p h : Nat) (g : Pipe → Pipe) : (s.updPipe p h g).tags = s.tags := rfl
@[simp] theorem State.updPipe_parts (p h : Nat) (g : Pipe → Pipe) : (s.updPipe p h g).parts = s.parts := rfl
@[simp] theorem State.updPipe_fibres (p h : Nat) (g : Pipe → Pipe) : (s.updPipe p h g).fibres = s.fibres := rfl
@[simp] theorem State.updPipe_groups (p h : Nat) (g : Pipe → Pipe) : (s.updPipe p h g).groups = s.groups := rfl
@[simp] theorem State.updPipe_ports (p h : Nat) (g : Pipe → Pipe) : (s.updPipe p h g).ports = s.ports := rfl
@[simp] theorem State.updPipe_vports (p h : Nat) (g : Pipe → Pipe) : (s.updPipe p h g).vports = s.vports := rfl
@[simp] theorem State.updPipe_rays (p h : Nat) (g : Pipe → Pipe) : (s.updPipe p h g).rays = s.rays := rfl
@[simp] theorem State.updPipe_gathers (p h : Nat) (g : Pipe → Pipe) : (s.updPipe p h g).gathers = s.gathers := rfl
@[simp] theorem State.updPipe_gfails (p h : Nat) (g : Pipe → Pipe) : (s.updPipe p h g).gfails = s.gfails := rfl
@[simp] theorem State.updPipe_copies (p h : Nat) (g : Pipe → Pipe) : (s.updPipe p h g).copies = s.copies := rfl
@[simp] theorem State.updPipe_beams (p h : Nat) (g : Pipe → Pipe) : (s.updPipe p h g).beams = s.beams := rfl
@[simp] theorem State.updPipe_jobs (p h : Nat) (g : Pipe → Pipe) : (s.updPipe p h g).jobs = s.jobs := rfl
@[simp] theorem State.updPipe_structs (p h : Nat) (g : Pipe → Pipe) : (s.updPipe p h g).structs = s.structs := rfl
@[simp] theorem State.updPipe_stepSets (p h : Nat) (g : Pipe → Pipe) : (s.updPipe p h g).stepSets = s.stepSets := rfl
@[simp] theorem State.updPipe_tmmas (p h : Nat) (g : Pipe → Pipe) : (s.updPipe p h g).tmmas = s.tmmas := rfl
@[simp] theorem State.updPipe_mxe (p h : Nat) (g : Pipe → Pipe) : (s.updPipe p h g).mxe = s.mxe := rfl
@[simp] theorem State.updPipe_collects (p h : Nat) (g : Pipe → Pipe) : (s.updPipe p h g).collects = s.collects := rfl
@[simp] theorem State.updPipe_gangs (p h : Nat) (g : Pipe → Pipe) : (s.updPipe p h g).gangs = s.gangs := rfl
@[simp] theorem State.updPipe_mem (p h : Nat) (g : Pipe → Pipe) : (s.updPipe p h g).mem = s.mem := rfl
@[simp] theorem State.updPipe_l1 (p h : Nat) (g : Pipe → Pipe) : (s.updPipe p h g).l1 = s.l1 := rfl
@[simp] theorem State.updPipe_registry (p h : Nat) (g : Pipe → Pipe) : (s.updPipe p h g).registry = s.registry := rfl
@[simp] theorem State.updPipe_vers (p h : Nat) (g : Pipe → Pipe) : (s.updPipe p h g).vers = s.vers := rfl
@[simp] theorem State.updPipe_verLines (p h : Nat) (g : Pipe → Pipe) : (s.updPipe p h g).verLines = s.verLines := rfl
@[simp] theorem State.updPipe_hostLines (p h : Nat) (g : Pipe → Pipe) : (s.updPipe p h g).hostLines = s.hostLines := rfl
@[simp] theorem State.updPipe_hostHeld (p h : Nat) (g : Pipe → Pipe) : (s.updPipe p h g).hostHeld = s.hostHeld := rfl
@[simp] theorem State.updPipe_peerWrites (p h : Nat) (g : Pipe → Pipe) : (s.updPipe p h g).peerWrites = s.peerWrites := rfl
@[simp] theorem State.updPipe_reducing (p h : Nat) (g : Pipe → Pipe) : (s.updPipe p h g).reducing = s.reducing := rfl
@[simp] theorem State.updPipe_txbs (p h : Nat) (g : Pipe → Pipe) : (s.updPipe p h g).txbs = s.txbs := rfl
@[simp] theorem State.updPipe_hostData (p h : Nat) (g : Pipe → Pipe) : (s.updPipe p h g).hostData = s.hostData := rfl
@[simp] theorem State.updPipe_tlb (p h : Nat) (g : Pipe → Pipe) : (s.updPipe p h g).tlb = s.tlb := rfl
@[simp] theorem State.updPipe_leases (p h : Nat) (g : Pipe → Pipe) : (s.updPipe p h g).leases = s.leases := rfl
@[simp] theorem State.updPipe_loads (p h : Nat) (g : Pipe → Pipe) : (s.updPipe p h g).loads = s.loads := rfl
@[simp] theorem State.updPipe_poisoned (p h : Nat) (g : Pipe → Pipe) : (s.updPipe p h g).poisoned = s.poisoned := rfl
@[simp] theorem State.updPipe_spares (p h : Nat) (g : Pipe → Pipe) : (s.updPipe p h g).spares = s.spares := rfl
@[simp] theorem State.updPipe_merged (p h : Nat) (g : Pipe → Pipe) : (s.updPipe p h g).merged = s.merged := rfl
@[simp] theorem State.updPipe_errors (p h : Nat) (g : Pipe → Pipe) : (s.updPipe p h g).errors = s.errors := rfl
@[simp] theorem State.updPipe_pendV (p h : Nat) (g : Pipe → Pipe) : (s.updPipe p h g).pendV = s.pendV := rfl
@[simp] theorem State.updPipe_cur (p h : Nat) (g : Pipe → Pipe) : (s.updPipe p h g).cur = s.cur := rfl
@[simp] theorem State.updPipe_agenda (p h : Nat) (g : Pipe → Pipe) : (s.updPipe p h g).agenda = s.agenda := rfl
@[simp] theorem State.updPipe_timers (p h : Nat) (g : Pipe → Pipe) : (s.updPipe p h g).timers = s.timers := rfl
@[simp] theorem State.updPipe_curWord (p h : Nat) (g : Pipe → Pipe) : (s.updPipe p h g).curWord = s.curWord := rfl
@[simp] theorem State.updPipe_slots (p h : Nat) (g : Pipe → Pipe) : (s.updPipe p h g).slots = s.slots := rfl
@[simp] theorem State.updPipe_plan (p h : Nat) (g : Pipe → Pipe) : (s.updPipe p h g).plan = s.plan := rfl
@[simp] theorem State.updPipe_nextUid (p h : Nat) (g : Pipe → Pipe) : (s.updPipe p h g).nextUid = s.nextUid := rfl
@[simp] theorem State.updPipe_nextId (p h : Nat) (g : Pipe → Pipe) : (s.updPipe p h g).nextId = s.nextId := rfl
@[simp] theorem State.updPipe_free (p h : Nat) (g : Pipe → Pipe) : (s.updPipe p h g).free = s.free := rfl

/-! ### updPart -/

@[simp] theorem State.updPart_clock (p : Nat) (g : Partition → Partition) : (s.updPart p g).clock = s.clock := rfl
@[simp] theorem State.updPart_ready (p : Nat) (g : Partition → Partition) : (s.updPart p g).ready = s.ready := rfl
@[simp] theorem State.updPart_failed (p : Nat) (g : Partition → Partition) : (s.updPart p g).failed = s.failed := rfl
@[simp] theorem State.updPart_trip (p : Nat) (g : Partition → Partition) : (s.updPart p g).trip = s.trip := rfl
@[simp] theorem State.updPart_step (p : Nat) (g : Partition → Partition) : (s.updPart p g).step = s.step := rfl
@[simp] theorem State.updPart_fwver (p : Nat) (g : Partition → Partition) : (s.updPart p g).fwver = s.fwver := rfl
@[simp] theorem State.updPart_table (p : Nat) (g : Partition → Partition) : (s.updPart p g).table = s.table := rfl
@[simp] theorem State.updPart_bringDetail (p : Nat) (g : Partition → Partition) : (s.updPart p g).bringDetail = s.bringDetail := rfl
@[simp] theorem State.updPart_bringReason (p : Nat) (g : Partition → Partition) : (s.updPart p g).bringReason = s.bringReason := rfl
@[simp] theorem State.updPart_bringStep (p : Nat) (g : Partition → Partition) : (s.updPart p g).bringStep = s.bringStep := rfl
@[simp] theorem State.updPart_loops (p : Nat) (g : Partition → Partition) : (s.updPart p g).loops = s.loops := rfl
@[simp] theorem State.updPart_therm (p : Nat) (g : Partition → Partition) : (s.updPart p g).therm = s.therm := rfl
@[simp] theorem State.updPart_dbgDark (p : Nat) (g : Partition → Partition) : (s.updPart p g).dbgDark = s.dbgDark := rfl
@[simp] theorem State.updPart_dbgEn (p : Nat) (g : Partition → Partition) : (s.updPart p g).dbgEn = s.dbgEn := rfl
@[simp] theorem State.updPart_dbgData (p : Nat) (g : Partition → Partition) : (s.updPart p g).dbgData = s.dbgData := rfl
@[simp] theorem State.updPart_cmdStat (p : Nat) (g : Partition → Partition) : (s.updPart p g).cmdStat = s.cmdStat := rfl
@[simp] theorem State.updPart_destroyWait (p : Nat) (g : Partition → Partition) : (s.updPart p g).destroyWait = s.destroyWait := rfl
@[simp] theorem State.updPart_sinks (p : Nat) (g : Partition → Partition) : (s.updPart p g).sinks = s.sinks := rfl
@[simp] theorem State.updPart_dlog (p : Nat) (g : Partition → Partition) : (s.updPart p g).dlog = s.dlog := rfl
@[simp] theorem State.updPart_dlogHead (p : Nat) (g : Partition → Partition) : (s.updPart p g).dlogHead = s.dlogHead := rfl
@[simp] theorem State.updPart_dlogSel (p : Nat) (g : Partition → Partition) : (s.updPart p g).dlogSel = s.dlogSel := rfl
@[simp] theorem State.updPart_msix (p : Nat) (g : Partition → Partition) : (s.updPart p g).msix = s.msix := rfl
@[simp] theorem State.updPart_linkLost (p : Nat) (g : Partition → Partition) : (s.updPart p g).linkLost = s.linkLost := rfl
@[simp] theorem State.updPart_tags (p : Nat) (g : Partition → Partition) : (s.updPart p g).tags = s.tags := rfl
@[simp] theorem State.updPart_pipes (p : Nat) (g : Partition → Partition) : (s.updPart p g).pipes = s.pipes := rfl
@[simp] theorem State.updPart_fibres (p : Nat) (g : Partition → Partition) : (s.updPart p g).fibres = s.fibres := rfl
@[simp] theorem State.updPart_groups (p : Nat) (g : Partition → Partition) : (s.updPart p g).groups = s.groups := rfl
@[simp] theorem State.updPart_ports (p : Nat) (g : Partition → Partition) : (s.updPart p g).ports = s.ports := rfl
@[simp] theorem State.updPart_vports (p : Nat) (g : Partition → Partition) : (s.updPart p g).vports = s.vports := rfl
@[simp] theorem State.updPart_rays (p : Nat) (g : Partition → Partition) : (s.updPart p g).rays = s.rays := rfl
@[simp] theorem State.updPart_gathers (p : Nat) (g : Partition → Partition) : (s.updPart p g).gathers = s.gathers := rfl
@[simp] theorem State.updPart_gfails (p : Nat) (g : Partition → Partition) : (s.updPart p g).gfails = s.gfails := rfl
@[simp] theorem State.updPart_copies (p : Nat) (g : Partition → Partition) : (s.updPart p g).copies = s.copies := rfl
@[simp] theorem State.updPart_beams (p : Nat) (g : Partition → Partition) : (s.updPart p g).beams = s.beams := rfl
@[simp] theorem State.updPart_jobs (p : Nat) (g : Partition → Partition) : (s.updPart p g).jobs = s.jobs := rfl
@[simp] theorem State.updPart_structs (p : Nat) (g : Partition → Partition) : (s.updPart p g).structs = s.structs := rfl
@[simp] theorem State.updPart_stepSets (p : Nat) (g : Partition → Partition) : (s.updPart p g).stepSets = s.stepSets := rfl
@[simp] theorem State.updPart_tmmas (p : Nat) (g : Partition → Partition) : (s.updPart p g).tmmas = s.tmmas := rfl
@[simp] theorem State.updPart_mxe (p : Nat) (g : Partition → Partition) : (s.updPart p g).mxe = s.mxe := rfl
@[simp] theorem State.updPart_collects (p : Nat) (g : Partition → Partition) : (s.updPart p g).collects = s.collects := rfl
@[simp] theorem State.updPart_gangs (p : Nat) (g : Partition → Partition) : (s.updPart p g).gangs = s.gangs := rfl
@[simp] theorem State.updPart_mem (p : Nat) (g : Partition → Partition) : (s.updPart p g).mem = s.mem := rfl
@[simp] theorem State.updPart_l1 (p : Nat) (g : Partition → Partition) : (s.updPart p g).l1 = s.l1 := rfl
@[simp] theorem State.updPart_registry (p : Nat) (g : Partition → Partition) : (s.updPart p g).registry = s.registry := rfl
@[simp] theorem State.updPart_vers (p : Nat) (g : Partition → Partition) : (s.updPart p g).vers = s.vers := rfl
@[simp] theorem State.updPart_verLines (p : Nat) (g : Partition → Partition) : (s.updPart p g).verLines = s.verLines := rfl
@[simp] theorem State.updPart_hostLines (p : Nat) (g : Partition → Partition) : (s.updPart p g).hostLines = s.hostLines := rfl
@[simp] theorem State.updPart_hostHeld (p : Nat) (g : Partition → Partition) : (s.updPart p g).hostHeld = s.hostHeld := rfl
@[simp] theorem State.updPart_peerWrites (p : Nat) (g : Partition → Partition) : (s.updPart p g).peerWrites = s.peerWrites := rfl
@[simp] theorem State.updPart_reducing (p : Nat) (g : Partition → Partition) : (s.updPart p g).reducing = s.reducing := rfl
@[simp] theorem State.updPart_txbs (p : Nat) (g : Partition → Partition) : (s.updPart p g).txbs = s.txbs := rfl
@[simp] theorem State.updPart_hostData (p : Nat) (g : Partition → Partition) : (s.updPart p g).hostData = s.hostData := rfl
@[simp] theorem State.updPart_tlb (p : Nat) (g : Partition → Partition) : (s.updPart p g).tlb = s.tlb := rfl
@[simp] theorem State.updPart_leases (p : Nat) (g : Partition → Partition) : (s.updPart p g).leases = s.leases := rfl
@[simp] theorem State.updPart_loads (p : Nat) (g : Partition → Partition) : (s.updPart p g).loads = s.loads := rfl
@[simp] theorem State.updPart_poisoned (p : Nat) (g : Partition → Partition) : (s.updPart p g).poisoned = s.poisoned := rfl
@[simp] theorem State.updPart_spares (p : Nat) (g : Partition → Partition) : (s.updPart p g).spares = s.spares := rfl
@[simp] theorem State.updPart_merged (p : Nat) (g : Partition → Partition) : (s.updPart p g).merged = s.merged := rfl
@[simp] theorem State.updPart_errors (p : Nat) (g : Partition → Partition) : (s.updPart p g).errors = s.errors := rfl
@[simp] theorem State.updPart_pendV (p : Nat) (g : Partition → Partition) : (s.updPart p g).pendV = s.pendV := rfl
@[simp] theorem State.updPart_cur (p : Nat) (g : Partition → Partition) : (s.updPart p g).cur = s.cur := rfl
@[simp] theorem State.updPart_agenda (p : Nat) (g : Partition → Partition) : (s.updPart p g).agenda = s.agenda := rfl
@[simp] theorem State.updPart_timers (p : Nat) (g : Partition → Partition) : (s.updPart p g).timers = s.timers := rfl
@[simp] theorem State.updPart_curWord (p : Nat) (g : Partition → Partition) : (s.updPart p g).curWord = s.curWord := rfl
@[simp] theorem State.updPart_slots (p : Nat) (g : Partition → Partition) : (s.updPart p g).slots = s.slots := rfl
@[simp] theorem State.updPart_plan (p : Nat) (g : Partition → Partition) : (s.updPart p g).plan = s.plan := rfl
@[simp] theorem State.updPart_nextUid (p : Nat) (g : Partition → Partition) : (s.updPart p g).nextUid = s.nextUid := rfl
@[simp] theorem State.updPart_nextId (p : Nat) (g : Partition → Partition) : (s.updPart p g).nextId = s.nextId := rfl
@[simp] theorem State.updPart_free (p : Nat) (g : Partition → Partition) : (s.updPart p g).free = s.free := rfl

/-! ### updTag -/

@[simp] theorem State.updTag_clock (t : Nat) (g : TagRec → TagRec) : (s.updTag t g).clock = s.clock := rfl
@[simp] theorem State.updTag_ready (t : Nat) (g : TagRec → TagRec) : (s.updTag t g).ready = s.ready := rfl
@[simp] theorem State.updTag_failed (t : Nat) (g : TagRec → TagRec) : (s.updTag t g).failed = s.failed := rfl
@[simp] theorem State.updTag_trip (t : Nat) (g : TagRec → TagRec) : (s.updTag t g).trip = s.trip := rfl
@[simp] theorem State.updTag_step (t : Nat) (g : TagRec → TagRec) : (s.updTag t g).step = s.step := rfl
@[simp] theorem State.updTag_fwver (t : Nat) (g : TagRec → TagRec) : (s.updTag t g).fwver = s.fwver := rfl
@[simp] theorem State.updTag_table (t : Nat) (g : TagRec → TagRec) : (s.updTag t g).table = s.table := rfl
@[simp] theorem State.updTag_bringDetail (t : Nat) (g : TagRec → TagRec) : (s.updTag t g).bringDetail = s.bringDetail := rfl
@[simp] theorem State.updTag_bringReason (t : Nat) (g : TagRec → TagRec) : (s.updTag t g).bringReason = s.bringReason := rfl
@[simp] theorem State.updTag_bringStep (t : Nat) (g : TagRec → TagRec) : (s.updTag t g).bringStep = s.bringStep := rfl
@[simp] theorem State.updTag_loops (t : Nat) (g : TagRec → TagRec) : (s.updTag t g).loops = s.loops := rfl
@[simp] theorem State.updTag_therm (t : Nat) (g : TagRec → TagRec) : (s.updTag t g).therm = s.therm := rfl
@[simp] theorem State.updTag_dbgDark (t : Nat) (g : TagRec → TagRec) : (s.updTag t g).dbgDark = s.dbgDark := rfl
@[simp] theorem State.updTag_dbgEn (t : Nat) (g : TagRec → TagRec) : (s.updTag t g).dbgEn = s.dbgEn := rfl
@[simp] theorem State.updTag_dbgData (t : Nat) (g : TagRec → TagRec) : (s.updTag t g).dbgData = s.dbgData := rfl
@[simp] theorem State.updTag_cmdStat (t : Nat) (g : TagRec → TagRec) : (s.updTag t g).cmdStat = s.cmdStat := rfl
@[simp] theorem State.updTag_destroyWait (t : Nat) (g : TagRec → TagRec) : (s.updTag t g).destroyWait = s.destroyWait := rfl
@[simp] theorem State.updTag_sinks (t : Nat) (g : TagRec → TagRec) : (s.updTag t g).sinks = s.sinks := rfl
@[simp] theorem State.updTag_dlog (t : Nat) (g : TagRec → TagRec) : (s.updTag t g).dlog = s.dlog := rfl
@[simp] theorem State.updTag_dlogHead (t : Nat) (g : TagRec → TagRec) : (s.updTag t g).dlogHead = s.dlogHead := rfl
@[simp] theorem State.updTag_dlogSel (t : Nat) (g : TagRec → TagRec) : (s.updTag t g).dlogSel = s.dlogSel := rfl
@[simp] theorem State.updTag_msix (t : Nat) (g : TagRec → TagRec) : (s.updTag t g).msix = s.msix := rfl
@[simp] theorem State.updTag_linkLost (t : Nat) (g : TagRec → TagRec) : (s.updTag t g).linkLost = s.linkLost := rfl
@[simp] theorem State.updTag_parts (t : Nat) (g : TagRec → TagRec) : (s.updTag t g).parts = s.parts := rfl
@[simp] theorem State.updTag_pipes (t : Nat) (g : TagRec → TagRec) : (s.updTag t g).pipes = s.pipes := rfl
@[simp] theorem State.updTag_fibres (t : Nat) (g : TagRec → TagRec) : (s.updTag t g).fibres = s.fibres := rfl
@[simp] theorem State.updTag_groups (t : Nat) (g : TagRec → TagRec) : (s.updTag t g).groups = s.groups := rfl
@[simp] theorem State.updTag_ports (t : Nat) (g : TagRec → TagRec) : (s.updTag t g).ports = s.ports := rfl
@[simp] theorem State.updTag_vports (t : Nat) (g : TagRec → TagRec) : (s.updTag t g).vports = s.vports := rfl
@[simp] theorem State.updTag_rays (t : Nat) (g : TagRec → TagRec) : (s.updTag t g).rays = s.rays := rfl
@[simp] theorem State.updTag_gathers (t : Nat) (g : TagRec → TagRec) : (s.updTag t g).gathers = s.gathers := rfl
@[simp] theorem State.updTag_gfails (t : Nat) (g : TagRec → TagRec) : (s.updTag t g).gfails = s.gfails := rfl
@[simp] theorem State.updTag_copies (t : Nat) (g : TagRec → TagRec) : (s.updTag t g).copies = s.copies := rfl
@[simp] theorem State.updTag_beams (t : Nat) (g : TagRec → TagRec) : (s.updTag t g).beams = s.beams := rfl
@[simp] theorem State.updTag_jobs (t : Nat) (g : TagRec → TagRec) : (s.updTag t g).jobs = s.jobs := rfl
@[simp] theorem State.updTag_structs (t : Nat) (g : TagRec → TagRec) : (s.updTag t g).structs = s.structs := rfl
@[simp] theorem State.updTag_stepSets (t : Nat) (g : TagRec → TagRec) : (s.updTag t g).stepSets = s.stepSets := rfl
@[simp] theorem State.updTag_tmmas (t : Nat) (g : TagRec → TagRec) : (s.updTag t g).tmmas = s.tmmas := rfl
@[simp] theorem State.updTag_mxe (t : Nat) (g : TagRec → TagRec) : (s.updTag t g).mxe = s.mxe := rfl
@[simp] theorem State.updTag_collects (t : Nat) (g : TagRec → TagRec) : (s.updTag t g).collects = s.collects := rfl
@[simp] theorem State.updTag_gangs (t : Nat) (g : TagRec → TagRec) : (s.updTag t g).gangs = s.gangs := rfl
@[simp] theorem State.updTag_mem (t : Nat) (g : TagRec → TagRec) : (s.updTag t g).mem = s.mem := rfl
@[simp] theorem State.updTag_l1 (t : Nat) (g : TagRec → TagRec) : (s.updTag t g).l1 = s.l1 := rfl
@[simp] theorem State.updTag_registry (t : Nat) (g : TagRec → TagRec) : (s.updTag t g).registry = s.registry := rfl
@[simp] theorem State.updTag_vers (t : Nat) (g : TagRec → TagRec) : (s.updTag t g).vers = s.vers := rfl
@[simp] theorem State.updTag_verLines (t : Nat) (g : TagRec → TagRec) : (s.updTag t g).verLines = s.verLines := rfl
@[simp] theorem State.updTag_hostLines (t : Nat) (g : TagRec → TagRec) : (s.updTag t g).hostLines = s.hostLines := rfl
@[simp] theorem State.updTag_hostHeld (t : Nat) (g : TagRec → TagRec) : (s.updTag t g).hostHeld = s.hostHeld := rfl
@[simp] theorem State.updTag_peerWrites (t : Nat) (g : TagRec → TagRec) : (s.updTag t g).peerWrites = s.peerWrites := rfl
@[simp] theorem State.updTag_reducing (t : Nat) (g : TagRec → TagRec) : (s.updTag t g).reducing = s.reducing := rfl
@[simp] theorem State.updTag_txbs (t : Nat) (g : TagRec → TagRec) : (s.updTag t g).txbs = s.txbs := rfl
@[simp] theorem State.updTag_hostData (t : Nat) (g : TagRec → TagRec) : (s.updTag t g).hostData = s.hostData := rfl
@[simp] theorem State.updTag_tlb (t : Nat) (g : TagRec → TagRec) : (s.updTag t g).tlb = s.tlb := rfl
@[simp] theorem State.updTag_leases (t : Nat) (g : TagRec → TagRec) : (s.updTag t g).leases = s.leases := rfl
@[simp] theorem State.updTag_loads (t : Nat) (g : TagRec → TagRec) : (s.updTag t g).loads = s.loads := rfl
@[simp] theorem State.updTag_poisoned (t : Nat) (g : TagRec → TagRec) : (s.updTag t g).poisoned = s.poisoned := rfl
@[simp] theorem State.updTag_spares (t : Nat) (g : TagRec → TagRec) : (s.updTag t g).spares = s.spares := rfl
@[simp] theorem State.updTag_merged (t : Nat) (g : TagRec → TagRec) : (s.updTag t g).merged = s.merged := rfl
@[simp] theorem State.updTag_errors (t : Nat) (g : TagRec → TagRec) : (s.updTag t g).errors = s.errors := rfl
@[simp] theorem State.updTag_pendV (t : Nat) (g : TagRec → TagRec) : (s.updTag t g).pendV = s.pendV := rfl
@[simp] theorem State.updTag_cur (t : Nat) (g : TagRec → TagRec) : (s.updTag t g).cur = s.cur := rfl
@[simp] theorem State.updTag_agenda (t : Nat) (g : TagRec → TagRec) : (s.updTag t g).agenda = s.agenda := rfl
@[simp] theorem State.updTag_timers (t : Nat) (g : TagRec → TagRec) : (s.updTag t g).timers = s.timers := rfl
@[simp] theorem State.updTag_curWord (t : Nat) (g : TagRec → TagRec) : (s.updTag t g).curWord = s.curWord := rfl
@[simp] theorem State.updTag_slots (t : Nat) (g : TagRec → TagRec) : (s.updTag t g).slots = s.slots := rfl
@[simp] theorem State.updTag_plan (t : Nat) (g : TagRec → TagRec) : (s.updTag t g).plan = s.plan := rfl
@[simp] theorem State.updTag_nextUid (t : Nat) (g : TagRec → TagRec) : (s.updTag t g).nextUid = s.nextUid := rfl
@[simp] theorem State.updTag_nextId (t : Nat) (g : TagRec → TagRec) : (s.updTag t g).nextId = s.nextId := rfl
@[simp] theorem State.updTag_free (t : Nat) (g : TagRec → TagRec) : (s.updTag t g).free = s.free := rfl

/-! ### updSink -/

@[simp] theorem State.updSink_clock (k : Nat) (g : Sink → Sink) : (s.updSink k g).clock = s.clock := rfl
@[simp] theorem State.updSink_ready (k : Nat) (g : Sink → Sink) : (s.updSink k g).ready = s.ready := rfl
@[simp] theorem State.updSink_failed (k : Nat) (g : Sink → Sink) : (s.updSink k g).failed = s.failed := rfl
@[simp] theorem State.updSink_trip (k : Nat) (g : Sink → Sink) : (s.updSink k g).trip = s.trip := rfl
@[simp] theorem State.updSink_step (k : Nat) (g : Sink → Sink) : (s.updSink k g).step = s.step := rfl
@[simp] theorem State.updSink_fwver (k : Nat) (g : Sink → Sink) : (s.updSink k g).fwver = s.fwver := rfl
@[simp] theorem State.updSink_table (k : Nat) (g : Sink → Sink) : (s.updSink k g).table = s.table := rfl
@[simp] theorem State.updSink_bringDetail (k : Nat) (g : Sink → Sink) : (s.updSink k g).bringDetail = s.bringDetail := rfl
@[simp] theorem State.updSink_bringReason (k : Nat) (g : Sink → Sink) : (s.updSink k g).bringReason = s.bringReason := rfl
@[simp] theorem State.updSink_bringStep (k : Nat) (g : Sink → Sink) : (s.updSink k g).bringStep = s.bringStep := rfl
@[simp] theorem State.updSink_loops (k : Nat) (g : Sink → Sink) : (s.updSink k g).loops = s.loops := rfl
@[simp] theorem State.updSink_therm (k : Nat) (g : Sink → Sink) : (s.updSink k g).therm = s.therm := rfl
@[simp] theorem State.updSink_dbgDark (k : Nat) (g : Sink → Sink) : (s.updSink k g).dbgDark = s.dbgDark := rfl
@[simp] theorem State.updSink_dbgEn (k : Nat) (g : Sink → Sink) : (s.updSink k g).dbgEn = s.dbgEn := rfl
@[simp] theorem State.updSink_dbgData (k : Nat) (g : Sink → Sink) : (s.updSink k g).dbgData = s.dbgData := rfl
@[simp] theorem State.updSink_cmdStat (k : Nat) (g : Sink → Sink) : (s.updSink k g).cmdStat = s.cmdStat := rfl
@[simp] theorem State.updSink_destroyWait (k : Nat) (g : Sink → Sink) : (s.updSink k g).destroyWait = s.destroyWait := rfl
@[simp] theorem State.updSink_dlog (k : Nat) (g : Sink → Sink) : (s.updSink k g).dlog = s.dlog := rfl
@[simp] theorem State.updSink_dlogHead (k : Nat) (g : Sink → Sink) : (s.updSink k g).dlogHead = s.dlogHead := rfl
@[simp] theorem State.updSink_dlogSel (k : Nat) (g : Sink → Sink) : (s.updSink k g).dlogSel = s.dlogSel := rfl
@[simp] theorem State.updSink_msix (k : Nat) (g : Sink → Sink) : (s.updSink k g).msix = s.msix := rfl
@[simp] theorem State.updSink_linkLost (k : Nat) (g : Sink → Sink) : (s.updSink k g).linkLost = s.linkLost := rfl
@[simp] theorem State.updSink_tags (k : Nat) (g : Sink → Sink) : (s.updSink k g).tags = s.tags := rfl
@[simp] theorem State.updSink_parts (k : Nat) (g : Sink → Sink) : (s.updSink k g).parts = s.parts := rfl
@[simp] theorem State.updSink_pipes (k : Nat) (g : Sink → Sink) : (s.updSink k g).pipes = s.pipes := rfl
@[simp] theorem State.updSink_fibres (k : Nat) (g : Sink → Sink) : (s.updSink k g).fibres = s.fibres := rfl
@[simp] theorem State.updSink_groups (k : Nat) (g : Sink → Sink) : (s.updSink k g).groups = s.groups := rfl
@[simp] theorem State.updSink_ports (k : Nat) (g : Sink → Sink) : (s.updSink k g).ports = s.ports := rfl
@[simp] theorem State.updSink_vports (k : Nat) (g : Sink → Sink) : (s.updSink k g).vports = s.vports := rfl
@[simp] theorem State.updSink_rays (k : Nat) (g : Sink → Sink) : (s.updSink k g).rays = s.rays := rfl
@[simp] theorem State.updSink_gathers (k : Nat) (g : Sink → Sink) : (s.updSink k g).gathers = s.gathers := rfl
@[simp] theorem State.updSink_gfails (k : Nat) (g : Sink → Sink) : (s.updSink k g).gfails = s.gfails := rfl
@[simp] theorem State.updSink_copies (k : Nat) (g : Sink → Sink) : (s.updSink k g).copies = s.copies := rfl
@[simp] theorem State.updSink_beams (k : Nat) (g : Sink → Sink) : (s.updSink k g).beams = s.beams := rfl
@[simp] theorem State.updSink_jobs (k : Nat) (g : Sink → Sink) : (s.updSink k g).jobs = s.jobs := rfl
@[simp] theorem State.updSink_structs (k : Nat) (g : Sink → Sink) : (s.updSink k g).structs = s.structs := rfl
@[simp] theorem State.updSink_stepSets (k : Nat) (g : Sink → Sink) : (s.updSink k g).stepSets = s.stepSets := rfl
@[simp] theorem State.updSink_tmmas (k : Nat) (g : Sink → Sink) : (s.updSink k g).tmmas = s.tmmas := rfl
@[simp] theorem State.updSink_mxe (k : Nat) (g : Sink → Sink) : (s.updSink k g).mxe = s.mxe := rfl
@[simp] theorem State.updSink_collects (k : Nat) (g : Sink → Sink) : (s.updSink k g).collects = s.collects := rfl
@[simp] theorem State.updSink_gangs (k : Nat) (g : Sink → Sink) : (s.updSink k g).gangs = s.gangs := rfl
@[simp] theorem State.updSink_mem (k : Nat) (g : Sink → Sink) : (s.updSink k g).mem = s.mem := rfl
@[simp] theorem State.updSink_l1 (k : Nat) (g : Sink → Sink) : (s.updSink k g).l1 = s.l1 := rfl
@[simp] theorem State.updSink_registry (k : Nat) (g : Sink → Sink) : (s.updSink k g).registry = s.registry := rfl
@[simp] theorem State.updSink_vers (k : Nat) (g : Sink → Sink) : (s.updSink k g).vers = s.vers := rfl
@[simp] theorem State.updSink_verLines (k : Nat) (g : Sink → Sink) : (s.updSink k g).verLines = s.verLines := rfl
@[simp] theorem State.updSink_hostLines (k : Nat) (g : Sink → Sink) : (s.updSink k g).hostLines = s.hostLines := rfl
@[simp] theorem State.updSink_hostHeld (k : Nat) (g : Sink → Sink) : (s.updSink k g).hostHeld = s.hostHeld := rfl
@[simp] theorem State.updSink_peerWrites (k : Nat) (g : Sink → Sink) : (s.updSink k g).peerWrites = s.peerWrites := rfl
@[simp] theorem State.updSink_reducing (k : Nat) (g : Sink → Sink) : (s.updSink k g).reducing = s.reducing := rfl
@[simp] theorem State.updSink_txbs (k : Nat) (g : Sink → Sink) : (s.updSink k g).txbs = s.txbs := rfl
@[simp] theorem State.updSink_hostData (k : Nat) (g : Sink → Sink) : (s.updSink k g).hostData = s.hostData := rfl
@[simp] theorem State.updSink_tlb (k : Nat) (g : Sink → Sink) : (s.updSink k g).tlb = s.tlb := rfl
@[simp] theorem State.updSink_leases (k : Nat) (g : Sink → Sink) : (s.updSink k g).leases = s.leases := rfl
@[simp] theorem State.updSink_loads (k : Nat) (g : Sink → Sink) : (s.updSink k g).loads = s.loads := rfl
@[simp] theorem State.updSink_poisoned (k : Nat) (g : Sink → Sink) : (s.updSink k g).poisoned = s.poisoned := rfl
@[simp] theorem State.updSink_spares (k : Nat) (g : Sink → Sink) : (s.updSink k g).spares = s.spares := rfl
@[simp] theorem State.updSink_merged (k : Nat) (g : Sink → Sink) : (s.updSink k g).merged = s.merged := rfl
@[simp] theorem State.updSink_errors (k : Nat) (g : Sink → Sink) : (s.updSink k g).errors = s.errors := rfl
@[simp] theorem State.updSink_pendV (k : Nat) (g : Sink → Sink) : (s.updSink k g).pendV = s.pendV := rfl
@[simp] theorem State.updSink_cur (k : Nat) (g : Sink → Sink) : (s.updSink k g).cur = s.cur := rfl
@[simp] theorem State.updSink_agenda (k : Nat) (g : Sink → Sink) : (s.updSink k g).agenda = s.agenda := rfl
@[simp] theorem State.updSink_timers (k : Nat) (g : Sink → Sink) : (s.updSink k g).timers = s.timers := rfl
@[simp] theorem State.updSink_curWord (k : Nat) (g : Sink → Sink) : (s.updSink k g).curWord = s.curWord := rfl
@[simp] theorem State.updSink_slots (k : Nat) (g : Sink → Sink) : (s.updSink k g).slots = s.slots := rfl
@[simp] theorem State.updSink_plan (k : Nat) (g : Sink → Sink) : (s.updSink k g).plan = s.plan := rfl
@[simp] theorem State.updSink_nextUid (k : Nat) (g : Sink → Sink) : (s.updSink k g).nextUid = s.nextUid := rfl
@[simp] theorem State.updSink_nextId (k : Nat) (g : Sink → Sink) : (s.updSink k g).nextId = s.nextId := rfl
@[simp] theorem State.updSink_free (k : Nat) (g : Sink → Sink) : (s.updSink k g).free = s.free := rfl

/-! ### post -/

@[simp] theorem State.post_clock (e : Event) : (s.post e).clock = s.clock := rfl
@[simp] theorem State.post_ready (e : Event) : (s.post e).ready = s.ready := rfl
@[simp] theorem State.post_failed (e : Event) : (s.post e).failed = s.failed := rfl
@[simp] theorem State.post_trip (e : Event) : (s.post e).trip = s.trip := rfl
@[simp] theorem State.post_step (e : Event) : (s.post e).step = s.step := rfl
@[simp] theorem State.post_fwver (e : Event) : (s.post e).fwver = s.fwver := rfl
@[simp] theorem State.post_table (e : Event) : (s.post e).table = s.table := rfl
@[simp] theorem State.post_bringDetail (e : Event) : (s.post e).bringDetail = s.bringDetail := rfl
@[simp] theorem State.post_bringReason (e : Event) : (s.post e).bringReason = s.bringReason := rfl
@[simp] theorem State.post_bringStep (e : Event) : (s.post e).bringStep = s.bringStep := rfl
@[simp] theorem State.post_loops (e : Event) : (s.post e).loops = s.loops := rfl
@[simp] theorem State.post_therm (e : Event) : (s.post e).therm = s.therm := rfl
@[simp] theorem State.post_dbgDark (e : Event) : (s.post e).dbgDark = s.dbgDark := rfl
@[simp] theorem State.post_dbgEn (e : Event) : (s.post e).dbgEn = s.dbgEn := rfl
@[simp] theorem State.post_dbgData (e : Event) : (s.post e).dbgData = s.dbgData := rfl
@[simp] theorem State.post_cmdStat (e : Event) : (s.post e).cmdStat = s.cmdStat := rfl
@[simp] theorem State.post_destroyWait (e : Event) : (s.post e).destroyWait = s.destroyWait := rfl
@[simp] theorem State.post_sinks (e : Event) : (s.post e).sinks = s.sinks := rfl
@[simp] theorem State.post_dlog (e : Event) : (s.post e).dlog = s.dlog := rfl
@[simp] theorem State.post_dlogHead (e : Event) : (s.post e).dlogHead = s.dlogHead := rfl
@[simp] theorem State.post_dlogSel (e : Event) : (s.post e).dlogSel = s.dlogSel := rfl
@[simp] theorem State.post_msix (e : Event) : (s.post e).msix = s.msix := rfl
@[simp] theorem State.post_linkLost (e : Event) : (s.post e).linkLost = s.linkLost := rfl
@[simp] theorem State.post_tags (e : Event) : (s.post e).tags = s.tags := rfl
@[simp] theorem State.post_parts (e : Event) : (s.post e).parts = s.parts := rfl
@[simp] theorem State.post_pipes (e : Event) : (s.post e).pipes = s.pipes := rfl
@[simp] theorem State.post_fibres (e : Event) : (s.post e).fibres = s.fibres := rfl
@[simp] theorem State.post_groups (e : Event) : (s.post e).groups = s.groups := rfl
@[simp] theorem State.post_ports (e : Event) : (s.post e).ports = s.ports := rfl
@[simp] theorem State.post_vports (e : Event) : (s.post e).vports = s.vports := rfl
@[simp] theorem State.post_rays (e : Event) : (s.post e).rays = s.rays := rfl
@[simp] theorem State.post_gathers (e : Event) : (s.post e).gathers = s.gathers := rfl
@[simp] theorem State.post_gfails (e : Event) : (s.post e).gfails = s.gfails := rfl
@[simp] theorem State.post_copies (e : Event) : (s.post e).copies = s.copies := rfl
@[simp] theorem State.post_beams (e : Event) : (s.post e).beams = s.beams := rfl
@[simp] theorem State.post_jobs (e : Event) : (s.post e).jobs = s.jobs := rfl
@[simp] theorem State.post_structs (e : Event) : (s.post e).structs = s.structs := rfl
@[simp] theorem State.post_stepSets (e : Event) : (s.post e).stepSets = s.stepSets := rfl
@[simp] theorem State.post_tmmas (e : Event) : (s.post e).tmmas = s.tmmas := rfl
@[simp] theorem State.post_mxe (e : Event) : (s.post e).mxe = s.mxe := rfl
@[simp] theorem State.post_collects (e : Event) : (s.post e).collects = s.collects := rfl
@[simp] theorem State.post_gangs (e : Event) : (s.post e).gangs = s.gangs := rfl
@[simp] theorem State.post_mem (e : Event) : (s.post e).mem = s.mem := rfl
@[simp] theorem State.post_l1 (e : Event) : (s.post e).l1 = s.l1 := rfl
@[simp] theorem State.post_registry (e : Event) : (s.post e).registry = s.registry := rfl
@[simp] theorem State.post_vers (e : Event) : (s.post e).vers = s.vers := rfl
@[simp] theorem State.post_verLines (e : Event) : (s.post e).verLines = s.verLines := rfl
@[simp] theorem State.post_hostLines (e : Event) : (s.post e).hostLines = s.hostLines := rfl
@[simp] theorem State.post_hostHeld (e : Event) : (s.post e).hostHeld = s.hostHeld := rfl
@[simp] theorem State.post_peerWrites (e : Event) : (s.post e).peerWrites = s.peerWrites := rfl
@[simp] theorem State.post_reducing (e : Event) : (s.post e).reducing = s.reducing := rfl
@[simp] theorem State.post_txbs (e : Event) : (s.post e).txbs = s.txbs := rfl
@[simp] theorem State.post_hostData (e : Event) : (s.post e).hostData = s.hostData := rfl
@[simp] theorem State.post_tlb (e : Event) : (s.post e).tlb = s.tlb := rfl
@[simp] theorem State.post_leases (e : Event) : (s.post e).leases = s.leases := rfl
@[simp] theorem State.post_loads (e : Event) : (s.post e).loads = s.loads := rfl
@[simp] theorem State.post_poisoned (e : Event) : (s.post e).poisoned = s.poisoned := rfl
@[simp] theorem State.post_spares (e : Event) : (s.post e).spares = s.spares := rfl
@[simp] theorem State.post_merged (e : Event) : (s.post e).merged = s.merged := rfl
@[simp] theorem State.post_errors (e : Event) : (s.post e).errors = s.errors := rfl
@[simp] theorem State.post_pendV (e : Event) : (s.post e).pendV = s.pendV := rfl
@[simp] theorem State.post_cur (e : Event) : (s.post e).cur = s.cur := rfl
@[simp] theorem State.post_timers (e : Event) : (s.post e).timers = s.timers := rfl
@[simp] theorem State.post_curWord (e : Event) : (s.post e).curWord = s.curWord := rfl
@[simp] theorem State.post_slots (e : Event) : (s.post e).slots = s.slots := rfl
@[simp] theorem State.post_plan (e : Event) : (s.post e).plan = s.plan := rfl
@[simp] theorem State.post_nextUid (e : Event) : (s.post e).nextUid = s.nextUid := rfl
@[simp] theorem State.post_nextId (e : Event) : (s.post e).nextId = s.nextId := rfl
@[simp] theorem State.post_free (e : Event) : (s.post e).free = s.free := rfl

/-! ### timer -/

@[simp] theorem State.timer_clock (c : Nat) (e : Event) : (s.timer c e).clock = s.clock := rfl
@[simp] theorem State.timer_ready (c : Nat) (e : Event) : (s.timer c e).ready = s.ready := rfl
@[simp] theorem State.timer_failed (c : Nat) (e : Event) : (s.timer c e).failed = s.failed := rfl
@[simp] theorem State.timer_trip (c : Nat) (e : Event) : (s.timer c e).trip = s.trip := rfl
@[simp] theorem State.timer_step (c : Nat) (e : Event) : (s.timer c e).step = s.step := rfl
@[simp] theorem State.timer_fwver (c : Nat) (e : Event) : (s.timer c e).fwver = s.fwver := rfl
@[simp] theorem State.timer_table (c : Nat) (e : Event) : (s.timer c e).table = s.table := rfl
@[simp] theorem State.timer_bringDetail (c : Nat) (e : Event) : (s.timer c e).bringDetail = s.bringDetail := rfl
@[simp] theorem State.timer_bringReason (c : Nat) (e : Event) : (s.timer c e).bringReason = s.bringReason := rfl
@[simp] theorem State.timer_bringStep (c : Nat) (e : Event) : (s.timer c e).bringStep = s.bringStep := rfl
@[simp] theorem State.timer_loops (c : Nat) (e : Event) : (s.timer c e).loops = s.loops := rfl
@[simp] theorem State.timer_therm (c : Nat) (e : Event) : (s.timer c e).therm = s.therm := rfl
@[simp] theorem State.timer_dbgDark (c : Nat) (e : Event) : (s.timer c e).dbgDark = s.dbgDark := rfl
@[simp] theorem State.timer_dbgEn (c : Nat) (e : Event) : (s.timer c e).dbgEn = s.dbgEn := rfl
@[simp] theorem State.timer_dbgData (c : Nat) (e : Event) : (s.timer c e).dbgData = s.dbgData := rfl
@[simp] theorem State.timer_cmdStat (c : Nat) (e : Event) : (s.timer c e).cmdStat = s.cmdStat := rfl
@[simp] theorem State.timer_destroyWait (c : Nat) (e : Event) : (s.timer c e).destroyWait = s.destroyWait := rfl
@[simp] theorem State.timer_sinks (c : Nat) (e : Event) : (s.timer c e).sinks = s.sinks := rfl
@[simp] theorem State.timer_dlog (c : Nat) (e : Event) : (s.timer c e).dlog = s.dlog := rfl
@[simp] theorem State.timer_dlogHead (c : Nat) (e : Event) : (s.timer c e).dlogHead = s.dlogHead := rfl
@[simp] theorem State.timer_dlogSel (c : Nat) (e : Event) : (s.timer c e).dlogSel = s.dlogSel := rfl
@[simp] theorem State.timer_msix (c : Nat) (e : Event) : (s.timer c e).msix = s.msix := rfl
@[simp] theorem State.timer_linkLost (c : Nat) (e : Event) : (s.timer c e).linkLost = s.linkLost := rfl
@[simp] theorem State.timer_tags (c : Nat) (e : Event) : (s.timer c e).tags = s.tags := rfl
@[simp] theorem State.timer_parts (c : Nat) (e : Event) : (s.timer c e).parts = s.parts := rfl
@[simp] theorem State.timer_pipes (c : Nat) (e : Event) : (s.timer c e).pipes = s.pipes := rfl
@[simp] theorem State.timer_fibres (c : Nat) (e : Event) : (s.timer c e).fibres = s.fibres := rfl
@[simp] theorem State.timer_groups (c : Nat) (e : Event) : (s.timer c e).groups = s.groups := rfl
@[simp] theorem State.timer_ports (c : Nat) (e : Event) : (s.timer c e).ports = s.ports := rfl
@[simp] theorem State.timer_vports (c : Nat) (e : Event) : (s.timer c e).vports = s.vports := rfl
@[simp] theorem State.timer_rays (c : Nat) (e : Event) : (s.timer c e).rays = s.rays := rfl
@[simp] theorem State.timer_gathers (c : Nat) (e : Event) : (s.timer c e).gathers = s.gathers := rfl
@[simp] theorem State.timer_gfails (c : Nat) (e : Event) : (s.timer c e).gfails = s.gfails := rfl
@[simp] theorem State.timer_copies (c : Nat) (e : Event) : (s.timer c e).copies = s.copies := rfl
@[simp] theorem State.timer_beams (c : Nat) (e : Event) : (s.timer c e).beams = s.beams := rfl
@[simp] theorem State.timer_jobs (c : Nat) (e : Event) : (s.timer c e).jobs = s.jobs := rfl
@[simp] theorem State.timer_structs (c : Nat) (e : Event) : (s.timer c e).structs = s.structs := rfl
@[simp] theorem State.timer_stepSets (c : Nat) (e : Event) : (s.timer c e).stepSets = s.stepSets := rfl
@[simp] theorem State.timer_tmmas (c : Nat) (e : Event) : (s.timer c e).tmmas = s.tmmas := rfl
@[simp] theorem State.timer_mxe (c : Nat) (e : Event) : (s.timer c e).mxe = s.mxe := rfl
@[simp] theorem State.timer_collects (c : Nat) (e : Event) : (s.timer c e).collects = s.collects := rfl
@[simp] theorem State.timer_gangs (c : Nat) (e : Event) : (s.timer c e).gangs = s.gangs := rfl
@[simp] theorem State.timer_mem (c : Nat) (e : Event) : (s.timer c e).mem = s.mem := rfl
@[simp] theorem State.timer_l1 (c : Nat) (e : Event) : (s.timer c e).l1 = s.l1 := rfl
@[simp] theorem State.timer_registry (c : Nat) (e : Event) : (s.timer c e).registry = s.registry := rfl
@[simp] theorem State.timer_vers (c : Nat) (e : Event) : (s.timer c e).vers = s.vers := rfl
@[simp] theorem State.timer_verLines (c : Nat) (e : Event) : (s.timer c e).verLines = s.verLines := rfl
@[simp] theorem State.timer_hostLines (c : Nat) (e : Event) : (s.timer c e).hostLines = s.hostLines := rfl
@[simp] theorem State.timer_hostHeld (c : Nat) (e : Event) : (s.timer c e).hostHeld = s.hostHeld := rfl
@[simp] theorem State.timer_peerWrites (c : Nat) (e : Event) : (s.timer c e).peerWrites = s.peerWrites := rfl
@[simp] theorem State.timer_reducing (c : Nat) (e : Event) : (s.timer c e).reducing = s.reducing := rfl
@[simp] theorem State.timer_txbs (c : Nat) (e : Event) : (s.timer c e).txbs = s.txbs := rfl
@[simp] theorem State.timer_hostData (c : Nat) (e : Event) : (s.timer c e).hostData = s.hostData := rfl
@[simp] theorem State.timer_tlb (c : Nat) (e : Event) : (s.timer c e).tlb = s.tlb := rfl
@[simp] theorem State.timer_leases (c : Nat) (e : Event) : (s.timer c e).leases = s.leases := rfl
@[simp] theorem State.timer_loads (c : Nat) (e : Event) : (s.timer c e).loads = s.loads := rfl
@[simp] theorem State.timer_poisoned (c : Nat) (e : Event) : (s.timer c e).poisoned = s.poisoned := rfl
@[simp] theorem State.timer_spares (c : Nat) (e : Event) : (s.timer c e).spares = s.spares := rfl
@[simp] theorem State.timer_merged (c : Nat) (e : Event) : (s.timer c e).merged = s.merged := rfl
@[simp] theorem State.timer_errors (c : Nat) (e : Event) : (s.timer c e).errors = s.errors := rfl
@[simp] theorem State.timer_pendV (c : Nat) (e : Event) : (s.timer c e).pendV = s.pendV := rfl
@[simp] theorem State.timer_cur (c : Nat) (e : Event) : (s.timer c e).cur = s.cur := rfl
@[simp] theorem State.timer_agenda (c : Nat) (e : Event) : (s.timer c e).agenda = s.agenda := rfl
@[simp] theorem State.timer_curWord (c : Nat) (e : Event) : (s.timer c e).curWord = s.curWord := rfl
@[simp] theorem State.timer_slots (c : Nat) (e : Event) : (s.timer c e).slots = s.slots := rfl
@[simp] theorem State.timer_plan (c : Nat) (e : Event) : (s.timer c e).plan = s.plan := rfl
@[simp] theorem State.timer_nextUid (c : Nat) (e : Event) : (s.timer c e).nextUid = s.nextUid := rfl
@[simp] theorem State.timer_nextId (c : Nat) (e : Event) : (s.timer c e).nextId = s.nextId := rfl
@[simp] theorem State.timer_free (c : Nat) (e : Event) : (s.timer c e).free = s.free := rfl

/-! ### setByte -/

@[simp] theorem State.setByte_clock (k : Nat) (b : Byte) : (s.setByte k b).clock = s.clock := rfl
@[simp] theorem State.setByte_ready (k : Nat) (b : Byte) : (s.setByte k b).ready = s.ready := rfl
@[simp] theorem State.setByte_failed (k : Nat) (b : Byte) : (s.setByte k b).failed = s.failed := rfl
@[simp] theorem State.setByte_trip (k : Nat) (b : Byte) : (s.setByte k b).trip = s.trip := rfl
@[simp] theorem State.setByte_step (k : Nat) (b : Byte) : (s.setByte k b).step = s.step := rfl
@[simp] theorem State.setByte_fwver (k : Nat) (b : Byte) : (s.setByte k b).fwver = s.fwver := rfl
@[simp] theorem State.setByte_table (k : Nat) (b : Byte) : (s.setByte k b).table = s.table := rfl
@[simp] theorem State.setByte_bringDetail (k : Nat) (b : Byte) : (s.setByte k b).bringDetail = s.bringDetail := rfl
@[simp] theorem State.setByte_bringReason (k : Nat) (b : Byte) : (s.setByte k b).bringReason = s.bringReason := rfl
@[simp] theorem State.setByte_bringStep (k : Nat) (b : Byte) : (s.setByte k b).bringStep = s.bringStep := rfl
@[simp] theorem State.setByte_loops (k : Nat) (b : Byte) : (s.setByte k b).loops = s.loops := rfl
@[simp] theorem State.setByte_therm (k : Nat) (b : Byte) : (s.setByte k b).therm = s.therm := rfl
@[simp] theorem State.setByte_dbgDark (k : Nat) (b : Byte) : (s.setByte k b).dbgDark = s.dbgDark := rfl
@[simp] theorem State.setByte_dbgEn (k : Nat) (b : Byte) : (s.setByte k b).dbgEn = s.dbgEn := rfl
@[simp] theorem State.setByte_dbgData (k : Nat) (b : Byte) : (s.setByte k b).dbgData = s.dbgData := rfl
@[simp] theorem State.setByte_cmdStat (k : Nat) (b : Byte) : (s.setByte k b).cmdStat = s.cmdStat := rfl
@[simp] theorem State.setByte_destroyWait (k : Nat) (b : Byte) : (s.setByte k b).destroyWait = s.destroyWait := rfl
@[simp] theorem State.setByte_sinks (k : Nat) (b : Byte) : (s.setByte k b).sinks = s.sinks := rfl
@[simp] theorem State.setByte_dlog (k : Nat) (b : Byte) : (s.setByte k b).dlog = s.dlog := rfl
@[simp] theorem State.setByte_dlogHead (k : Nat) (b : Byte) : (s.setByte k b).dlogHead = s.dlogHead := rfl
@[simp] theorem State.setByte_dlogSel (k : Nat) (b : Byte) : (s.setByte k b).dlogSel = s.dlogSel := rfl
@[simp] theorem State.setByte_msix (k : Nat) (b : Byte) : (s.setByte k b).msix = s.msix := rfl
@[simp] theorem State.setByte_linkLost (k : Nat) (b : Byte) : (s.setByte k b).linkLost = s.linkLost := rfl
@[simp] theorem State.setByte_tags (k : Nat) (b : Byte) : (s.setByte k b).tags = s.tags := rfl
@[simp] theorem State.setByte_parts (k : Nat) (b : Byte) : (s.setByte k b).parts = s.parts := rfl
@[simp] theorem State.setByte_pipes (k : Nat) (b : Byte) : (s.setByte k b).pipes = s.pipes := rfl
@[simp] theorem State.setByte_fibres (k : Nat) (b : Byte) : (s.setByte k b).fibres = s.fibres := rfl
@[simp] theorem State.setByte_groups (k : Nat) (b : Byte) : (s.setByte k b).groups = s.groups := rfl
@[simp] theorem State.setByte_ports (k : Nat) (b : Byte) : (s.setByte k b).ports = s.ports := rfl
@[simp] theorem State.setByte_vports (k : Nat) (b : Byte) : (s.setByte k b).vports = s.vports := rfl
@[simp] theorem State.setByte_rays (k : Nat) (b : Byte) : (s.setByte k b).rays = s.rays := rfl
@[simp] theorem State.setByte_gathers (k : Nat) (b : Byte) : (s.setByte k b).gathers = s.gathers := rfl
@[simp] theorem State.setByte_gfails (k : Nat) (b : Byte) : (s.setByte k b).gfails = s.gfails := rfl
@[simp] theorem State.setByte_copies (k : Nat) (b : Byte) : (s.setByte k b).copies = s.copies := rfl
@[simp] theorem State.setByte_beams (k : Nat) (b : Byte) : (s.setByte k b).beams = s.beams := rfl
@[simp] theorem State.setByte_jobs (k : Nat) (b : Byte) : (s.setByte k b).jobs = s.jobs := rfl
@[simp] theorem State.setByte_structs (k : Nat) (b : Byte) : (s.setByte k b).structs = s.structs := rfl
@[simp] theorem State.setByte_stepSets (k : Nat) (b : Byte) : (s.setByte k b).stepSets = s.stepSets := rfl
@[simp] theorem State.setByte_tmmas (k : Nat) (b : Byte) : (s.setByte k b).tmmas = s.tmmas := rfl
@[simp] theorem State.setByte_mxe (k : Nat) (b : Byte) : (s.setByte k b).mxe = s.mxe := rfl
@[simp] theorem State.setByte_collects (k : Nat) (b : Byte) : (s.setByte k b).collects = s.collects := rfl
@[simp] theorem State.setByte_gangs (k : Nat) (b : Byte) : (s.setByte k b).gangs = s.gangs := rfl
@[simp] theorem State.setByte_l1 (k : Nat) (b : Byte) : (s.setByte k b).l1 = s.l1 := rfl
@[simp] theorem State.setByte_registry (k : Nat) (b : Byte) : (s.setByte k b).registry = s.registry := rfl
@[simp] theorem State.setByte_vers (k : Nat) (b : Byte) : (s.setByte k b).vers = s.vers := rfl
@[simp] theorem State.setByte_verLines (k : Nat) (b : Byte) : (s.setByte k b).verLines = s.verLines := rfl
@[simp] theorem State.setByte_hostLines (k : Nat) (b : Byte) : (s.setByte k b).hostLines = s.hostLines := rfl
@[simp] theorem State.setByte_hostHeld (k : Nat) (b : Byte) : (s.setByte k b).hostHeld = s.hostHeld := rfl
@[simp] theorem State.setByte_peerWrites (k : Nat) (b : Byte) : (s.setByte k b).peerWrites = s.peerWrites := rfl
@[simp] theorem State.setByte_reducing (k : Nat) (b : Byte) : (s.setByte k b).reducing = s.reducing := rfl
@[simp] theorem State.setByte_txbs (k : Nat) (b : Byte) : (s.setByte k b).txbs = s.txbs := rfl
@[simp] theorem State.setByte_hostData (k : Nat) (b : Byte) : (s.setByte k b).hostData = s.hostData := rfl
@[simp] theorem State.setByte_tlb (k : Nat) (b : Byte) : (s.setByte k b).tlb = s.tlb := rfl
@[simp] theorem State.setByte_leases (k : Nat) (b : Byte) : (s.setByte k b).leases = s.leases := rfl
@[simp] theorem State.setByte_loads (k : Nat) (b : Byte) : (s.setByte k b).loads = s.loads := rfl
@[simp] theorem State.setByte_poisoned (k : Nat) (b : Byte) : (s.setByte k b).poisoned = s.poisoned := rfl
@[simp] theorem State.setByte_spares (k : Nat) (b : Byte) : (s.setByte k b).spares = s.spares := rfl
@[simp] theorem State.setByte_merged (k : Nat) (b : Byte) : (s.setByte k b).merged = s.merged := rfl
@[simp] theorem State.setByte_errors (k : Nat) (b : Byte) : (s.setByte k b).errors = s.errors := rfl
@[simp] theorem State.setByte_pendV (k : Nat) (b : Byte) : (s.setByte k b).pendV = s.pendV := rfl
@[simp] theorem State.setByte_cur (k : Nat) (b : Byte) : (s.setByte k b).cur = s.cur := rfl
@[simp] theorem State.setByte_agenda (k : Nat) (b : Byte) : (s.setByte k b).agenda = s.agenda := rfl
@[simp] theorem State.setByte_timers (k : Nat) (b : Byte) : (s.setByte k b).timers = s.timers := rfl
@[simp] theorem State.setByte_curWord (k : Nat) (b : Byte) : (s.setByte k b).curWord = s.curWord := rfl
@[simp] theorem State.setByte_slots (k : Nat) (b : Byte) : (s.setByte k b).slots = s.slots := rfl
@[simp] theorem State.setByte_plan (k : Nat) (b : Byte) : (s.setByte k b).plan = s.plan := rfl
@[simp] theorem State.setByte_nextUid (k : Nat) (b : Byte) : (s.setByte k b).nextUid = s.nextUid := rfl
@[simp] theorem State.setByte_nextId (k : Nat) (b : Byte) : (s.setByte k b).nextId = s.nextId := rfl
@[simp] theorem State.setByte_free (k : Nat) (b : Byte) : (s.setByte k b).free = s.free := rfl

end

end Sys2Proof.Machine
end

