-- ==== Sys2Proof/Laws/Fibres.lean ====
section
/-! SUPPORT. Looking up fibres and groups after an update, and the registers of a fibre. -/

namespace Sys2Proof.Machine

/-! ### Lists keyed by a number -/

/-- The first element of a changed list, where a change leaves an element's class as it was. -/
theorem find_mapIf {α : Type} {p q : α → Bool} {g : α → α} {l : List α} (h : ∀ x, p x = true → q (g x) = q x) :
    (mapIf p g l).find? q = (l.find? q).map fun x => if p x then g x else x := by
  induction l with
  | nil => rfl
  | cons x r ih =>
    have hx : q (if p x then g x else x) = q x := by split; exact h x ‹_›; rfl
    simp only [mapIf, List.map_cons] at ih ⊢
    rw [List.find?_cons, List.find?_cons, hx]
    cases q x with
    | true => rfl
    | false => exact ih

/-! ### Fibres -/

/-- Looking up a fibre that is there. -/
theorem find_fibre {s : State} {u : Nat} (h : ∃ f ∈ s.fibres, f.uid = u) : s.fibres.find? (fun f => f.uid == u) = some (s.fibre u) := by
  obtain ⟨f, hf, hu⟩ := h
  unfold State.fibre
  cases hx : s.fibres.find? fun f => f.uid == u with
  | none => rw [List.find?_eq_none] at hx; exact absurd (by simp [hu]) (hx f hf)
  | some g => rfl

/-- The fibre of a number that is there has that number. -/
theorem fibre_uid {s : State} {u : Nat} (h : ∃ f ∈ s.fibres, f.uid = u) : (s.fibre u).uid = u := by
  simpa using List.find?_some (find_fibre h)

/-- Lookup after a change of a class of fibres that keeps their numbers. -/
theorem fibre_mapIf {s : State} {p : Fibre → Bool} {g : Fibre → Fibre} {u : Nat} (h : ∃ f ∈ s.fibres, f.uid = u)
    (hg : ∀ f, p f = true → (g f).uid = f.uid) :
    State.fibre { s with fibres := mapIf p g s.fibres } u = if p (s.fibre u) then g (s.fibre u) else s.fibre u := by
  show ((mapIf p g s.fibres).find? fun f => f.uid == u).getD Fibre.blank = _
  rw [find_mapIf fun x hx => by simp [hg x hx], find_fibre h]
  rfl

/-- Lookup of a fibre that a change of a class does not touch. -/
theorem fibre_mapIf_other {s : State} {p : Fibre → Bool} {g : Fibre → Fibre} {u : Nat} (hp : ∀ f, f.uid = u → p f = false)
    (hg : ∀ f, p f = true → (g f).uid = f.uid) : State.fibre { s with fibres := mapIf p g s.fibres } u = s.fibre u := by
  show ((mapIf p g s.fibres).find? fun f => f.uid == u).getD Fibre.blank = _
  rw [find_mapIf fun x hx => by simp [hg x hx]]
  unfold State.fibre
  cases hx : s.fibres.find? fun f => f.uid == u with
  | none => rfl
  | some f => simp [hp f (by simpa using List.find?_some hx)]

/-- A change of a class of fibres keeps the numbers that are there. -/
theorem has_mapIf {s : State} {p : Fibre → Bool} {g : Fibre → Fibre} {u : Nat} (h : ∃ f ∈ s.fibres, f.uid = u)
    (hg : ∀ f, p f = true → (g f).uid = f.uid) : ∃ f ∈ mapIf p g s.fibres, f.uid = u := by
  obtain ⟨f, hf, hu⟩ := h
  refine ⟨if p f then g f else f, List.mem_map.mpr ⟨f, hf, rfl⟩, ?_⟩
  split
  · rw [hg f ‹_›, hu]
  · exact hu

/-- Lookup after a change of the fibres of a list. -/
theorem fibre_updAll {s : State} {us : List Nat} {g : Fibre → Fibre} {u : Nat} (h : ∃ f ∈ s.fibres, f.uid = u)
    (hg : ∀ f, (g f).uid = f.uid) : (s.updAll us g).fibre u = if us.contains u then g (s.fibre u) else s.fibre u := by
  have := fibre_mapIf (p := fun f => us.contains f.uid) h (fun f _ => hg f)
  rw [fibre_uid h] at this
  exact this

/-- A change of the fibres of a list leaves the others alone. -/
theorem fibre_updAll_other {s : State} {us : List Nat} {g : Fibre → Fibre} {u : Nat} (h : u ∉ us)
    (hg : ∀ f, (g f).uid = f.uid) : (s.updAll us g).fibre u = s.fibre u :=
  fibre_mapIf_other (p := fun f => us.contains f.uid) (fun f hf => by simp [hf, h]) (fun f _ => hg f)

/-- Lookup of a fibre that has been changed. -/
theorem fibre_updFibre_same {s : State} {u : Nat} {g : Fibre → Fibre} (h : ∃ f ∈ s.fibres, f.uid = u)
    (hg : ∀ f, f.uid = u → (g f).uid = u) : (s.updFibre u g).fibre u = g (s.fibre u) := by
  have := fibre_mapIf (p := fun f => f.uid == u) h (fun f hf => by
    have hf' : f.uid = u := by simpa using hf
    rw [hg f hf', hf'])
  rw [fibre_uid h, if_pos (by simp)] at this
  exact this

/-- Lookup of another fibre. -/
theorem fibre_updFibre_other {s : State} {u v : Nat} {g : Fibre → Fibre} (h : u ≠ v)
    (hg : ∀ f, f.uid = v → (g f).uid = v) : (s.updFibre v g).fibre u = s.fibre u :=
  fibre_mapIf_other (p := fun f => f.uid == v) (fun f hf => by simp [hf, h]) (fun f hf => by
    have hf' : f.uid = v := by simpa using hf
    rw [hg f hf', hf'])

/-- Lookup after a change of everything but the fibres. -/
theorem fibre_congr {s t : State} (h : t.fibres = s.fibres) (u : Nat) : t.fibre u = s.fibre u := by
  unfold State.fibre; rw [h]

@[simp] theorem fibre_updGroup (s : State) (i : GroupId) (g : Group → Group) (u : Nat) : (s.updGroup i g).fibre u = s.fibre u := rfl
@[simp] theorem fibre_setS (s : State) (i : GroupId) (n : Nat) (x : PDWord) (u : Nat) : (s.setS i n x).fibre u = s.fibre u := rfl
@[simp] theorem fibre_post (s : State) (e : Event) (u : Nat) : (s.post e).fibre u = s.fibre u := rfl
@[simp] theorem fibre_timer (s : State) (c : Nat) (e : Event) (u : Nat) : (s.timer c e).fibre u = s.fibre u := rfl
@[simp] theorem fibre_updPart (s : State) (p : Nat) (g : Partition → Partition) (u : Nat) : (s.updPart p g).fibre u = s.fibre u := rfl
@[simp] theorem fibre_updPipe (s : State) (p h : Nat) (g : Pipe → Pipe) (u : Nat) : (s.updPipe p h g).fibre u = s.fibre u := rfl
@[simp] theorem fibre_setByte (s : State) (k : Nat) (b : Byte) (u : Nat) : (s.setByte k b).fibre u = s.fibre u := rfl

/-! ### Registers of a fibre (R25, R27, R105) -/

@[simp] theorem setV_uid (f : Fibre) (n : Nat) (x : PWord) : (f.setV n x).uid = f.uid := rfl
@[simp] theorem setPair_uid (f : Fibre) (n : Nat) (x : PDWord) : (f.setPair n x).uid = f.uid := rfl
@[simp] theorem setPred_uid (f : Fibre) (n : Nat) (b : Bool) : (f.setPred n b).uid = f.uid := by unfold Fibre.setPred; split <;> rfl
@[simp] theorem setD_uid (f : Fibre) (e : Ext) (p : Bool) (x : PDWord) : (f.setD e p x).uid = f.uid := by unfold Fibre.setD; split <;> rfl
@[simp] theorem setPd_uid (f : Fibre) (e : Ext) (b : Bool) : (f.setPd e b).uid = f.uid := by unfold Fibre.setPd; split <;> simp
@[simp] theorem setF_uid (f : Fibre) (e : Ext) (p : Bool) (r : FRes) : (f.setF e p r).uid = f.uid := by unfold Fibre.setF; split <;> rfl
@[simp] theorem advancePc_uid (f : Fibre) (n : Nat) : (f.advancePc n).uid = f.uid := by
  unfold Fibre.advancePc; dsimp only; split
  · split <;> rfl
  · rfl
@[simp] theorem waits_uid (f : Fibre) (st : FState) (w : Wait) : (f.waits st w).uid = f.uid := rfl
@[simp] theorem retry_uid (f : Fibre) : f.retry.uid = f.uid := by unfold Fibre.retry; split <;> rfl
@[simp] theorem continues_uid (f : Fibre) : f.continues.uid = f.uid := by
  unfold Fibre.continues; split
  · rfl
  · simp

/-- A v-register after a write, where the file is in canonical form. -/
theorem v_setV {f : Fibre} {n m : Nat} {x : PWord} (h : mapWf zeroWord f.vregs) :
    (f.setV n x).v m = if m = n then (if x.poison then ⟨0, true⟩ else x) else f.v m := mapGet_setFrom h

/-- A write keeps the register file in canonical form. -/
theorem setV_wf {f : Fibre} {n : Nat} {x : PWord} (h : mapWf zeroWord f.vregs) : mapWf zeroWord (f.setV n x).vregs := mapWf_set h

/-- p0 reads 1 whatever is written to it (R25). -/
@[simp] theorem pred_zero (f : Fibre) : f.pred 0 = true := rfl
@[simp] theorem setPred_zero (f : Fibre) (b : Bool) : f.setPred 0 b = f := rfl

/-- A predicate after a write. -/
theorem pred_setPred {f : Fibre} {n m : Nat} {b : Bool} (hn : n < 16) (hm : m < 16) (h0 : n ≠ 0) :
    (f.setPred n b).pred m = if m = n then b else f.pred m := by
  have hw : ¬ (n = 0 ∨ 16 ≤ n) := by omega
  unfold Fibre.setPred Fibre.pred
  rw [if_neg hw]
  by_cases h1 : m = n
  · subst h1
    cases b <;> simp [h0, BitVec.getLsbD_shiftLeft, hn]
  · have h3 : m - n = 0 → m < n := by omega
    rw [if_neg h1]
    by_cases hm0 : m = 0
    · simp [hm0]
    · cases b
      · simp only [Bool.false_eq_true, if_false, BitVec.getLsbD_and, BitVec.getLsbD_not, BitVec.getLsbD_shiftLeft]
        by_cases hlt : m < n
        · simp [hlt, hm]
        · have : (1#16).getLsbD (m - n) = false := by
            have : m - n ≠ 0 := by omega
            simp [BitVec.getLsbD_one, this]
          simp [this, hm]
      · simp only [if_true, BitVec.getLsbD_or, BitVec.getLsbD_shiftLeft]
        by_cases hlt : m < n
        · simp [hlt]
        · have : (1#16).getLsbD (m - n) = false := by
            have : m - n ≠ 0 := by omega
            simp [BitVec.getLsbD_one, this]
          simp [this]

/-! ### Groups -/

/-- Lookup of a group after a change of one that keeps what names it. -/
theorem group_updGroup {s : State} {i j : GroupId} {g : Group → Group} (hg : ∀ x j, (g x).is j = x.is j) (hj : (s.group? j).isSome) :
    (s.updGroup i g).group j = if (s.group j).is i then g (s.group j) else s.group j := by
  unfold State.group State.group? at *
  show ((mapIf (fun x => x.is i) g s.groups).find? fun g => g.is j).getD Group.blank = _
  rw [find_mapIf fun x _ => hg x j]
  obtain ⟨x, hx⟩ := Option.isSome_iff_exists.mp hj
  rw [hx]
  rfl

end Sys2Proof.Machine
end

