-- ==== Sys2Proof/Laws/Issue.lean ====
section
/-! SUPPORT. What the issue of an instruction comes to: one lemma for the shared issue, and one for each shape of body. -/

namespace Sys2Proof.Machine

section

variable {s : State} {i : Issue}

@[simp] theorem issued_uid (f : Fibre) (c r n : Nat) : (f.issued c r n).uid = f.uid := rfl

/-! ### The state in which the wave has issued -/

/-- Marking an issue changes the wave's fibres. -/
theorem markIssued_fibres (s : State) (i : Issue) : ∃ g : Fibre → Fibre, (∀ f, (g f).uid = f.uid) ∧ (s.markIssued i).fibres = (s.updAll s.cur g).fibres := by
  refine ⟨fun f => { f.issued s.clock (s.coreClock (s.coreOf f) (i.e.stall.toNat + 1)) i.e.stall.toNat with
    sb := (f.issued s.clock (s.coreClock (s.coreOf f) (i.e.stall.toNat + 1)) i.e.stall.toNat).sb ++ i.marks (s.wave.any fun f => f.guard i.e) f (s.coreClock (s.coreOf f)) }, fun _ => rfl, ?_⟩
  simp only [State.markIssued, apply_ite State.fibres, State.updGroup_fibres, ite_self]

/-- A property of both branches of a choice between states. -/
theorem ite_prop {P : State → Prop} {c : Prop} [Decidable c] {t u : State} (ht : P t) (hu : P u) : P (if c then t else u) := by
  split <;> assumption

/-- Marking an issue changes fibres and the scoreboards of groups. -/
theorem markIssued_frame (s : State) (i : Issue) : s.markIssued i = { s with fibres := (s.markIssued i).fibres, groups := (s.markIssued i).groups } := by
  exact ite_prop (P := fun t => t = { s with fibres := t.fibres, groups := t.groups }) rfl rfl

/-- Passing a comparison point changes fibres. -/
theorem passPoint_frame (s : State) (i : Issue) (us : List Nat) : s.passPoint i us = { s with fibres := (s.passPoint i us).fibres } := by
  unfold State.passPoint
  split <;> rfl

/-- Reading tokens changes the L1 alone. -/
theorem readTokens_frame (s : State) (i : Issue) : s.readTokens i = { s with l1 := (s.readTokens i).l1 } := by
  unfold State.readTokens
  dsimp only
  split <;> rfl

@[simp] theorem readTokens_fibres (s : State) (i : Issue) : (s.readTokens i).fibres = s.fibres := by rw [readTokens_frame]
@[simp] theorem readTokens_groups (s : State) (i : Issue) : (s.readTokens i).groups = s.groups := by rw [readTokens_frame]

/-- The issue changes fibres, the scoreboards of groups and the L1. -/
theorem issuedBy_frame (s : State) (i : Issue) :
    s.issuedBy i = { s with fibres := (s.issuedBy i).fibres, groups := (s.issuedBy i).groups, l1 := (s.issuedBy i).l1 } := by
  have h : ∃ F G L, s.issuedBy i = { s with fibres := F, groups := G, l1 := L } := by
    rw [State.issuedBy, readTokens_frame, passPoint_frame, markIssued_frame]
    exact ⟨_, _, _, rfl⟩
  obtain ⟨F, G, L, h⟩ := h
  rw [h]

@[simp] theorem issuedBy_cur (s : State) (i : Issue) : (s.issuedBy i).cur = s.cur := by rw [issuedBy_frame]
@[simp] theorem issuedBy_pipes (s : State) (i : Issue) : (s.issuedBy i).pipes = s.pipes := by rw [issuedBy_frame]
@[simp] theorem issuedBy_mem (s : State) (i : Issue) : (s.issuedBy i).mem = s.mem := by rw [issuedBy_frame]
@[simp] theorem issuedBy_clock (s : State) (i : Issue) : (s.issuedBy i).clock = s.clock := by rw [issuedBy_frame]
@[simp] theorem issuedBy_parts (s : State) (i : Issue) : (s.issuedBy i).parts = s.parts := by rw [issuedBy_frame]

/-- The fibres of the state are still there once the wave has issued. -/
theorem issuedBy_has {u : Nat} (h : ∃ f ∈ s.fibres, f.uid = u) : ∃ f ∈ (s.issuedBy i).fibres, f.uid = u := by
  have h1 : ∃ f ∈ (s.markIssued i).fibres, f.uid = u := by
    obtain ⟨g, hg, he⟩ := markIssued_fibres s i
    rw [he]
    exact has_mapIf (p := fun f => s.cur.contains f.uid) h fun f _ => hg f
  unfold State.issuedBy
  rw [readTokens_fibres]
  unfold State.passPoint
  split
  · exact has_mapIf (p := fun f => (s.activeSet i).contains f.uid) h1 fun f _ => rfl
  · exact h1

/-- An active fibre is one of the wave. -/
theorem active_mem {u : Nat} (h : s.waveFound) (hu : u ∈ s.activeSet i) : u ∈ s.cur := by
  simp only [State.activeSet, State.wave, List.mem_map, List.mem_filter] at hu
  obtain ⟨f, ⟨⟨v, hv, rfl⟩, _⟩, rfl⟩ := hu
  rw [fibre_uid (h v hv)]
  exact hv

/-! ### The issue -/

/-- An instruction that passes the shared checks in a pipeline that is not replicated acts at once. -/
theorem issue_go {body : Body} (h : Issues s i) :
    s.issue i body = s.perform i (s.wave.filter fun f => f.guard i.e) body ∧
    (s.wave.filter fun f => f.guard i.e).headD Fibre.blank ∈ s.wave ∧
    (s.pipeOf ((s.wave.filter fun f => f.guard i.e).headD Fibre.blank)).replicated = false := by
  have hsub : ∀ f ∈ s.wave.filter (fun f => f.guard i.e), f ∈ s.wave := fun f hf => (List.mem_filter.mp hf).1
  have hne : s.wave.filter (fun f => f.guard i.e) ≠ [] := fun h0 => h.active (by simp [State.activeSet, h0])
  have hs := h.single
  have hg := h.gate
  unfold State.issue
  rw [hg]
  dsimp only
  generalize hL : (s.wave.filter fun f => f.guard i.e) = L at *
  cases L with
  | nil => exact absurd rfl hne
  | cons f r =>
    have hm : f ∈ s.wave := hsub f List.mem_cons_self
    have h0 : (s.pipeOf f).replicated = false := by simp [Pipe.replicated, hs f hm]
    refine ⟨?_, hm, h0⟩
    have hw : s.replWait i (f :: r) = none := by
      simp only [State.replWait, List.headD_cons, h0]; rfl
    simp only [List.isEmpty_cons, Bool.false_eq_true, if_false, hw]

/-- An instruction that passes the shared checks has its effect, and the wave moves on past it. -/
theorem issue_ok {body : Body} {t : State} {stay : List Nat} (h : Issues s i) (hb : body (s.issuedBy i) (s.activeSet i) = .ok (t, stay)) :
    s.issue i body = .next (t.advanceCur i.len stay) := by
  obtain ⟨h1, h2, h3⟩ := issue_go (body := body) h
  rw [h1]
  have hb' : body (((s.markIssued i).passPoint i ((s.wave.filter fun f => f.guard i.e).map fun f => f.uid)).readTokens i)
      ((s.wave.filter fun f => f.guard i.e).map fun f => f.uid) = .ok (t, stay) := hb
  generalize (s.wave.filter fun f => f.guard i.e) = L at *
  have hfo : (i.once && s.follows L) = false := by simp only [State.follows, h3, Bool.false_and, Bool.and_false]
  simp only [State.perform, hfo, Bool.false_eq_true, if_false, hb', h3, Bool.and_false]

/-- An instruction that stops: what the stop does to its active fibres. -/
theorem issue_stop {body : Body} {st : Stop} (h : Issues s i) (hb : body (s.issuedBy i) (s.activeSet i) = .error st) :
    s.issue i body = s.stopped (s.activeSet i) i.len st := by
  obtain ⟨h1, h2, h3⟩ := issue_go (body := body) h
  rw [h1]
  have hb' : body (((s.markIssued i).passPoint i ((s.wave.filter fun f => f.guard i.e).map fun f => f.uid)).readTokens i)
      ((s.wave.filter fun f => f.guard i.e).map fun f => f.uid) = .error st := hb
  unfold State.activeSet
  generalize (s.wave.filter fun f => f.guard i.e) = L at *
  have hfo : (i.once && s.follows L) = false := by simp only [State.follows, h3, Bool.false_and, Bool.and_false]
  simp only [State.perform, hfo, Bool.false_eq_true, if_false, hb']

/-- An instruction that fails a shared check traps, and holds the whole wave. -/
theorem issue_trap {body : Body} {t : Trap} (h : s.gate i = .trap t) :
    s.issue i body = .next (s.trap ((s.wave.filter fun f => f.guard i.e).headD (s.wave.headD Fibre.blank)).uid s.cur t none (some i.len)) := by
  unfold State.issue; rw [h]

/-- With no active fibre the wave moves on. -/
theorem issue_idle {body : Body} (h : s.gate i = .go) (ha : s.activeSet i = []) :
    s.issue i body = .next ((s.markIssued i).advanceCur i.len []) := by
  have h0 : (s.wave.filter fun f => f.guard i.e) = [] := List.map_eq_nil_iff.mp ha
  unfold State.issue; rw [h]; simp [h0]

/-! ### Bodies -/

/-- Acting in each fibre: what `eachFrom` leaves, where every fibre succeeds. -/
theorem eachFrom_ok {g : State → Fibre → Except Trap Fibre} {g' : Fibre → Fibre} (hu : ∀ f, (g' f).uid = f.uid) :
    ∀ (us : List Nat) (t : State), (∀ u ∈ us, ∃ f ∈ s.fibres, f.uid = u) → (∀ u ∈ us, ∃ f ∈ t.fibres, f.uid = u) →
      (∀ u ∈ us, g s (s.fibre u) = .ok (g' (s.fibre u))) →
      ∃ t', eachFrom g s t us = .ok t' ∧ (∀ u ∈ us, t'.fibre u = g' (s.fibre u)) ∧ (∀ u, u ∉ us → t'.fibre u = t.fibre u) ∧
        t' = { t with fibres := t'.fibres } ∧ (∀ u, (∃ f ∈ t.fibres, f.uid = u) → ∃ f ∈ t'.fibres, f.uid = u) := by
  intro us
  induction us with
  | nil => intro t _ _ _; exact ⟨t, rfl, by simp, fun _ _ => rfl, rfl, fun _ h => h⟩
  | cons u r ih =>
    intro t hs ht hg
    have hsu := hs u List.mem_cons_self
    have hku : ∀ f : Fibre, f.uid = u → (g' (s.fibre u)).uid = u := fun _ _ => by rw [hu, fibre_uid hsu]
    have hmap : ∀ v, (∃ f ∈ t.fibres, f.uid = v) → ∃ f ∈ (t.updFibre u fun _ => g' (s.fibre u)).fibres, f.uid = v := fun v hv =>
      has_mapIf (p := fun f => f.uid == u) hv fun f hf => by
        have hf' : f.uid = u := by simpa using hf
        rw [hku f hf', hf']
    obtain ⟨t', he, h1, h2, h3, h4⟩ := ih (t.updFibre u fun _ => g' (s.fibre u)) (fun v hv => hs v (List.mem_cons_of_mem _ hv))
      (fun v hv => hmap v (ht v (List.mem_cons_of_mem _ hv))) (fun v hv => hg v (List.mem_cons_of_mem _ hv))
    refine ⟨t', ?_, ?_, ?_, ?_, fun v hv => h4 v (hmap v hv)⟩
    · simp only [eachFrom, hg u List.mem_cons_self]; exact he
    · intro v hv
      by_cases hr : v ∈ r
      · exact h1 v hr
      · have hvu : v = u := by simpa [hr] using hv
        subst hvu
        rw [h2 v hr, fibre_updFibre_same (ht v List.mem_cons_self) hku]
    · intro v hv
      have hvu : v ≠ u := fun h => hv (by simp [h])
      rw [h2 v (fun h => hv (List.mem_cons_of_mem _ h)), fibre_updFibre_other hvu hku]
    · rw [h3]; rfl

/-- Acting in each fibre by a plain function. -/
theorem eachFrom_plain {h : State → Fibre → Fibre} {s : State} : ∀ (us : List Nat) (t : State),
    eachFrom (fun s f => .ok (h s f)) s t us = .ok (us.foldl (fun t u => t.updFibre u fun _ => h s (s.fibre u)) t) := by
  intro us
  induction us with
  | nil => intro t; rfl
  | cons u r ih => intro t; exact ih _

/-- The same, as a body. -/
theorem eachFibre_plain {h : State → Fibre → Fibre} (s : State) (us : List Nat) :
    eachFibre (fun s f => .ok (h s f)) s us = .ok (us.foldl (fun t u => t.updFibre u fun _ => h s (s.fibre u)) s, []) := by
  unfold eachFibre; rw [eachFrom_plain]

/-- An effect without a stop, fibre after fibre. -/
theorem orderFrom_ok {g : State → Nat → Except Stop (State × Bool)} {g' : State → Nat → State × Bool} (hg : ∀ s u, g s u = .ok (g' s u)) :
    ∀ (us : List Nat) (s : State) (stay : List Nat), orderFrom g s stay us = .ok (inOrder g' s stay us) := by
  intro us
  induction us with
  | nil => intro s stay; rfl
  | cons u r ih =>
    intro s stay
    simp only [orderFrom, hg, inOrder]
    exact ih _ _

/-- The same, as a body. -/
theorem inLaneOrder_ok {g : State → Nat → Except Stop (State × Bool)} {g' : State → Nat → State × Bool} (hg : ∀ s u, g s u = .ok (g' s u))
    (s : State) (us : List Nat) : inLaneOrder g s us = .ok (inOrder g' s [] us) := orderFrom_ok hg us s []

/-- The advance of the wave. -/
theorem advanceCur_fibre {t : State} {len : Nat} {u : Nat} (h : ∃ f ∈ t.fibres, f.uid = u) :
    (t.advanceCur len []).fibre u = if u ∈ t.cur then (t.fibre u).advancePc len else t.fibre u := by
  unfold State.advanceCur
  rw [fibre_updAll h fun f => advancePc_uid f len]
  simp

/-- The advance of the wave leaves other fibres alone. -/
theorem advanceCur_other {t : State} {len : Nat} {u : Nat} (h : u ∉ t.cur) : (t.advanceCur len []).fibre u = t.fibre u := by
  unfold State.advanceCur
  exact fibre_updAll_other (by simp [h]) fun f => advancePc_uid f len

/-- A wave that changes each active fibre by `g` retires. -/
theorem retires_of {t : State} {g : Fibre → Fibre} (h : Issues s i) {len : Nat}
    (h1 : ∀ u ∈ s.activeSet i, t.fibre u = g ((s.issuedBy i).fibre u)) (h2 : ∀ u, u ∉ s.activeSet i → t.fibre u = (s.issuedBy i).fibre u)
    (h3 : t = { s.issuedBy i with fibres := t.fibres }) (h4 : ∀ u, (∃ f ∈ (s.issuedBy i).fibres, f.uid = u) → ∃ f ∈ t.fibres, f.uid = u) :
    Retires (s.issuedBy i) (t.advanceCur len []) (s.activeSet i) len g := by
  have hc : t.cur = s.cur := by rw [h3]; exact issuedBy_cur s i
  have hcur : ∀ u ∈ s.cur, ∃ f ∈ t.fibres, f.uid = u := fun u hu => h4 u (issuedBy_has (h.found u hu))
  refine ⟨?_, ?_, ?_, ?_⟩
  · intro u hu
    have hm := active_mem h.found hu
    rw [advanceCur_fibre (hcur u hm), if_pos (by rw [hc]; exact hm), h1 u hu]
  · intro u hu hn
    rw [issuedBy_cur] at hu
    rw [advanceCur_fibre (hcur u hu), if_pos (by rw [hc]; exact hu), h2 u hn]
  · intro u hu
    rw [issuedBy_cur] at hu
    rw [advanceCur_other (by rw [hc]; exact hu)]
    exact h2 u fun ha => hu (active_mem h.found ha)
  · show { t with fibres := _ } = _
    rw [h3]; rfl

/-- A wave that changes each active fibre by `g` and writes one s-register retires. -/
theorem retiresS_of {t : State} {g : Fibre → Fibre} {k : GroupId} {n : Nat} {x : PDWord} (h : Issues s i) {len : Nat}
    (hk : ((s.issuedBy i).group? k).isSome) (hg : ∀ f, (g f).uid = f.uid)
    (ht : t = ((s.issuedBy i).updAll (s.activeSet i) g).setS k n x) :
    RetiresS (s.issuedBy i) (t.advanceCur len []) (s.activeSet i) len g k n x := by
  have hh : ∀ u ∈ s.cur, ∃ f ∈ (s.issuedBy i).fibres, f.uid = u := fun u hu => issuedBy_has (h.found u hu)
  have h1 : ∀ u, t.fibre u = ((s.issuedBy i).updAll (s.activeSet i) g).fibre u := by rw [ht]; exact fun _ => rfl
  have hc : t.cur = s.cur := by rw [ht]; exact issuedBy_cur s i
  have hcur : ∀ u ∈ s.cur, ∃ f ∈ t.fibres, f.uid = u := fun u hu => by
    rw [ht]; exact has_mapIf (p := fun f => (s.activeSet i).contains f.uid) (hh u hu) fun f _ => hg f
  have hgr : ((t.advanceCur len []).groups) = mapIf (fun y => y.is k) (fun y => y.setS n x) (s.issuedBy i).groups := by rw [ht]; rfl
  refine ⟨?_, ?_, ?_, ?_, ?_, ?_⟩
  · intro u hu
    have hm := active_mem h.found hu
    rw [advanceCur_fibre (hcur u hm), if_pos (by rw [hc]; exact hm), h1 u, fibre_updAll (hh u hm) hg, if_pos (by simpa using hu)]
  · intro u hu hn
    rw [issuedBy_cur] at hu
    rw [advanceCur_fibre (hcur u hu), if_pos (by rw [hc]; exact hu), h1 u, fibre_updAll (hh u hu) hg, if_neg (by simpa using hn)]
  · intro u hu
    rw [issuedBy_cur] at hu
    rw [advanceCur_other (by rw [hc]; exact hu), h1 u]
    exact fibre_updAll_other (fun ha => hu (active_mem h.found ha)) hg
  · have h2 : (t.advanceCur len []).group k = ((s.issuedBy i).setS k n x).group k := by
      unfold State.group State.group?; rw [hgr]; rfl
    rw [h2]
    have h3 := group_updGroup (s := s.issuedBy i) (i := k) (j := k) (g := fun y => y.setS n x) (fun _ _ => rfl) hk
    have h4 : ((s.issuedBy i).group k).is k = true := by
      obtain ⟨y, hy⟩ := Option.isSome_iff_exists.mp hk
      unfold State.group; rw [hy]
      unfold State.group? at hy
      simpa using List.find?_some hy
    rw [if_pos h4] at h3
    exact h3
  · intro j hj
    unfold State.group?
    rw [hgr, find_mapIf (p := fun y : Group => y.is k) (q := fun y : Group => y.is j) (g := fun y : Group => y.setS n x) fun y _ => rfl]
    cases hx : (s.issuedBy i).groups.find? fun y => y.is j with
    | none => rfl
    | some y =>
      have hy : y.is j = true := by simpa using List.find?_some hx
      have hn : y.is k = false := by
        cases hb : y.is k with
        | false => rfl
        | true =>
          simp only [Group.is, Bool.and_eq_true, beq_iff_eq] at hy hb
          obtain ⟨⟨a1, a2⟩, a3⟩ := hy
          obtain ⟨⟨b1, b2⟩, b3⟩ := hb
          refine absurd ?_ hj
          cases j; cases k; simp_all
      simp [hn]
  · rw [ht]; rfl

/-- An instruction that acts in each active fibre on its own registers. -/
theorem issue_each {g : State → Fibre → Except Trap Fibre} {g' : Fibre → Fibre} (h : Issues s i) (hu : ∀ f, (g' f).uid = f.uid)
    (hg : ∀ u ∈ s.activeSet i, g (s.issuedBy i) ((s.issuedBy i).fibre u) = .ok (g' ((s.issuedBy i).fibre u))) :
    ∃ t, s.issue i (eachFibre g) = .next t ∧ Retires (s.issuedBy i) t (s.activeSet i) i.len g' := by
  have hf : ∀ u ∈ s.activeSet i, ∃ f ∈ (s.issuedBy i).fibres, f.uid = u := fun u hu => issuedBy_has (h.found u (active_mem h.found hu))
  obtain ⟨t, he, h1, h2, h3, h4⟩ := eachFrom_ok (s := s.issuedBy i) hu (s.activeSet i) (s.issuedBy i) hf hf hg
  refine ⟨t.advanceCur i.len [], ?_, retires_of h h1 h2 h3 h4⟩
  refine issue_ok h ?_
  unfold eachFibre; rw [he]

end

end Sys2Proof.Machine
end

