-- ==== Sys2Proof/Laws/Bodies.lean ====
section
/-! SUPPORT. What the conditions around an instruction's effect come to where they are met: poison, ILLEGAL_OP, acknowledgements, branch
targets. -/

namespace Sys2Proof.Machine

section

variable {s : State} {us : List Nat} {b : Body}

/-- No poisoned register is read. -/
theorem notPoisoned_ok {uses : List RegUse} (h : ∀ u ∈ us, s.poisonUse (s.fibre u) uses = none) : notPoisoned uses b s us = b s us := by
  have : (us.findSome? fun u => s.poisonUse (s.fibre u) uses) = none := by rw [List.findSome?_eq_none_iff]; exact h
  unfold notPoisoned; rw [this]

/-- A poisoned register is read. -/
theorem notPoisoned_trap {uses : List RegUse} {t : Trap} (h : (us.findSome? fun u => s.poisonUse (s.fibre u) uses) = some t) :
    notPoisoned uses b s us = .error (.trap t) := by
  unfold notPoisoned; rw [h]

/-- No active fibre meets the condition of ILLEGAL_OP. -/
theorem illegalIf_ok {p : State → Fibre → Bool} (h : ∀ u ∈ us, p s (s.fibre u) = false) : illegalIf p b s us = b s us := by
  have : (us.any fun u => p s (s.fibre u)) = false := by rw [List.any_eq_false]; intro u hu; simp [h u hu]
  unfold illegalIf; rw [this]; rfl

/-- An active fibre meets the condition of ILLEGAL_OP. -/
theorem illegalIf_trap {p : State → Fibre → Bool} (h : ∃ u ∈ us, p s (s.fibre u) = true) : illegalIf p b s us = .error (.trap s.illegal) := by
  have : (us.any fun u => p s (s.fibre u)) = true := List.any_eq_true.mpr h
  unfold illegalIf; rw [this]; rfl

/-- Every earlier store has been acknowledged. -/
theorem afterAcks_ok {scope : Nat} (h : ∀ u ∈ us, (s.fibre u).releaseReady scope = true) :
    afterAcks scope b s us = b (us.foldl (fun s u => s.release (s.fibre u)) s) us := by
  have : (us.any fun u => !(s.fibre u).releaseReady scope) = false := by rw [List.any_eq_false]; intro u hu; simp [h u hu]
  unfold afterAcks; rw [this]; rfl

/-- A store is outstanding. -/
theorem afterAcks_wait {scope : Nat} (h : ∃ u ∈ us, (s.fibre u).releaseReady scope = false) :
    afterAcks scope b s us = .error (.wait .waitMemory .acks) := by
  have : (us.any fun u => !(s.fibre u).releaseReady scope) = true := by
    obtain ⟨u, hu, h⟩ := h; exact List.any_eq_true.mpr ⟨u, hu, by simp [h]⟩
  unfold afterAcks; rw [this]; rfl

/-- The queue is open. -/
theorem notClosed_ok {q : Nat} (h : ((s.pipeOf (s.fibre (us.headD 0))).queue q).closed = false) : notClosed q b s us = b s us := by
  unfold notClosed; rw [h]; rfl

/-- A branch to a register whose value can be taken. -/
theorem branchReg_ok {e : Ext} {uses : List RegUse} {link : Option Nat}
    (h : ∀ u ∈ us, s.poisonUse (s.fibre u) uses = none ∧ (s.srcA (s.fibre u) e true).val.toNat % 4 = 0) :
    branchReg e uses link s us = .ok (s.updAll us fun f =>
      (match link with | some d => f.setPair d ⟨f.pc + BitVec.ofNat 64 e.len, false⟩ | none => f).jump (s.srcA f e true).val, us) := by
  have hn : ∀ {g : Nat → Option Trap}, (∀ u ∈ us, g u = none) → us.findSome? g = none := fun hg => by
    rw [List.findSome?_eq_none_iff]; exact hg
  unfold branchReg
  rw [hn fun u hu => by simp [(h u hu).1, (h u hu).2]]
  all_goals (cases link <;> rfl)

end

end Sys2Proof.Machine
end

