-- ==== Sys2Proof/Laws/Memory.lean ====
section
/-! SUPPORT. The laws of memory: a read after a write, and the canonical form, which every memory operation keeps. -/

namespace Sys2Proof.Machine

theorem memory_reset_wf : Memory.wf State.reset.mem = true := rfl

/-- A byte write keeps the canonical form. -/
theorem setByte_wf {s : State} {k : Nat} {b : Byte} (h : Memory.wf s.mem) : Memory.wf (s.setByte k b).mem := mapWf_set h

/-- A byte write is read back. -/
theorem byte_setByte_same {s : State} {k : Nat} {b : Byte} (h : Memory.wf s.mem) : (s.setByte k b).byte k = b := mapGet_set_same h

/-- A byte write leaves every other byte alone. -/
theorem byte_setByte_other {s : State} {k a : Nat} {b : Byte} (hm : Memory.wf s.mem) (h : a ≠ k) : (s.setByte k b).byte a = s.byte a :=
  mapGet_set_other h hm

/-- Both at once. -/
theorem byte_setByte {s : State} {k a : Nat} {b : Byte} (h : Memory.wf s.mem) : (s.setByte k b).byte a = if a = k then b else s.byte a :=
  mapGet_setFrom h

/-- A write of several bytes keeps the canonical form. -/
theorem setBytes_wf {s : State} {k : Nat} {d : List Byte} (h : Memory.wf s.mem) : Memory.wf (s.setBytes k d).mem := by
  induction d generalizing s k with
  | nil => exact h
  | cons b r ih => exact ih (setByte_wf h)

/-- A write of a number keeps the canonical form. -/
theorem writeNat_wf {s : State} {k n x : Nat} (h : Memory.wf s.mem) : Memory.wf (s.writeNat k n x).mem := setBytes_wf h

/-- A write of several bytes changes nothing but memory. -/
theorem setBytes_frame {s : State} {k : Nat} {d : List Byte} : s.setBytes k d = { s with mem := (s.setBytes k d).mem } := by
  induction d generalizing s k with
  | nil => rfl
  | cons b r ih =>
    show (s.setByte k b).setBytes (k + 1) r = { s with mem := ((s.setByte k b).setBytes (k + 1) r).mem }
    rw [ih (s := s.setByte k b)]
    rfl

/-- What a byte reads as after a write of several bytes. -/
theorem byte_setBytes {s : State} {k a : Nat} {d : List Byte} (h : Memory.wf s.mem) :
    (s.setBytes k d).byte a = if k ≤ a ∧ a < k + d.length then d.getD (a - k) 0 else s.byte a := by
  induction d generalizing s k with
  | nil =>
    have : ¬ (k ≤ a ∧ a < k + ([] : List Byte).length) := by simp
    rw [if_neg this]; rfl
  | cons b r ih =>
    show ((s.setByte k b).setBytes (k + 1) r).byte a = _
    rw [ih (setByte_wf h), byte_setByte h]
    by_cases h1 : a = k
    · subst h1
      rw [if_neg (by omega), if_pos rfl, if_pos ⟨Nat.le_refl _, by simp⟩]
      simp
    · by_cases h2 : k + 1 ≤ a ∧ a < k + 1 + r.length
      · rw [if_pos h2, if_pos ⟨by omega, by simp only [List.length_cons]; omega⟩]
        have : a - k = (a - (k + 1)) + 1 := by omega
        rw [this, List.getD_cons_succ]
      · rw [if_neg h2, if_neg h1, if_neg (by simp only [List.length_cons]; omega)]

/-- Bytes outside a write read as before. -/
theorem byte_setBytes_other {s : State} {k a : Nat} {d : List Byte} (h : Memory.wf s.mem) (ha : a < k ∨ k + d.length ≤ a) :
    (s.setBytes k d).byte a = s.byte a := by
  rw [byte_setBytes h, if_neg (by omega)]

/-- Bytes that were written read back. -/
theorem bytes_setBytes_same {s : State} {k : Nat} {d : List Byte} (h : Memory.wf s.mem) : (s.setBytes k d).bytes k d.length = d := by
  have main : ∀ (d : List Byte) (t : State) (k : Nat), (∀ i, i < d.length → t.byte (k + i) = d.getD i 0) → t.bytes k d.length = d := by
    intro d
    induction d with
    | nil => intros; rfl
    | cons b r ih =>
      intro t k ht
      show t.byte k :: t.bytes (k + 1) r.length = b :: r
      have h0 := ht 0 (by simp)
      simp only [Nat.add_zero, List.getD_cons_zero] at h0
      rw [h0, ih t (k + 1)]
      intro i hi
      have := ht (i + 1) (by simp only [List.length_cons]; omega)
      rw [List.getD_cons_succ] at this
      rw [← this]
      congr 1
      omega
  apply main
  intro i hi
  rw [byte_setBytes h, if_pos ⟨by omega, by omega⟩]
  congr 1
  omega

end Sys2Proof.Machine
end

