-- ==== Sys2Proof/Laws/Access.lean ====
section
/-! SUPPORT. What surrounds a memory access: the write-back that an acquire brings about, the translations that are kept, the ways that versions take,
the waits of a release, of a COMMITTING tag and of a full journal. -/

namespace Sys2Proof.Machine

section

variable {s t : State} {us : List Nat}

/-- A byte lies under no released dirty word of an L1. -/
def State.unreleased (s : State) (a : Nat) : Prop :=
  ∀ w ∈ s.l1, w.dirty ≠ 0 → w.rls = true → a < copyKey w.tag w.key ∨ copyKey w.tag w.key + 4 ≤ a

/-- `t` follows `s` by write-backs of released words, as an acquire brings them about: the memories, the caches, the registry, the links and the TLBs
change, and no byte but those of released words. -/
structure Acquired (s t : State) : Prop where
  rest : t = { s with mem := t.mem, l1 := t.l1, registry := t.registry, hostLines := t.hostLines, hostHeld := t.hostHeld, poisoned := t.poisoned, tlb := t.tlb }
  reg : ∀ r ∈ t.registry, r ∈ s.registry
  words : ∀ w ∈ t.l1, w.dirty ≠ 0 → w ∈ s.l1
  wf : Memory.wf s.mem = true → Memory.wf t.mem = true
  byte : Memory.wf s.mem = true → ∀ a, s.unreleased a → t.byte a = s.byte a

theorem Acquired.refl (s : State) : Acquired s s := ⟨rfl, fun _ h => h, fun _ h _ => h, id, fun _ _ _ => rfl⟩

theorem Acquired.trans {u : State} (h : Acquired s t) (k : Acquired t u) : Acquired s u := by
  refine ⟨?_, fun r hr => h.reg r (k.reg r hr), fun w hw hd => h.words w (k.words w hw hd) hd, fun w => k.wf (h.wf w), fun w a ha => ?_⟩
  · have h1 := h.rest; have h2 := k.rest; rw [h2, h1]
  · exact (k.byte (h.wf w) a fun x hx hd hr => ha x (h.words x hx hd) hd hr).trans (h.byte w a ha)

theorem Acquired.foldl {α : Type} {g : State → α → State} (l : List α) (h : ∀ x t, Acquired t (g t x)) (s : State) : Acquired s (l.foldl g s) := by
  induction l generalizing s with
  | nil => exact Acquired.refl s
  | cons x r ih => exact (h x s).trans (ih _)

/-- A step that leaves memory, the L1s and the registry as they are. -/
theorem Acquired.of_quiet (hm : t.mem = s.mem) (hl : t.l1 = s.l1) (hr : t.registry = s.registry)
    (h : t = { s with hostLines := t.hostLines, hostHeld := t.hostHeld, poisoned := t.poisoned, tlb := t.tlb }) : Acquired s t := by
  refine ⟨?_, fun r k => hr ▸ k, fun w k _ => hl ▸ k, fun w => hm ▸ w, fun _ a _ => by unfold State.byte; rw [hm]⟩
  rw [hm, hl, hr]; exact h

/-- A mark changes the marks alone. -/
theorem markGranule_frame (s : State) (k : Nat) : s.markGranule k = { s with poisoned := (s.markGranule k).poisoned } := by
  unfold State.markGranule
  dsimp only
  generalize List.range _ = l
  induction l generalizing s with
  | nil => rfl
  | cons i r ih =>
    have h : s.setMemPoison (k / granuleSize k * granuleSize k + 4 * i) true =
        { s with poisoned := (s.setMemPoison (k / granuleSize k * granuleSize k + 4 * i) true).poisoned } := rfl
    rw [List.foldl_cons, ih, h]

/-- What the write-back of one word can do: it writes at most the word's four bytes. -/
theorem flushWord_frame (s : State) (w : L1Word) :
    s.flushWord w = { s with mem := (s.flushWord w).mem, hostLines := (s.flushWord w).hostLines, hostHeld := (s.flushWord w).hostHeld
                             poisoned := (s.flushWord w).poisoned } ∧
    (Memory.wf s.mem = true → Memory.wf (s.flushWord w).mem = true ∧
      ∀ a, (a < copyKey w.tag w.key ∨ copyKey w.tag w.key + 4 ≤ a) → (s.flushWord w).byte a = s.byte a) := by
  have key : ∀ (l : List Nat) (u : State), (∀ i ∈ l, i < 4) →
      let v := l.foldl (fun s i => if w.dirty.getLsbD i then s.setByte (copyKey w.tag w.key + i) (w.data.extractLsb' (8 * i) 8) else s) u
      v = { u with mem := v.mem } ∧ (Memory.wf u.mem = true → Memory.wf v.mem = true ∧
        ∀ a, (a < copyKey w.tag w.key ∨ copyKey w.tag w.key + 4 ≤ a) → v.byte a = u.byte a) := by
    intro l
    induction l with
    | nil => intro u _; exact ⟨rfl, fun h => ⟨h, fun _ _ => rfl⟩⟩
    | cons i r ih =>
      intro u hl
      have hi := hl i (by simp)
      obtain ⟨h1, h2⟩ := ih (if w.dirty.getLsbD i then u.setByte (copyKey w.tag w.key + i) (w.data.extractLsb' (8 * i) 8) else u) fun j hj => hl j (by simp [hj])
      refine ⟨?_, fun hw => ?_⟩
      · rw [List.foldl_cons, h1]; split <;> rfl
      · have hw' : Memory.wf (if w.dirty.getLsbD i then u.setByte (copyKey w.tag w.key + i) (w.data.extractLsb' (8 * i) 8) else u).mem = true := by
          split
          · exact setByte_wf hw
          · exact hw
        obtain ⟨h3, h4⟩ := h2 hw'
        refine ⟨h3, fun a ha => (h4 a ha).trans ?_⟩
        split
        · exact byte_setByte_other hw (by omega)
        · rfl
  have htouch : ∀ k, s.touchLine w.tag k = { s with hostLines := (s.touchLine w.tag k).hostLines, hostHeld := (s.touchLine w.tag k).hostHeld } := by
    intro k; unfold State.touchLine; repeat' split
    all_goals rfl
  obtain ⟨h1, h2⟩ := key (List.range 4) (s.touchLine w.tag w.key) fun i hi => List.mem_range.mp hi
  have hm : (s.touchLine w.tag w.key).mem = s.mem := by rw [htouch]
  have hb : ∀ a, (s.touchLine w.tag w.key).byte a = s.byte a := fun a => by unfold State.byte; rw [hm]
  have hf : s.flushWord w = if w.dirty ≠ 0 ∧ w.poison then ((List.range 4).foldl (fun s i => if w.dirty.getLsbD i then
      s.setByte (copyKey w.tag w.key + i) (w.data.extractLsb' (8 * i) 8) else s) (s.touchLine w.tag w.key)).markGranule (copyKey w.tag w.key)
    else (List.range 4).foldl (fun s i => if w.dirty.getLsbD i then
      s.setByte (copyKey w.tag w.key + i) (w.data.extractLsb' (8 * i) 8) else s) (s.touchLine w.tag w.key) := rfl
  obtain ⟨H, K, ht⟩ : ∃ H K, s.touchLine w.tag w.key = { s with hostLines := H, hostHeld := K } := ⟨_, _, htouch _⟩
  generalize (List.range 4).foldl (fun s i => if w.dirty.getLsbD i then
      s.setByte (copyKey w.tag w.key + i) (w.data.extractLsb' (8 * i) 8) else s) (s.touchLine w.tag w.key) = v at h1 h2 hf
  have hv : ∃ M P, s.flushWord w = { s with hostLines := H, hostHeld := K, mem := M, poisoned := P } ∧ M = v.mem := by
    rw [hf, h1, ht]
    split
    · exact ⟨_, _, markGranule_frame _ _, rfl⟩
    · exact ⟨_, _, rfl, rfl⟩
  obtain ⟨M, P, hv, rfl⟩ := hv
  refine ⟨by rw [hv], fun hw => ?_⟩
  obtain ⟨h3, h4⟩ := h2 (by rw [hm]; exact hw)
  rw [hv]
  exact ⟨h3, fun a ha => (h4 a ha).trans (hb a)⟩

/-- Promotion writes back released words (R79). -/
theorem acquired_promote (s : State) (core : Nat) : Acquired s (s.promote core) := by
  let q (w : L1Word) : Bool := w.dirty != 0 && (w.core == core && w.rls)
  have key : ∀ (l : List L1Word) (t : State), (∀ w ∈ l, w ∈ s.l1) →
      let v := l.foldl (fun t w => if q w then t.flushWord w else t) t
      v = { t with mem := v.mem, hostLines := v.hostLines, hostHeld := v.hostHeld, poisoned := v.poisoned } ∧
      (Memory.wf t.mem = true → Memory.wf v.mem = true ∧ ∀ a, s.unreleased a → v.byte a = t.byte a) := by
    intro l
    induction l with
    | nil => intro t _; exact ⟨rfl, fun h => ⟨h, fun _ _ => rfl⟩⟩
    | cons w r ih =>
      intro t hl
      obtain ⟨h1, h2⟩ := ih (if q w then t.flushWord w else t) fun x hx => hl x (by simp [hx])
      obtain ⟨h3, h4⟩ := flushWord_frame t w
      have hstep : (if q w then t.flushWord w else t) = { t with
          mem := (if q w then t.flushWord w else t).mem, hostLines := (if q w then t.flushWord w else t).hostLines
          hostHeld := (if q w then t.flushWord w else t).hostHeld, poisoned := (if q w then t.flushWord w else t).poisoned } := by
        split
        · exact h3
        · rfl
      refine ⟨?_, fun hw => ?_⟩
      · rw [List.foldl_cons, h1, hstep]
      · have h5 : Memory.wf (if q w then t.flushWord w else t).mem = true ∧
            ∀ a, s.unreleased a → (if q w then t.flushWord w else t).byte a = t.byte a := by
          by_cases hq : q w = true
          · rw [if_pos hq]
            refine ⟨(h4 hw).1, fun a ha => (h4 hw).2 a ?_⟩
            have hq' : w.dirty ≠ 0 ∧ w.core = core ∧ w.rls = true := by simpa [q] using hq
            exact ha w (hl w (by simp)) hq'.1 hq'.2.2
          · rw [if_neg hq]; exact ⟨hw, fun _ _ => rfl⟩
        exact ⟨(h2 h5.1).1, fun a ha => ((h2 h5.1).2 a ha).trans (h5.2 a ha)⟩
  obtain ⟨h1, h2⟩ := key s.l1 s fun _ h => h
  refine ⟨?_, fun r hr => ?_, fun w hw hd => ?_, fun hw => (h2 hw).1, fun hw a ha => (h2 hw).2 a ha⟩
  · have : ∃ M H K P L R, s.promote core = { s with mem := M, hostLines := H, hostHeld := K, poisoned := P, l1 := L, registry := R } := by
      unfold State.promote State.writeBack State.dropRegs
      dsimp only
      rw [show (s.l1.foldl (fun t w => if (w.dirty != 0 && (w.core == core && w.rls)) = true then t.flushWord w else t) s) =
        s.l1.foldl (fun t w => if q w then t.flushWord w else t) s from rfl, h1]
      exact ⟨_, _, _, _, _, _, rfl⟩
    obtain ⟨M, H, K, P, L, R, h⟩ := this
    rw [h]
  · have : r ∈ (s.l1.foldl (fun t w => if q w then t.flushWord w else t) s).registry := (List.mem_filter.mp hr).1
    rwa [h1] at this
  · have hl : (s.promote core).l1 = mapIf q (fun w => { w with dirty := 0, rls := false, foreign := false })
        (s.l1.foldl (fun t w => if q w then t.flushWord w else t) s).l1 := rfl
    rw [hl, h1] at hw
    obtain ⟨x, hx, rfl⟩ := List.mem_map.mp hw
    by_cases hq : q x = true
    · rw [if_pos hq] at hd; exact absurd rfl hd
    · rw [if_neg hq] at hd ⊢; exact hx

/-- A walk's acquire. -/
theorem acquired_promoteWalk (s : State) (part va : Nat) : Acquired s (s.promoteWalk part va) := by
  unfold State.promoteWalk
  dsimp only
  split
  · exact Acquired.refl s
  · exact Acquired.foldl _ (fun c t => acquired_promote t c) s

/-- Translations that are kept: the acquires of their walks, and the TLBs. -/
theorem acquired_keepWalks (f : Fibre) (ws : List Nat) (s : State) : Acquired s (s.keepWalks f ws) :=
  Acquired.foldl (g := fun s e => (s.promoteWalk f.part ((pteOf e).vpn * 4096)).fillTlb f.part f.onCore e) ws
    (fun _ t => (acquired_promoteWalk t _ _).trans (Acquired.of_quiet rfl rfl rfl rfl)) s

/-- What an acquire leaves alone. -/
theorem Acquired.same (h : Acquired s t) : t.fibres = s.fibres ∧ t.groups = s.groups ∧ t.pipes = s.pipes ∧ t.parts = s.parts ∧ t.tags = s.tags ∧
    t.cur = s.cur ∧ t.clock = s.clock := by
  rw [h.rest]; exact ⟨rfl, rfl, rfl, rfl, rfl, rfl, rfl⟩

@[simp] theorem keepWalks_fibre (f : Fibre) (ws : List Nat) (s : State) (u : Nat) : (s.keepWalks f ws).fibre u = s.fibre u := by
  unfold State.fibre; rw [(acquired_keepWalks f ws s).same.1]
@[simp] theorem keepWalks_tagRec (f : Fibre) (ws : List Nat) (s : State) (u : Nat) : (s.keepWalks f ws).tagRec u = s.tagRec u := by
  unfold State.tagRec; rw [(acquired_keepWalks f ws s).same.2.2.2.2.1]
@[simp] theorem keepWalks_pipeOf (f : Fibre) (ws : List Nat) (s : State) (g : Fibre) : (s.keepWalks f ws).pipeOf g = s.pipeOf g := by
  unfold State.pipeOf State.pipe State.pipe?; rw [(acquired_keepWalks f ws s).same.2.2.1]
/-- Kept translations leave every byte that no released word covers. -/
theorem keepWalks_byte (f : Fibre) (ws : List Nat) (s : State) {a : Nat} (hw : Memory.wf s.mem = true) (ha : s.unreleased a) :
    (s.keepWalks f ws).byte a = s.byte a := (acquired_keepWalks f ws s).byte hw a ha

/-- Room in a set is made by slots alone (R124). -/
theorem roomIn_frame {line : Nat} (h : s.roomIn line = some t) : t = { s with verLines := t.verLines } := by
  unfold State.roomIn at h
  dsimp only at h
  split at h
  · cases h; rfl
  · split at h
    · cases h
    · cases h; rfl

/-- A way for a version changes the table of version lines alone (R124). -/
theorem takeWay_frame {p v line : Nat} (h : s.takeWay p v line = some t) : t = { s with verLines := t.verLines } := by
  unfold State.takeWay at h
  split at h
  · cases h; rfl
  · obtain ⟨u, hu, h⟩ := Option.map_eq_some_iff.mp h
    have h1 := roomIn_frame hu
    rw [← h]
    split
    · exact h1
    · rw [h1]

/-- A way for a read changes the table of version lines alone (R123, R124). -/
theorem readWay_frame {v line : Nat} (h : s.readWay v line = some t) : t = { s with verLines := t.verLines } := by
  unfold State.readWay at h
  split at h
  · cases h; rfl
  · exact roomIn_frame h

theorem reserve_frame {f : Fibre} {ea : Nat} : ∀ (ps : List Piece) {s t : State}, s.reserve f ea ps = .ok t → t = { s with verLines := t.verLines } := by
  intro ps
  induction ps with
  | nil => intro s t h; cases h; rfl
  | cons p r ih =>
    intro s t h
    unfold State.reserve at h
    dsimp only at h
    split at h
    · exact ih h
    · split at h
      · cases h
      · rename_i s' hw
        have h1 := takeWay_frame hw
        have h2 := ih h
        rw [h2, h1]

/-- The ways of placed accesses change the table of version lines alone. -/
theorem reserveAll_frame : ∀ (ps : List Placed) {s t : State}, s.reserveAll ps = .ok t → t = { s with verLines := t.verLines } := by
  intro ps
  induction ps with
  | nil => intro s t h; cases h; rfl
  | cons p r ih =>
    intro s t h
    unfold State.reserveAll at h
    split at h
    · cases h
    · rename_i s' hw
      have h1 := reserve_frame _ hw
      have h2 := ih h
      rw [h2, h1]

/-- The checks pass: the translations are kept, and the instruction goes on. -/
theorem withAccesses_ok {uses : List RegUse} {accs : State → Fibre → List Acc} {multi : Bool}
    {k : State → List Nat → List Placed → Except Stop (State × List Nat)} {ps : List Placed} {ws : List Nat}
    (h : s.placeAll uses (accs s) multi us = .ok (ps, ws)) :
    withAccesses uses accs multi k s us = k (s.keepWalks (s.fibre (us.headD 0)) ws) us ps := by
  unfold withAccesses; rw [h]

/-- No tag of the active fibres is COMMITTING. -/
theorem notCommitting_ok {b : Body} (h : ∀ u ∈ us, (s.fibre u).tag = 0 ∨ (s.tagRec (s.fibre u).tag).state ≠ 2) : notCommitting b s us = b s us := by
  have : (us.find? fun u => (s.fibre u).tag != 0 && (s.tagRec (s.fibre u).tag).state == 2) = none := by
    rw [List.find?_eq_none]
    intro u hu
    rcases h u hu with h | h <;> simp [h]
  unfold notCommitting; rw [this]

/-- Without a release nothing is awaited. -/
theorem releasing_plain {e : Ext} {b : Body} (h : e.sync < 2) : releasing e b s us = b s us := by
  unfold releasing releaseWaits State.releaseAll
  rw [if_neg (by omega)]
  cases hb : b s us with
  | error st => simp only [hb]
  | ok x => simp only [hb, if_pos h]

/-- A release whose earlier stores are acknowledged. -/
theorem releasing_ok {e : Ext} {b : Body} {stay : List Nat} (h : ¬ e.sync < 2) (ha : ∀ u ∈ us, (s.fibre u).releaseReady e.scope = true)
    (hb : b s us = .ok (t, stay)) : releasing e b s us = .ok (us.foldl (fun s u => s.release (s.fibre u)) t, stay) := by
  have : (us.any fun u => !(s.fibre u).releaseReady e.scope) = false := by rw [List.any_eq_false]; intro u hu; simp [ha u hu]
  unfold releasing releaseWaits State.releaseAll
  simp only [this, Bool.false_eq_true, and_false, if_false, hb, h]

/-- Outside a replicated pipeline every fibre has room. -/
theorem noRoom_plain {need : Nat → Nat} : ∀ (us : List Nat) (n : Nat), (∀ u ∈ us, s.replicatedFibre (s.fibre u) = false) → s.noRoom need n us = [] := by
  intro us
  induction us with
  | nil => intro n _; rfl
  | cons u r ih =>
    intro n h
    unfold State.noRoom
    simp only [h u (by simp), Bool.false_and, Bool.false_eq_true, if_false]
    exact ih _ fun v hv => h v (by simp [hv])

/-- Outside a replicated pipeline no store waits for a journal. -/
theorem withJournal_plain {once : Bool} {e : Ext} {ps : List Placed} {k : State → Except Stop (State × List Nat)}
    (h : ∀ u ∈ us, s.replicatedFibre (s.fibre u) = false) : withJournal once e ps k s us = k s := by
  unfold withJournal
  simp only [noRoom_plain us 0 h, List.isEmpty_nil, if_true]

/-- What the issue leaves of a fibre of the wave. -/
theorem issuedBy_pipe {i : Issue} {u : Nat} (h : ∃ f ∈ s.fibres, f.uid = u) :
    ((s.issuedBy i).fibre u).part = (s.fibre u).part ∧ ((s.issuedBy i).fibre u).pipe = (s.fibre u).pipe := by
  have h1 : ((s.markIssued i).fibre u).part = (s.fibre u).part ∧ ((s.markIssued i).fibre u).pipe = (s.fibre u).pipe := by
    have : (s.markIssued i).fibre u = (s.updAll s.cur fun f => { f.issued s.clock (s.coreClock (s.coreOf f) (i.e.stall.toNat + 1)) i.e.stall.toNat with
        sb := (f.issued s.clock (s.coreClock (s.coreOf f) (i.e.stall.toNat + 1)) i.e.stall.toNat).sb ++ i.marks (s.wave.any fun f => f.guard i.e) f (s.coreClock (s.coreOf f)) }).fibre u := by
      unfold State.fibre
      simp only [State.markIssued, apply_ite State.fibres, State.updGroup_fibres, ite_self]
    rw [this, fibre_updAll (g := fun f : Fibre => { f.issued s.clock (s.coreClock (s.coreOf f) (i.e.stall.toNat + 1)) i.e.stall.toNat with
        sb := (f.issued s.clock (s.coreClock (s.coreOf f) (i.e.stall.toNat + 1)) i.e.stall.toNat).sb ++ i.marks (s.wave.any fun f => f.guard i.e) f (s.coreClock (s.coreOf f)) }) h fun f => rfl]
    split <;> exact ⟨rfl, rfl⟩
  have h0 : (s.issuedBy i).fibre u = ((s.markIssued i).passPoint i (s.activeSet i)).fibre u := by
    unfold State.issuedBy State.fibre; rw [readTokens_fibres]
  rw [h0]
  unfold State.passPoint
  split
  · obtain ⟨g, hg, he⟩ := markIssued_fibres s i
    have hh : ∃ f ∈ (s.markIssued i).fibres, f.uid = u := by
      rw [he]; exact has_mapIf (p := fun f => s.cur.contains f.uid) h fun f _ => hg f
    rw [fibre_updAll (g := fun f : Fibre => { f with sig := 0 }) hh fun f => rfl]
    split
    · exact h1
    · exact h1
  · exact h1

/-- The active fibres of an instruction that passes the shared checks are not replicated. -/
theorem issued_single {i : Issue} (h : Issues s i) : ∀ u ∈ s.activeSet i, (s.issuedBy i).replicatedFibre ((s.issuedBy i).fibre u) = false := by
  intro u hu
  have hm := active_mem h.found hu
  obtain ⟨h1, h2⟩ := issuedBy_pipe (i := i) (h.found u hm)
  have h3 := h.single (s.fibre u) (List.mem_map.mpr ⟨u, hm, rfl⟩)
  unfold State.replicatedFibre State.pipeOf State.pipe State.pipe?
  rw [h1, h2, issuedBy_pipes]
  unfold State.pipeOf State.pipe State.pipe? at h3
  simp [Pipe.replicated, h3]

end

end Sys2Proof.Machine
end

