-- ==== Sys2Proof/Laws/Encoding.lean ====
section
/-! SUPPORT. What the decoder's fields read from the words the encoder packs: each field of each layout is read back where it was put. -/

namespace Sys2Proof

section

variable (len : BitVec 2) (ma mi : BitVec 6) (mi3 : BitVec 3) (e : Ext) (b : Base) (br : BaseBranch) (k : Bool)

/-! ### The extended form (R159) -/

theorem len_packExt0 : lenField (packExt0 len ma mi e) = len.toNat := by
  unfold lenField packExt0
  congr 1
  repeat rw [BitVec.extractLsb'_append_eq_of_le (by omega)]
  simp

theorem major_packExt0 : majorField (packExt0 len ma mi e) = ma.toNat := by
  unfold majorField packExt0
  congr 1
  repeat rw [BitVec.extractLsb'_append_eq_of_le (by omega)]
  rw [BitVec.extractLsb'_append_eq_of_add_le (by omega)]
  simp

theorem minor_packExt0 : (packExt0 len ma mi e).extractLsb' 10 6 = mi := by
  unfold packExt0
  repeat rw [BitVec.extractLsb'_append_eq_of_le (by omega)]
  rw [BitVec.extractLsb'_append_eq_of_add_le (by omega)]
  simp

theorem ofCode_code (t : OpType) : OpType.ofCode t.code = t := by cases t <;> rfl

theorem getLsbD_ofBool_zero (x : Bool) : (BitVec.ofBool x).getLsbD 0 = x := by cases x <;> rfl

/-- Every field of the extended form is read back. -/
theorem unpack_packExt (l : Option DWord) : unpackExt (packExt0 len ma mi e) (packExt1 e) (packExt2 e) l = { e with lit := l } := by
  unfold unpackExt packExt0 packExt1 packExt2
  have h0 : (len ++ ma ++ e.stall ++ BitVec.ofBool e.gn ++ e.gp ++ mi ++ e.mod).extractLsb' 21 3 = e.stall := by
    repeat rw [BitVec.extractLsb'_append_eq_of_le (by omega)]
    rw [BitVec.extractLsb'_append_eq_of_add_le (by omega)]; simp
  have h1 : (len ++ ma ++ e.stall ++ BitVec.ofBool e.gn ++ e.gp ++ mi ++ e.mod).getLsbD 20 = e.gn := by
    simp only [BitVec.getLsbD_append]; simp [getLsbD_ofBool_zero]
  have h2 : (len ++ ma ++ e.stall ++ BitVec.ofBool e.gn ++ e.gp ++ mi ++ e.mod).extractLsb' 16 4 = e.gp := by
    repeat rw [BitVec.extractLsb'_append_eq_of_le (by omega)]
    rw [BitVec.extractLsb'_append_eq_of_add_le (by omega)]; simp
  have h3 : (len ++ ma ++ e.stall ++ BitVec.ofBool e.gn ++ e.gp ++ mi ++ e.mod).extractLsb' 0 10 = e.mod := by
    rw [BitVec.extractLsb'_append_eq_of_add_le (by omega)]; simp
  have a0 : (e.d ++ e.a ++ e.b ++ BitVec.ofBool e.dk ++ BitVec.ofBool e.ak ++ e.bk ++ BitVec.ofBool e.ck).extractLsb' 23 9 = e.d := by
    repeat rw [BitVec.extractLsb'_append_eq_of_le (by omega)]
    simp
  have a1 : (e.d ++ e.a ++ e.b ++ BitVec.ofBool e.dk ++ BitVec.ofBool e.ak ++ e.bk ++ BitVec.ofBool e.ck).extractLsb' 14 9 = e.a := by
    repeat rw [BitVec.extractLsb'_append_eq_of_le (by omega)]
    rw [BitVec.extractLsb'_append_eq_of_add_le (by omega)]; simp
  have a2 : (e.d ++ e.a ++ e.b ++ BitVec.ofBool e.dk ++ BitVec.ofBool e.ak ++ e.bk ++ BitVec.ofBool e.ck).extractLsb' 5 9 = e.b := by
    repeat rw [BitVec.extractLsb'_append_eq_of_le (by omega)]
    rw [BitVec.extractLsb'_append_eq_of_add_le (by omega)]; simp
  have a3 : (e.d ++ e.a ++ e.b ++ BitVec.ofBool e.dk ++ BitVec.ofBool e.ak ++ e.bk ++ BitVec.ofBool e.ck).getLsbD 4 = e.dk := by
    simp only [BitVec.getLsbD_append]; simp [getLsbD_ofBool_zero]
  have a4 : (e.d ++ e.a ++ e.b ++ BitVec.ofBool e.dk ++ BitVec.ofBool e.ak ++ e.bk ++ BitVec.ofBool e.ck).getLsbD 3 = e.ak := by
    simp only [BitVec.getLsbD_append]; simp [getLsbD_ofBool_zero]
  have a5 : (e.d ++ e.a ++ e.b ++ BitVec.ofBool e.dk ++ BitVec.ofBool e.ak ++ e.bk ++ BitVec.ofBool e.ck).extractLsb' 1 2 = e.bk := by
    rw [BitVec.extractLsb'_append_eq_of_le (by omega), BitVec.extractLsb'_append_eq_of_add_le (by omega)]; simp
  have a6 : (e.d ++ e.a ++ e.b ++ BitVec.ofBool e.dk ++ BitVec.ofBool e.ak ++ e.bk ++ BitVec.ofBool e.ck).getLsbD 0 = e.ck := by
    simp only [BitVec.getLsbD_append]; simp [getLsbD_ofBool_zero]
  have c0 : (e.c ++ e.ty.code ++ BitVec.ofBool e.pdv ++ e.pd ++ e.imm).extractLsb' 23 9 = e.c := by
    repeat rw [BitVec.extractLsb'_append_eq_of_le (by omega)]
    simp
  have c1 : (e.c ++ e.ty.code ++ BitVec.ofBool e.pdv ++ e.pd ++ e.imm).extractLsb' 19 4 = e.ty.code := by
    repeat rw [BitVec.extractLsb'_append_eq_of_le (by omega)]
    rw [BitVec.extractLsb'_append_eq_of_add_le (by omega)]; simp
  have c2 : (e.c ++ e.ty.code ++ BitVec.ofBool e.pdv ++ e.pd ++ e.imm).getLsbD 18 = e.pdv := by
    simp only [BitVec.getLsbD_append]; simp [getLsbD_ofBool_zero]
  have c3 : (e.c ++ e.ty.code ++ BitVec.ofBool e.pdv ++ e.pd ++ e.imm).extractLsb' 14 4 = e.pd := by
    repeat rw [BitVec.extractLsb'_append_eq_of_le (by omega)]
    rw [BitVec.extractLsb'_append_eq_of_add_le (by omega)]; simp
  have c4 : (e.c ++ e.ty.code ++ BitVec.ofBool e.pdv ++ e.pd ++ e.imm).extractLsb' 0 14 = e.imm := by
    rw [BitVec.extractLsb'_append_eq_of_add_le (by omega)]; simp
  rw [h0, h1, h2, h3, a0, a1, a2, a3, a4, a5, a6, c0, c1, c2, c3, c4, ofCode_code]

/-! ### Base words (R155, R157, R158) -/

theorem len_packBase : lenField (packBase len ma mi3 b) = len.toNat := by
  unfold lenField packBase
  congr 1
  repeat rw [BitVec.extractLsb'_append_eq_of_le (by omega)]
  simp

theorem major_packBase : majorField (packBase len ma mi3 b) = ma.toNat := by
  unfold majorField packBase
  congr 1
  repeat rw [BitVec.extractLsb'_append_eq_of_le (by omega)]
  rw [BitVec.extractLsb'_append_eq_of_add_le (by omega)]
  simp

theorem minor_packBase : (packBase len ma mi3 b).extractLsb' 14 3 = mi3 := by
  unfold packBase
  repeat rw [BitVec.extractLsb'_append_eq_of_le (by omega)]
  rw [BitVec.extractLsb'_append_eq_of_add_le (by omega)]
  simp

/-- Every field of a base word is read back. -/
theorem unpack_packBase : unpackBase (packBase len ma mi3 b) = b := by
  unfold unpackBase packBase
  have h0 : (len ++ ma ++ b.stall ++ BitVec.ofBool b.gn ++ b.gp ++ mi3 ++ b.d ++ b.a).extractLsb' 21 3 = b.stall := by
    repeat rw [BitVec.extractLsb'_append_eq_of_le (by omega)]
    rw [BitVec.extractLsb'_append_eq_of_add_le (by omega)]; simp
  have h1 : (len ++ ma ++ b.stall ++ BitVec.ofBool b.gn ++ b.gp ++ mi3 ++ b.d ++ b.a).getLsbD 20 = b.gn := by
    simp only [BitVec.getLsbD_append]; simp [getLsbD_ofBool_zero]
  have h2 : (len ++ ma ++ b.stall ++ BitVec.ofBool b.gn ++ b.gp ++ mi3 ++ b.d ++ b.a).extractLsb' 17 3 = b.gp := by
    repeat rw [BitVec.extractLsb'_append_eq_of_le (by omega)]
    rw [BitVec.extractLsb'_append_eq_of_add_le (by omega)]; simp
  have h3 : (len ++ ma ++ b.stall ++ BitVec.ofBool b.gn ++ b.gp ++ mi3 ++ b.d ++ b.a).extractLsb' 7 7 = b.d := by
    rw [BitVec.extractLsb'_append_eq_of_le (by omega), BitVec.extractLsb'_append_eq_of_add_le (by omega)]; simp
  have h4 : (len ++ ma ++ b.stall ++ BitVec.ofBool b.gn ++ b.gp ++ mi3 ++ b.d ++ b.a).extractLsb' 0 7 = b.a := by
    rw [BitVec.extractLsb'_append_eq_of_add_le (by omega)]; simp
  rw [h0, h1, h2, h3, h4]

theorem len_packBranch : lenField (packBranch len k br) = len.toNat := by
  unfold lenField packBranch
  congr 1
  repeat rw [BitVec.extractLsb'_append_eq_of_le (by omega)]
  simp

theorem major_packBranch : majorField (packBranch len k br) = 1 := by
  have h : (packBranch len k br).extractLsb' 24 6 = 1#6 := by
    unfold packBranch
    repeat rw [BitVec.extractLsb'_append_eq_of_le (by omega)]
    rw [BitVec.extractLsb'_append_eq_of_add_le (by omega)]
    simp
  unfold majorField
  rw [h]; rfl

theorem link_packBranch : (packBranch len k br).getLsbD 16 = k := by
  unfold packBranch
  simp only [BitVec.getLsbD_append]; simp [getLsbD_ofBool_zero]

/-- Every field of a branch word is read back. -/
theorem unpack_packBranch : unpackBranch (packBranch len k br) = br := by
  unfold unpackBranch packBranch
  have h0 : (len ++ 1#6 ++ br.stall ++ BitVec.ofBool br.gn ++ br.gp ++ BitVec.ofBool k ++ br.off).extractLsb' 21 3 = br.stall := by
    repeat rw [BitVec.extractLsb'_append_eq_of_le (by omega)]
    rw [BitVec.extractLsb'_append_eq_of_add_le (by omega)]; simp
  have h1 : (len ++ 1#6 ++ br.stall ++ BitVec.ofBool br.gn ++ br.gp ++ BitVec.ofBool k ++ br.off).getLsbD 20 = br.gn := by
    simp only [BitVec.getLsbD_append]; simp [getLsbD_ofBool_zero]
  have h2 : (len ++ 1#6 ++ br.stall ++ BitVec.ofBool br.gn ++ br.gp ++ BitVec.ofBool k ++ br.off).extractLsb' 17 3 = br.gp := by
    repeat rw [BitVec.extractLsb'_append_eq_of_le (by omega)]
    rw [BitVec.extractLsb'_append_eq_of_add_le (by omega)]; simp
  have h3 : (len ++ 1#6 ++ br.stall ++ BitVec.ofBool br.gn ++ br.gp ++ BitVec.ofBool k ++ br.off).extractLsb' 0 16 = br.off := by
    rw [BitVec.extractLsb'_append_eq_of_add_le (by omega)]; simp
  rw [h0, h1, h2, h3]

/-- A literal is read back. -/
theorem litOf_litWords (l : DWord) : litOf (l.extractLsb' 0 32) (l.extractLsb' 32 32) = l := by
  unfold litOf
  ext i hi
  rw [BitVec.getElem_append]
  split
  · rw [BitVec.getElem_extractLsb', Nat.zero_add, BitVec.getLsbD_eq_getElem]
  · simp only [BitVec.getElem_extractLsb', BitVec.getLsbD_eq_getElem (show 32 + (i - 32) < 64 by omega)]
    congr 1
    omega

end

end Sys2Proof
end

