-- ==== Sys2Proof/Laws/Exec.lean ====
section
/-! SUPPORT. Every instruction acts through the shared issue of R170. -/

namespace Sys2Proof.Machine

/-- Two issues present the same to the shared checks. -/
def Issue.same (i j : Issue) : Prop := i.major = j.major ∧ i.minor = j.minor ∧ i.e = j.e ∧ i.len = j.len ∧ i.priv = j.priv

theorem gate_same {s : State} {i j : Issue} (h : i.same j) : s.gate i = s.gate j := by
  obtain ⟨h1, h2, h3, h4, h5⟩ := h
  unfold State.gate predsOf Issue.uses
  rw [h1, h2, h3, h5]

/-- An instruction acts through the shared issue, and presents to it what `Instr.issue?` says. -/
theorem exec_issues {x : Instr} {i : Issue} (h : x.issue? = some i) (s : State) :
    ∃ j body, i.same j ∧ exec x s = s.issue j body := by
  cases x with
  | braExt x => cases x <;> (cases h; refine ⟨_, _, ?_, rfl⟩; exact ⟨rfl, rfl, rfl, rfl, rfl⟩)
  | callExt x => cases x <;> (cases h; refine ⟨_, _, ?_, rfl⟩; exact ⟨rfl, rfl, rfl, rfl, rfl⟩)
  | _ => first
    | (cases h; done)
    | (cases Option.some.inj h; refine ⟨_, _, ?_, rfl⟩; exact ⟨rfl, rfl, rfl, rfl, rfl⟩)

end Sys2Proof.Machine
end

