-- ==== Sys2Proof/Laws/PerInstr.lean ====
section
/-! SUPPORT. A law of every instruction, constructor by constructor: the length by which the PC advances (R156) is that of its words. -/

namespace Sys2Proof.Laws.Length

open Sys2Proof Sys2Proof.Machine

/-- The length an instruction issues with is that of the words it encodes to; an event has no words and issues nothing. -/
def Statement (x : Instr) : Prop := ∀ i, x.issue? = some i → i.len = 4 * (encode x).length

theorem encodeExt_length (ma mi : BitVec 6) (e : Ext) : e.len = 4 * (encodeExt ma mi e).length := by
  unfold Ext.len encodeExt
  cases e.lit <;> rfl

theorem encodeX_length (ma mi : BitVec 6) (x : XForm) : x.len = 4 * (encodeX ma mi x).length := by
  cases x with
  | ext e => exact encodeExt_length ma mi e
  | baseLit b l => rfl

theorem ofSome {x : Instr} {i : Issue} (h : x.issue? = some i) (hl : i.len = 4 * (encode x).length) : Statement x := by
  intro j hj; rw [h] at hj; cases hj; exact hl

theorem ofNone {x : Instr} (h : x.issue? = none) : Statement x := by
  intro j hj; rw [h] at hj; cases hj

theorem nop (stall : BitVec 3) : Statement (.nop stall) := ofSome rfl rfl
theorem rep (r : RepWord) : Statement (.rep r) := ofSome rfl rfl
theorem braBase (b : BaseBranch) : Statement (.braBase b) := ofSome rfl rfl
theorem braExt (x : BranchForm) : Statement (.braExt x) := by
  cases x with
  | ext e => exact ofSome rfl (encodeExt_length ..)
  | baseLit b l => exact ofSome rfl rfl
theorem callBase (b : BaseBranch) : Statement (.callBase b) := ofSome rfl rfl
theorem callExt (x : BranchForm) : Statement (.callExt x) := by
  cases x with
  | ext e => exact ofSome rfl (encodeExt_length ..)
  | baseLit b l => exact ofSome rfl rfl
theorem brx (e : Ext) : Statement (.brx e) := ofSome rfl (encodeExt_length ..)
theorem callx (e : Ext) : Statement (.callx e) := ofSome rfl (encodeExt_length ..)
theorem ret (e : Ext) : Statement (.ret e) := ofSome rfl (encodeExt_length ..)
theorem fendBase (b : Base) : Statement (.fendBase b) := ofSome rfl rfl
theorem fendExt (e : Ext) : Statement (.fendExt e) := ofSome rfl (encodeExt_length ..)
theorem yieldBase (b : Base) : Statement (.yieldBase b) := ofSome rfl rfl
theorem yieldExt (e : Ext) : Statement (.yieldExt e) := ofSome rfl (encodeExt_length ..)
theorem yieldp (e : Ext) : Statement (.yieldp e) := ofSome rfl (encodeExt_length ..)
theorem sleep (e : Ext) : Statement (.sleep e) := ofSome rfl (encodeExt_length ..)
theorem wake (e : Ext) : Statement (.wake e) := ofSome rfl (encodeExt_length ..)
theorem spawn (e : Ext) : Statement (.spawn e) := ofSome rfl (encodeExt_length ..)
theorem repack (e : Ext) : Statement (.repack e) := ofSome rfl (encodeExt_length ..)
theorem gnew (e : Ext) : Statement (.gnew e) := ofSome rfl (encodeExt_length ..)
theorem gjoin (e : Ext) : Statement (.gjoin e) := ofSome rfl (encodeExt_length ..)
theorem gleave (e : Ext) : Statement (.gleave e) := ofSome rfl (encodeExt_length ..)
theorem gfree (e : Ext) : Statement (.gfree e) := ofSome rfl (encodeExt_length ..)
theorem gbar (e : Ext) : Statement (.gbar e) := ofSome rfl (encodeExt_length ..)
theorem garrive (e : Ext) : Statement (.garrive e) := ofSome rfl (encodeExt_length ..)
theorem gwait (e : Ext) : Statement (.gwait e) := ofSome rfl (encodeExt_length ..)
theorem cvset (e : Ext) : Statement (.cvset e) := ofSome rfl (encodeExt_length ..)
theorem cvsign (e : Ext) : Statement (.cvsign e) := ofSome rfl (encodeExt_length ..)
theorem cvwait (e : Ext) : Statement (.cvwait e) := ofSome rfl (encodeExt_length ..)
theorem qpush (e : Ext) : Statement (.qpush e) := ofSome rfl (encodeExt_length ..)
theorem qpop (e : Ext) : Statement (.qpop e) := ofSome rfl (encodeExt_length ..)
theorem qpeek (e : Ext) : Statement (.qpeek e) := ofSome rfl (encodeExt_length ..)
theorem qclose (e : Ext) : Statement (.qclose e) := ofSome rfl (encodeExt_length ..)
theorem launch (e : Ext) : Statement (.launch e) := ofSome rfl (encodeExt_length ..)
theorem lwait (e : Ext) : Statement (.lwait e) := ofSome rfl (encodeExt_length ..)
theorem getsr (e : Ext) : Statement (.getsr e) := ofSome rfl (encodeExt_length ..)
theorem setsr (e : Ext) : Statement (.setsr e) := ofSome rfl (encodeExt_length ..)
theorem trap (e : Ext) : Statement (.trap e) := ofSome rfl (encodeExt_length ..)
theorem syscall (e : Ext) : Statement (.syscall e) := ofSome rfl (encodeExt_length ..)
theorem eretRetry (e : Ext) : Statement (.eretRetry e) := ofSome rfl (encodeExt_length ..)
theorem eretSkip (e : Ext) : Statement (.eretSkip e) := ofSome rfl (encodeExt_length ..)
theorem eretEnd (e : Ext) : Statement (.eretEnd e) := ofSome rfl (encodeExt_length ..)
theorem bkpt (e : Ext) : Statement (.bkpt e) := ofSome rfl (encodeExt_length ..)
theorem halt (e : Ext) : Statement (.halt e) := ofSome rfl (encodeExt_length ..)
theorem tfence (e : Ext) : Statement (.tfence e) := ofSome rfl (encodeExt_length ..)
theorem preqSave (e : Ext) : Statement (.preqSave e) := ofSome rfl (encodeExt_length ..)
theorem preqResume (e : Ext) : Statement (.preqResume e) := ofSome rfl (encodeExt_length ..)
theorem preqStat (e : Ext) : Statement (.preqStat e) := ofSome rfl (encodeExt_length ..)
theorem migrReq (e : Ext) : Statement (.migrReq e) := ofSome rfl (encodeExt_length ..)
theorem migrStat (e : Ext) : Statement (.migrStat e) := ofSome rfl (encodeExt_length ..)
theorem iaddBase (b : Base) : Statement (.iaddBase b) := ofSome rfl rfl
theorem iaddExt (x : XForm) : Statement (.iaddExt x) := ofSome rfl (encodeX_length ..)
theorem isubBase (b : Base) : Statement (.isubBase b) := ofSome rfl rfl
theorem isubExt (x : XForm) : Statement (.isubExt x) := ofSome rfl (encodeX_length ..)
theorem iminBase (b : Base) : Statement (.iminBase b) := ofSome rfl rfl
theorem iminExt (x : XForm) : Statement (.iminExt x) := ofSome rfl (encodeX_length ..)
theorem imaxBase (b : Base) : Statement (.imaxBase b) := ofSome rfl rfl
theorem imaxExt (x : XForm) : Statement (.imaxExt x) := ofSome rfl (encodeX_length ..)
theorem iabsBase (b : Base) : Statement (.iabsBase b) := ofSome rfl rfl
theorem iabsExt (x : XForm) : Statement (.iabsExt x) := ofSome rfl (encodeX_length ..)
theorem inegBase (b : Base) : Statement (.inegBase b) := ofSome rfl rfl
theorem inegExt (x : XForm) : Statement (.inegExt x) := ofSome rfl (encodeX_length ..)
theorem movBase (b : Base) : Statement (.movBase b) := ofSome rfl rfl
theorem movExt (x : XForm) : Statement (.movExt x) := ofSome rfl (encodeX_length ..)
theorem movi (e : Ext) : Statement (.movi e) := ofSome rfl (encodeExt_length ..)
theorem iadd3 (e : Ext) : Statement (.iadd3 e) := ofSome rfl (encodeExt_length ..)
theorem lea (e : Ext) : Statement (.lea e) := ofSome rfl (encodeExt_length ..)
theorem sel (e : Ext) : Statement (.sel e) := ofSome rfl (encodeExt_length ..)
theorem isetp (e : Ext) : Statement (.isetp e) := ofSome rfl (encodeExt_length ..)
theorem imulBase (b : Base) : Statement (.imulBase b) := ofSome rfl rfl
theorem imulExt (x : XForm) : Statement (.imulExt x) := ofSome rfl (encodeX_length ..)
theorem imulhBase (b : Base) : Statement (.imulhBase b) := ofSome rfl rfl
theorem imulhExt (x : XForm) : Statement (.imulhExt x) := ofSome rfl (encodeX_length ..)
theorem imad (e : Ext) : Statement (.imad e) := ofSome rfl (encodeExt_length ..)
theorem imadw (e : Ext) : Statement (.imadw e) := ofSome rfl (encodeExt_length ..)
theorem dp4 (e : Ext) : Statement (.dp4 e) := ofSome rfl (encodeExt_length ..)
theorem andBase (b : Base) : Statement (.andBase b) := ofSome rfl rfl
theorem andExt (x : XForm) : Statement (.andExt x) := ofSome rfl (encodeX_length ..)
theorem orBase (b : Base) : Statement (.orBase b) := ofSome rfl rfl
theorem orExt (x : XForm) : Statement (.orExt x) := ofSome rfl (encodeX_length ..)
theorem xorBase (b : Base) : Statement (.xorBase b) := ofSome rfl rfl
theorem xorExt (x : XForm) : Statement (.xorExt x) := ofSome rfl (encodeX_length ..)
theorem notBase (b : Base) : Statement (.notBase b) := ofSome rfl rfl
theorem notExt (x : XForm) : Statement (.notExt x) := ofSome rfl (encodeX_length ..)
theorem blut (e : Ext) : Statement (.blut e) := ofSome rfl (encodeExt_length ..)
theorem shlBase (b : Base) : Statement (.shlBase b) := ofSome rfl rfl
theorem shlExt (x : XForm) : Statement (.shlExt x) := ofSome rfl (encodeX_length ..)
theorem shrBase (b : Base) : Statement (.shrBase b) := ofSome rfl rfl
theorem shrExt (x : XForm) : Statement (.shrExt x) := ofSome rfl (encodeX_length ..)
theorem sarBase (b : Base) : Statement (.sarBase b) := ofSome rfl rfl
theorem sarExt (x : XForm) : Statement (.sarExt x) := ofSome rfl (encodeX_length ..)
theorem rolBase (b : Base) : Statement (.rolBase b) := ofSome rfl rfl
theorem rolExt (x : XForm) : Statement (.rolExt x) := ofSome rfl (encodeX_length ..)
theorem fshl (e : Ext) : Statement (.fshl e) := ofSome rfl (encodeExt_length ..)
theorem clzBase (b : Base) : Statement (.clzBase b) := ofSome rfl rfl
theorem clzExt (x : XForm) : Statement (.clzExt x) := ofSome rfl (encodeX_length ..)
theorem ctzBase (b : Base) : Statement (.ctzBase b) := ofSome rfl rfl
theorem ctzExt (x : XForm) : Statement (.ctzExt x) := ofSome rfl (encodeX_length ..)
theorem ffsBase (b : Base) : Statement (.ffsBase b) := ofSome rfl rfl
theorem ffsExt (x : XForm) : Statement (.ffsExt x) := ofSome rfl (encodeX_length ..)
theorem popcBase (b : Base) : Statement (.popcBase b) := ofSome rfl rfl
theorem popcExt (x : XForm) : Statement (.popcExt x) := ofSome rfl (encodeX_length ..)
theorem brevBase (b : Base) : Statement (.brevBase b) := ofSome rfl rfl
theorem brevExt (x : XForm) : Statement (.brevExt x) := ofSome rfl (encodeX_length ..)
theorem bfe (e : Ext) : Statement (.bfe e) := ofSome rfl (encodeExt_length ..)
theorem bfi (e : Ext) : Statement (.bfi e) := ofSome rfl (encodeExt_length ..)
theorem prmt (e : Ext) : Statement (.prmt e) := ofSome rfl (encodeExt_length ..)
theorem saddBase (b : Base) : Statement (.saddBase b) := ofSome rfl rfl
theorem saddExt (x : XForm) : Statement (.saddExt x) := ofSome rfl (encodeX_length ..)
theorem ssubBase (b : Base) : Statement (.ssubBase b) := ofSome rfl rfl
theorem ssubExt (x : XForm) : Statement (.ssubExt x) := ofSome rfl (encodeX_length ..)
theorem smulBase (b : Base) : Statement (.smulBase b) := ofSome rfl rfl
theorem smulExt (x : XForm) : Statement (.smulExt x) := ofSome rfl (encodeX_length ..)
theorem sminBase (b : Base) : Statement (.sminBase b) := ofSome rfl rfl
theorem sminExt (x : XForm) : Statement (.sminExt x) := ofSome rfl (encodeX_length ..)
theorem smaxBase (b : Base) : Statement (.smaxBase b) := ofSome rfl rfl
theorem smaxExt (x : XForm) : Statement (.smaxExt x) := ofSome rfl (encodeX_length ..)
theorem smovBase (b : Base) : Statement (.smovBase b) := ofSome rfl rfl
theorem smovExt (x : XForm) : Statement (.smovExt x) := ofSome rfl (encodeX_length ..)
theorem smad (e : Ext) : Statement (.smad e) := ofSome rfl (encodeExt_length ..)
theorem smovi (e : Ext) : Statement (.smovi e) := ofSome rfl (encodeExt_length ..)
theorem ssetp (e : Ext) : Statement (.ssetp e) := ofSome rfl (encodeExt_length ..)
theorem ssel (e : Ext) : Statement (.ssel e) := ofSome rfl (encodeExt_length ..)
theorem slea (e : Ext) : Statement (.slea e) := ofSome rfl (encodeExt_length ..)
theorem sandBase (b : Base) : Statement (.sandBase b) := ofSome rfl rfl
theorem sandExt (x : XForm) : Statement (.sandExt x) := ofSome rfl (encodeX_length ..)
theorem sorBase (b : Base) : Statement (.sorBase b) := ofSome rfl rfl
theorem sorExt (x : XForm) : Statement (.sorExt x) := ofSome rfl (encodeX_length ..)
theorem sxorBase (b : Base) : Statement (.sxorBase b) := ofSome rfl rfl
theorem sxorExt (x : XForm) : Statement (.sxorExt x) := ofSome rfl (encodeX_length ..)
theorem sshlBase (b : Base) : Statement (.sshlBase b) := ofSome rfl rfl
theorem sshlExt (x : XForm) : Statement (.sshlExt x) := ofSome rfl (encodeX_length ..)
theorem sshrBase (b : Base) : Statement (.sshrBase b) := ofSome rfl rfl
theorem sshrExt (x : XForm) : Statement (.sshrExt x) := ofSome rfl (encodeX_length ..)
theorem ssarBase (b : Base) : Statement (.ssarBase b) := ofSome rfl rfl
theorem ssarExt (x : XForm) : Statement (.ssarExt x) := ofSome rfl (encodeX_length ..)
theorem sld (e : Ext) : Statement (.sld e) := ofSome rfl (encodeExt_length ..)
theorem sst (e : Ext) : Statement (.sst e) := ofSome rfl (encodeExt_length ..)
theorem shfl (e : Ext) : Statement (.shfl e) := ofSome rfl (encodeExt_length ..)
theorem vote (e : Ext) : Statement (.vote e) := ofSome rfl (encodeExt_length ..)
theorem ballot (e : Ext) : Statement (.ballot e) := ofSome rfl (encodeExt_length ..)
theorem matchLanes (e : Ext) : Statement (.matchLanes e) := ofSome rfl (encodeExt_length ..)
theorem rdlane (e : Ext) : Statement (.rdlane e) := ofSome rfl (encodeExt_length ..)
theorem wrlane (e : Ext) : Statement (.wrlane e) := ofSome rfl (encodeExt_length ..)
theorem reduce (e : Ext) : Statement (.reduce e) := ofSome rfl (encodeExt_length ..)
theorem scan (e : Ext) : Statement (.scan e) := ofSome rfl (encodeExt_length ..)
theorem faddBase (b : Base) : Statement (.faddBase b) := ofSome rfl rfl
theorem faddExt (x : XForm) : Statement (.faddExt x) := ofSome rfl (encodeX_length ..)
theorem fsubBase (b : Base) : Statement (.fsubBase b) := ofSome rfl rfl
theorem fsubExt (x : XForm) : Statement (.fsubExt x) := ofSome rfl (encodeX_length ..)
theorem fmulBase (b : Base) : Statement (.fmulBase b) := ofSome rfl rfl
theorem fmulExt (x : XForm) : Statement (.fmulExt x) := ofSome rfl (encodeX_length ..)
theorem fminBase (b : Base) : Statement (.fminBase b) := ofSome rfl rfl
theorem fminExt (x : XForm) : Statement (.fminExt x) := ofSome rfl (encodeX_length ..)
theorem fmaxBase (b : Base) : Statement (.fmaxBase b) := ofSome rfl rfl
theorem fmaxExt (x : XForm) : Statement (.fmaxExt x) := ofSome rfl (encodeX_length ..)
theorem ffma (e : Ext) : Statement (.ffma e) := ofSome rfl (encodeExt_length ..)
theorem fsetp (e : Ext) : Statement (.fsetp e) := ofSome rfl (encodeExt_length ..)
theorem fclass (e : Ext) : Statement (.fclass e) := ofSome rfl (encodeExt_length ..)
theorem frnd (e : Ext) : Statement (.frnd e) := ofSome rfl (encodeExt_length ..)
theorem fscale (e : Ext) : Statement (.fscale e) := ofSome rfl (encodeExt_length ..)
theorem hadd2Base (b : Base) : Statement (.hadd2Base b) := ofSome rfl rfl
theorem hadd2Ext (x : XForm) : Statement (.hadd2Ext x) := ofSome rfl (encodeX_length ..)
theorem hmul2Base (b : Base) : Statement (.hmul2Base b) := ofSome rfl rfl
theorem hmul2Ext (x : XForm) : Statement (.hmul2Ext x) := ofSome rfl (encodeX_length ..)
theorem hmin2Base (b : Base) : Statement (.hmin2Base b) := ofSome rfl rfl
theorem hmin2Ext (x : XForm) : Statement (.hmin2Ext x) := ofSome rfl (encodeX_length ..)
theorem hmax2Base (b : Base) : Statement (.hmax2Base b) := ofSome rfl rfl
theorem hmax2Ext (x : XForm) : Statement (.hmax2Ext x) := ofSome rfl (encodeX_length ..)
theorem hfma2 (e : Ext) : Statement (.hfma2 e) := ofSome rfl (encodeExt_length ..)
theorem fdot2 (e : Ext) : Statement (.fdot2 e) := ofSome rfl (encodeExt_length ..)
theorem rcpBase (b : Base) : Statement (.rcpBase b) := ofSome rfl rfl
theorem rcpExt (x : XForm) : Statement (.rcpExt x) := ofSome rfl (encodeX_length ..)
theorem rsqBase (b : Base) : Statement (.rsqBase b) := ofSome rfl rfl
theorem rsqExt (x : XForm) : Statement (.rsqExt x) := ofSome rfl (encodeX_length ..)
theorem sqrtBase (b : Base) : Statement (.sqrtBase b) := ofSome rfl rfl
theorem sqrtExt (x : XForm) : Statement (.sqrtExt x) := ofSome rfl (encodeX_length ..)
theorem ex2Base (b : Base) : Statement (.ex2Base b) := ofSome rfl rfl
theorem ex2Ext (x : XForm) : Statement (.ex2Ext x) := ofSome rfl (encodeX_length ..)
theorem lg2Base (b : Base) : Statement (.lg2Base b) := ofSome rfl rfl
theorem lg2Ext (x : XForm) : Statement (.lg2Ext x) := ofSome rfl (encodeX_length ..)
theorem sinBase (b : Base) : Statement (.sinBase b) := ofSome rfl rfl
theorem sinExt (x : XForm) : Statement (.sinExt x) := ofSome rfl (encodeX_length ..)
theorem cosBase (b : Base) : Statement (.cosBase b) := ofSome rfl rfl
theorem cosExt (x : XForm) : Statement (.cosExt x) := ofSome rfl (encodeX_length ..)
theorem tanhBase (b : Base) : Statement (.tanhBase b) := ofSome rfl rfl
theorem tanhExt (x : XForm) : Statement (.tanhExt x) := ofSome rfl (encodeX_length ..)
theorem fcvt (e : Ext) : Statement (.fcvt e) := ofSome rfl (encodeExt_length ..)
theorem f2i (e : Ext) : Statement (.f2i e) := ofSome rfl (encodeExt_length ..)
theorem i2f (e : Ext) : Statement (.i2f e) := ofSome rfl (encodeExt_length ..)
theorem fpack (e : Ext) : Statement (.fpack e) := ofSome rfl (encodeExt_length ..)
theorem ld (e : Ext) : Statement (.ld e) := ofSome rfl (encodeExt_length ..)
theorem ldp (e : Ext) : Statement (.ldp e) := ofSome rfl (encodeExt_length ..)
theorem st (e : Ext) : Statement (.st e) := ofSome rfl (encodeExt_length ..)
theorem mst (e : Ext) : Statement (.mst e) := ofSome rfl (encodeExt_length ..)
theorem rst (e : Ext) : Statement (.rst e) := ofSome rfl (encodeExt_length ..)
theorem pagereq (e : Ext) : Statement (.pagereq e) := ofSome rfl (encodeExt_length ..)
theorem prefetch (e : Ext) : Statement (.prefetch e) := ofSome rfl (encodeExt_length ..)
theorem atomAdd (e : Ext) : Statement (.atomAdd e) := ofSome rfl (encodeExt_length ..)
theorem atomMin (e : Ext) : Statement (.atomMin e) := ofSome rfl (encodeExt_length ..)
theorem atomMax (e : Ext) : Statement (.atomMax e) := ofSome rfl (encodeExt_length ..)
theorem atomAnd (e : Ext) : Statement (.atomAnd e) := ofSome rfl (encodeExt_length ..)
theorem atomOr (e : Ext) : Statement (.atomOr e) := ofSome rfl (encodeExt_length ..)
theorem atomXor (e : Ext) : Statement (.atomXor e) := ofSome rfl (encodeExt_length ..)
theorem atomExch (e : Ext) : Statement (.atomExch e) := ofSome rfl (encodeExt_length ..)
theorem cas (e : Ext) : Statement (.cas e) := ofSome rfl (encodeExt_length ..)
theorem redAdd (e : Ext) : Statement (.redAdd e) := ofSome rfl (encodeExt_length ..)
theorem redMin (e : Ext) : Statement (.redMin e) := ofSome rfl (encodeExt_length ..)
theorem redMax (e : Ext) : Statement (.redMax e) := ofSome rfl (encodeExt_length ..)
theorem redAnd (e : Ext) : Statement (.redAnd e) := ofSome rfl (encodeExt_length ..)
theorem redOr (e : Ext) : Statement (.redOr e) := ofSome rfl (encodeExt_length ..)
theorem redXor (e : Ext) : Statement (.redXor e) := ofSome rfl (encodeExt_length ..)
theorem fence (e : Ext) : Statement (.fence e) := ofSome rfl (encodeExt_length ..)
theorem cpfence (e : Ext) : Statement (.cpfence e) := ofSome rfl (encodeExt_length ..)
theorem cpy (e : Ext) : Statement (.cpy e) := ofSome rfl (encodeExt_length ..)
theorem cpyt (e : Ext) : Statement (.cpyt e) := ofSome rfl (encodeExt_length ..)
theorem copyPrewalkDone (job : Nat) : Statement (.copyPrewalkDone job) := ofNone rfl
theorem copySectorLand (job : Nat) (sector : Nat) : Statement (.copySectorLand job sector) := ofNone rfl
theorem lease (e : Ext) : Statement (.lease e) := ofSome rfl (encodeExt_length ..)
theorem lrel (e : Ext) : Statement (.lrel e) := ofSome rfl (encodeExt_length ..)
theorem txbinit (e : Ext) : Statement (.txbinit e) := ofSome rfl (encodeExt_length ..)
theorem txbexp (e : Ext) : Statement (.txbexp e) := ofSome rfl (encodeExt_length ..)
theorem txbarr (e : Ext) : Statement (.txbarr e) := ofSome rfl (encodeExt_length ..)
theorem txbwait (e : Ext) : Statement (.txbwait e) := ofSome rfl (encodeExt_length ..)
theorem cinv (e : Ext) : Statement (.cinv e) := ofSome rfl (encodeExt_length ..)
theorem cwb (e : Ext) : Statement (.cwb e) := ofSome rfl (encodeExt_length ..)
theorem tlbinv (e : Ext) : Statement (.tlbinv e) := ofSome rfl (encodeExt_length ..)
theorem tlbinvAll (e : Ext) : Statement (.tlbinvAll e) := ofSome rfl (encodeExt_length ..)
theorem mma (e : Ext) : Statement (.mma e) := ofSome rfl (encodeExt_length ..)
theorem mmas (e : Ext) : Statement (.mmas e) := ofSome rfl (encodeExt_length ..)
theorem matrixStep (part : Nat) (core : Nat) (engine : Nat) : Statement (.matrixStep part core engine) := ofNone rfl
theorem tmma (e : Ext) : Statement (.tmma e) := ofSome rfl (encodeExt_length ..)
theorem tsqStep (part : Nat) (core : Nat) (engine : Nat) : Statement (.tsqStep part core engine) := ofNone rfl
theorem mzero (e : Ext) : Statement (.mzero e) := ofSome rfl (encodeExt_length ..)
theorem mslot (e : Ext) : Statement (.mslot e) := ofSome rfl (encodeExt_length ..)
theorem mstat (e : Ext) : Statement (.mstat e) := ofSome rfl (encodeExt_length ..)
theorem mxeSlotBoundary : Statement .mxeSlotBoundary := ofNone rfl
theorem futSplit (e : Ext) : Statement (.futSplit e) := ofSome rfl (encodeExt_length ..)
theorem futEnter (e : Ext) : Statement (.futEnter e) := ofSome rfl (encodeExt_length ..)
theorem futCommit (e : Ext) : Statement (.futCommit e) := ofSome rfl (encodeExt_length ..)
theorem futureCommitPoint (tag : Nat) : Statement (.futureCommitPoint tag) := ofNone rfl
theorem futSquash (e : Ext) : Statement (.futSquash e) := ofSome rfl (encodeExt_length ..)
theorem futStat (e : Ext) : Statement (.futStat e) := ofSome rfl (encodeExt_length ..)
theorem futWaitDone (e : Ext) : Statement (.futWaitDone e) := ofSome rfl (encodeExt_length ..)
theorem futWaitFree (e : Ext) : Statement (.futWaitFree e) := ofSome rfl (encodeExt_length ..)
theorem squashDrainComplete (tag : Nat) : Statement (.squashDrainComplete tag) := ofNone rfl
theorem tagReclaimComplete (tag : Nat) : Statement (.tagReclaimComplete tag) := ofNone rfl
theorem flip (e : Ext) : Statement (.flip e) := ofSome rfl (encodeExt_length ..)
theorem ickpt (e : Ext) : Statement (.ickpt e) := ofSome rfl (encodeExt_length ..)
theorem sinkSlotStart (sink : Nat) : Statement (.sinkSlotStart sink) := ofNone rfl
theorem trace (e : Ext) : Statement (.trace e) := ofSome rfl (encodeExt_length ..)
theorem traceAh (e : Ext) : Statement (.traceAh e) := ofSome rfl (encodeExt_length ..)
theorem rayTraversalEnd (ray : Nat) : Statement (.rayTraversalEnd ray) := ofNone rfl
theorem rayCandidateReady (ray : Nat) : Statement (.rayCandidateReady ray) := ofNone rfl
theorem rayget (e : Ext) : Statement (.rayget e) := ofSome rfl (encodeExt_length ..)
theorem hitacc (e : Ext) : Statement (.hitacc e) := ofSome rfl (encodeExt_length ..)
theorem hitrej (e : Ext) : Statement (.hitrej e) := ofSome rfl (encodeExt_length ..)
theorem hitend (e : Ext) : Statement (.hitend e) := ofSome rfl (encodeExt_length ..)
theorem beam (e : Ext) : Statement (.beam e) := ofSome rfl (encodeExt_length ..)
theorem beamComplete (beam : Nat) : Statement (.beamComplete beam) := ofNone rfl
theorem tex (e : Ext) : Statement (.tex e) := ofSome rfl (encodeExt_length ..)
theorem texg (e : Ext) : Statement (.texg e) := ofSome rfl (encodeExt_length ..)
theorem texq (e : Ext) : Statement (.texq e) := ofSome rfl (encodeExt_length ..)
theorem gatherResultReturn (req : Nat) : Statement (.gatherResultReturn req) := ofNone rfl
theorem atlreq (e : Ext) : Statement (.atlreq e) := ofSome rfl (encodeExt_length ..)
theorem atlmap (e : Ext) : Statement (.atlmap e) := ofSome rfl (encodeExt_length ..)
theorem bldBuild (e : Ext) : Statement (.bldBuild e) := ofSome rfl (encodeExt_length ..)
theorem bldRefit (e : Ext) : Statement (.bldRefit e) := ofSome rfl (encodeExt_length ..)
theorem bldRebal (e : Ext) : Statement (.bldRebal e) := ofSome rfl (encodeExt_length ..)
theorem buildJobComplete (job : Nat) : Statement (.buildJobComplete job) := ofNone rfl
theorem arenaExtensionService (job : Nat) (granted : Bool) : Statement (.arenaExtensionService job granted) := ofNone rfl
theorem bldPub (e : Ext) : Statement (.bldPub e) := ofSome rfl (encodeExt_length ..)
theorem bldPin (e : Ext) : Statement (.bldPin e) := ofSome rfl (encodeExt_length ..)
theorem bldUnpin (e : Ext) : Statement (.bldUnpin e) := ofSome rfl (encodeExt_length ..)
theorem bldGen (e : Ext) : Statement (.bldGen e) := ofSome rfl (encodeExt_length ..)
theorem bldQual (e : Ext) : Statement (.bldQual e) := ofSome rfl (encodeExt_length ..)
theorem generationReclaimComplete (part : Nat) (ctx : Nat) (gen : Nat) : Statement (.generationReclaimComplete part ctx gen) := ofNone rfl
theorem sigrd (e : Ext) : Statement (.sigrd e) := ofSome rfl (encodeExt_length ..)
theorem sigchk (e : Ext) : Statement (.sigchk e) := ofSome rfl (encodeExt_length ..)
theorem replComparison (fibre : Nat) : Statement (.replComparison fibre) := ofNone rfl
theorem replCompareTimeout (fibre : Nat) : Statement (.replCompareTimeout fibre) := ofNone rfl
theorem intervalBoundary (part : Nat) : Statement (.intervalBoundary part) := ofNone rfl
theorem intervalCapture (part : Nat) : Statement (.intervalCapture part) := ofNone rfl
theorem starvationBreak (gang : GangId) : Statement (.starvationBreak gang) := ofNone rfl
theorem primaryWaveAgeLimit (gang : GangId) : Statement (.primaryWaveAgeLimit gang) := ofNone rfl
theorem gangTier (gang : GangId) : Statement (.gangTier gang) := ofNone rfl
theorem gangRecall (gang : GangId) : Statement (.gangRecall gang) := ofNone rfl
theorem templateInstanceStart (part : Nat) (pipe : Nat) (stage : Nat) : Statement (.templateInstanceStart part pipe stage) := ofNone rfl
theorem queueEntryArrival (port : PortId) : Statement (.queueEntryArrival port) := ofNone rfl
theorem queuePortResend (port : PortId) (pipe : Nat) (queue : Nat) : Statement (.queuePortResend port pipe queue) := ofNone rfl
theorem verticalEntryArrival (part : Nat) (core : Nat) : Statement (.verticalEntryArrival part core) := ofNone rfl
theorem verticalPortResend (part : Nat) (core : Nat) (engine : Nat) : Statement (.verticalPortResend part core engine) := ofNone rfl
theorem queueCloseArrival (part : Nat) (pipe : Nat) (queue : Nat) : Statement (.queueCloseArrival part pipe queue) := ofNone rfl
theorem stageCoreRebalance (part : Nat) (pipe : Nat) : Statement (.stageCoreRebalance part pipe) := ofNone rfl
theorem barrierTimeout (group : GroupId) (barrier : Nat) : Statement (.barrierTimeout group barrier) := ofNone rfl
theorem convergeTimeout (group : GroupId) (reg : Nat) : Statement (.convergeTimeout group reg) := ofNone rfl
theorem sleepExpire (fibre : Nat) : Statement (.sleepExpire fibre) := ofNone rfl
theorem repackBudgetExpire (collection : Nat) : Statement (.repackBudgetExpire collection) := ofNone rfl
theorem loadResponse (req : Nat) : Statement (.loadResponse req) := ofNone rfl
theorem registrationRequest (core : Nat) (tag : Nat) (block : Nat) : Statement (.registrationRequest core tag block) := ofNone rfl
theorem registryAck (core : Nat) (tag : Nat) (block : Nat) : Statement (.registryAck core tag block) := ofNone rfl
theorem forwardedRequest (owner : Nat) (tag : Nat) (word : Nat) (acquire : Bool) : Statement (.forwardedRequest owner tag word acquire) := ofNone rfl
theorem l1Fill (core : Nat) (tag : Nat) (line : Nat) (met : Bool) (victim : Option (Nat × Nat)) : Statement (.l1Fill core tag line met victim) := ofNone rfl
theorem vacFill (tag : Nat) (line : Nat) : Statement (.vacFill tag line) := ofNone rfl
theorem pageWalk (part : Nat) (core : Nat) (va : BitVec 64) : Statement (.pageWalk part core va) := ofNone rfl
theorem mmpFaultService (part : Nat) (va : BitVec 64) : Statement (.mmpFaultService part va) := ofNone rfl
theorem leaseExpire (part : Nat) (handle : Nat) : Statement (.leaseExpire part handle) := ofNone rfl
theorem engineWayTimeout (job : Nat) : Statement (.engineWayTimeout job) := ofNone rfl
theorem cxlMemRead (addr : Nat) (count : Nat) : Statement (.cxlMemRead addr count) := ofNone rfl
theorem cxlMemWrite (addr : Nat) (data : List (BitVec 8)) : Statement (.cxlMemWrite addr data) := ofNone rfl
theorem snpInv (line : Nat) : Statement (.snpInv line) := ofNone rfl
theorem snpData (line : Nat) : Statement (.snpData line) := ofNone rfl
theorem snpCur (line : Nat) : Statement (.snpCur line) := ofNone rfl
theorem cxlCacheCompletion (line : Nat) (own : Bool) (grantE : Bool) (answer : HostAnswer) : Statement (.cxlCacheCompletion line own grantE answer) := ofNone rfl
theorem cxlCompletionTimeout (req : Nat) (line : Nat) : Statement (.cxlCompletionTimeout req line) := ofNone rfl
theorem peerWriteAck (fibre : Nat) : Statement (.peerWriteAck fibre) := ofNone rfl
theorem create (part : Nat) : Statement (.create part) := ofNone rfl
theorem reset (part : Nat) : Statement (.reset part) := ofNone rfl
theorem resetComplete (part : Nat) : Statement (.resetComplete part) := ofNone rfl
theorem suspend (part : Nat) : Statement (.suspend part) := ofNone rfl
theorem resume (part : Nat) (arg : BitVec 48) : Statement (.resume part arg) := ofNone rfl
theorem destroy (part : Nat) : Statement (.destroy part) := ofNone rfl
theorem destroyComplete (part : Nat) : Statement (.destroyComplete part) := ofNone rfl
theorem partCmdUnknown (part : Nat) (cmd : Nat) : Statement (.partCmdUnknown part cmd) := ofNone rfl
theorem partLaunch (part : Nat) (word : BitVec 64) : Statement (.partLaunch part word) := ofNone rfl
theorem requestRecordService (part : Nat) : Statement (.requestRecordService part) := ofNone rfl
theorem hostEventPost (part : Nat) : Statement (.hostEventPost part) := ofNone rfl
theorem hsvcAns (part : Nat) (word : BitVec 64) : Statement (.hsvcAns part word) := ofNone rfl
theorem hostEventTimeout (part : Nat) (seq : Nat) : Statement (.hostEventTimeout part seq) := ofNone rfl
theorem fpoolWrite (part : Nat) (value : BitVec 64) : Statement (.fpoolWrite part value) := ofNone rfl
theorem fscContractWrite (part : Nat) (k : Nat) (value : BitVec 64) : Statement (.fscContractWrite part k value) := ofNone rfl
theorem sinkModeWrite (offset : Nat) (value : BitVec 64) : Statement (.sinkModeWrite offset value) := ofNone rfl
theorem vltPwrWrite (part : Nat) (core : Nat) (value : BitVec 8) : Statement (.vltPwrWrite part core value) := ofNone rfl
theorem vaultSlabWakeDone (part : Nat) (core : Nat) (slab : Nat) : Statement (.vaultSlabWakeDone part core slab) := ofNone rfl
theorem dbgCtlWrite (value : BitVec 64) : Statement (.dbgCtlWrite value) := ofNone rfl
theorem dbgResume (value : BitVec 64) : Statement (.dbgResume value) := ofNone rfl
theorem debugMemoryRead (part : Nat) (core : Nat) (array : Nat) (offset : Nat) : Statement (.debugMemoryRead part core array offset) := ofNone rfl
theorem registerWrite (part : Option Nat) (offset : Nat) (value : BitVec 64) : Statement (.registerWrite part offset value) := ofNone rfl
theorem fscPeriodStart (part : Nat) (k : Nat) : Statement (.fscPeriodStart part k) := ofNone rfl
theorem fscBudgetExhausted (part : Nat) (k : Nat) : Statement (.fscBudgetExhausted part k) := ofNone rfl
theorem fscPreempt (part : Nat) : Statement (.fscPreempt part) := ofNone rfl
theorem preemptDeadline (part : Nat) : Statement (.preemptDeadline part) := ofNone rfl
theorem gangRestore (gang : GangId) : Statement (.gangRestore gang) := ofNone rfl
theorem emergencyImageCopy (part : Nat) : Statement (.emergencyImageCopy part) := ofNone rfl
theorem saveDivertTimeout (part : Nat) : Statement (.saveDivertTimeout part) := ofNone rfl
theorem thermalSensorSample (core : Nat) (reading : BitVec 12) : Statement (.thermalSensorSample core reading) := ofNone rfl
theorem migrationMove (part : Nat) (core : Nat) : Statement (.migrationMove part core) := ofNone rfl
theorem coolingLoopLoss (zone : Nat) (lost : Bool × Bool) : Statement (.coolingLoopLoss zone lost) := ofNone rfl
theorem nominalTableReturn : Statement .nominalTableReturn := ofNone rfl
theorem perstDeassert (fail : Option BringFail) : Statement (.perstDeassert fail) := ofNone rfl
theorem firmwareReload (version : BitVec 16) (fail : Option BringFail) : Statement (.firmwareReload version fail) := ofNone rfl
theorem ansRollback (part : Nat) : Statement (.ansRollback part) := ofNone rfl
theorem ansTerminate (part : Nat) : Statement (.ansTerminate part) := ofNone rfl
theorem ansReset (part : Nat) : Statement (.ansReset part) := ofNone rfl
theorem ansRelease (part : Nat) : Statement (.ansRelease part) := ofNone rfl
theorem replMismatchTimeout (part : Nat) : Statement (.replMismatchTimeout part) := ofNone rfl
theorem bondLaneTest (core : Nat) (channel : Nat) (offset : Nat) (failing : List Nat) (resent : Bool) : Statement (.bondLaneTest core channel offset failing resent) := ofNone rfl
theorem gddr7Retrain (sector : Nat) (resends : Nat) (passed : Bool) (isWrite : Bool) : Statement (.gddr7Retrain sector resends passed isWrite) := ofNone rfl
theorem hostLinkLoss : Statement .hostLinkLoss := ofNone rfl
theorem suspendComplete (part : Nat) : Statement (.suspendComplete part) := ofNone rfl
theorem backInvalidationComplete (line : Nat) : Statement (.backInvalidationComplete line) := ofNone rfl

end Sys2Proof.Laws.Length
end

