-- ==== Sys2Proof/Laws/Stores.lean ====
section
/-! SUPPORT. What the operations under a store can do: the bytes they leave alone, and the parts of the machine they do not touch. -/

namespace Sys2Proof.Machine

/-- What a store never touches of a fibre: its registers, predicates and special registers. -/
def Fibre.sameRegs (f g : Fibre) : Prop := f.vregs = g.vregs ∧ f.preds = g.preds ∧ f.flags = g.flags ∧ f.ftz = g.ftz ∧ f.part = g.part ∧
  f.pipe = g.pipe

theorem sameRegs_refl (f : Fibre) : f.sameRegs f := ⟨rfl, rfl, rfl, rfl, rfl, rfl⟩

theorem sameRegs_trans {f g h : Fibre} (a : f.sameRegs g) (b : g.sameRegs h) : f.sameRegs h :=
  ⟨a.1.trans b.1, a.2.1.trans b.2.1, a.2.2.1.trans b.2.2.1, a.2.2.2.1.trans b.2.2.2.1, a.2.2.2.2.1.trans b.2.2.2.2.1, a.2.2.2.2.2.trans b.2.2.2.2.2⟩

/-- `t` follows `s` by writes to the places `out` does not hold of, below the versions: other bytes there are as before, and nothing but the
memories, the caches, the links, the stores in flight and what awaits them has changed. -/
structure Stored (s t : State) (out : Nat → Prop) : Prop where
  wf : Memory.wf s.mem = true → Memory.wf t.mem = true
  byte : Memory.wf s.mem = true → ∀ a, a < 16 * spaceSize → out a → t.byte a = s.byte a
  reg : t.registry = s.registry
  regs : ∀ u, (t.fibre u).sameRegs (s.fibre u)
  len : t.fibres.length = s.fibres.length
  rest : t = { s with fibres := t.fibres, mem := t.mem, poisoned := t.poisoned, vers := t.vers, verLines := t.verLines, l1 := t.l1, hostLines := t.hostLines,
                      hostHeld := t.hostHeld, agenda := t.agenda, timers := t.timers, peerWrites := t.peerWrites, ports := t.ports
                      reducing := t.reducing, nextId := t.nextId }

theorem Stored.refl (s : State) (out : Nat → Prop) : Stored s s out :=
  ⟨id, fun _ _ _ _ => rfl, rfl, fun _ => sameRegs_refl _, rfl, rfl⟩

theorem Stored.trans {s t u : State} {p : Nat → Prop} (h : Stored s t p) (k : Stored t u p) : Stored s u p := by
  refine ⟨fun w => k.wf (h.wf w), fun w a ha hp => (k.byte (h.wf w) a ha hp).trans (h.byte w a ha hp), k.reg.trans h.reg, fun v => ?_, k.len.trans h.len, ?_⟩
  · exact sameRegs_trans (k.regs v) (h.regs v)
  · have h1 := h.rest; have h2 := k.rest; rw [h2, h1]

theorem Stored.foldl {α : Type} {g : State → α → State} {p : Nat → Prop} (l : List α) (s : State)
    (h : ∀ x ∈ l, ∀ t, t.registry = s.registry → Stored t (g t x) p) : Stored s (l.foldl g s) p := by
  induction l generalizing s with
  | nil => exact Stored.refl s p
  | cons x r ih =>
    have h1 := h x (by simp) s rfl
    refine h1.trans (ih _ fun y hy t ht => h y (by simp [hy]) t (ht.trans h1.reg))

variable {s : State} {p : Nat → Prop}

/-- A step that leaves memory, the registry and the fibres as they are. -/
theorem Stored.of_quiet {t : State} (hm : t.mem = s.mem) (hr : t.registry = s.registry) (hf : t.fibres = s.fibres)
    (h : t = { s with poisoned := t.poisoned, vers := t.vers, verLines := t.verLines, l1 := t.l1, hostLines := t.hostLines,
                      hostHeld := t.hostHeld, agenda := t.agenda, timers := t.timers, peerWrites := t.peerWrites, ports := t.ports
                      reducing := t.reducing, nextId := t.nextId }) : Stored s t p := by
  refine ⟨fun w => by rw [hm]; exact w, fun _ a _ _ => by unfold State.byte; rw [hm], hr, fun u => ?_, by rw [hf], ?_⟩
  · rw [fibre_congr hf]; exact sameRegs_refl _
  · rw [hf, hm]; exact h

/-- A change of fibres that keeps their numbers and registers keeps each fibre's. -/
theorem find_mapIf_same {q : Fibre → Bool} {g : Fibre → Fibre} (hu : ∀ f, (g f).uid = f.uid) (hg : ∀ f, (g f).sameRegs f) (u : Nat) (l : List Fibre) :
    (((mapIf q g l).find? fun f => f.uid == u).getD Fibre.blank).sameRegs ((l.find? fun f => f.uid == u).getD Fibre.blank) := by
  induction l with
  | nil => exact sameRegs_refl _
  | cons f r ih =>
    unfold mapIf at ih ⊢
    rw [List.map_cons]
    have h : ((if q f = true then g f else f).uid == u) = (f.uid == u) := by split <;> simp [hu]
    by_cases hf : (f.uid == u) = true
    · rw [List.find?_cons_of_pos (by simpa using h.trans hf), List.find?_cons_of_pos (by simpa using hf)]
      split
      · exact hg f
      · exact sameRegs_refl f
    · rw [List.find?_cons_of_neg (by simp only [h]; exact hf), List.find?_cons_of_neg (by simpa using hf)]; exact ih

/-- A change of fibres that keeps their numbers and registers. -/
theorem Stored.of_fibres {q : Fibre → Bool} {g : Fibre → Fibre} (hu : ∀ f, (g f).uid = f.uid) (hg : ∀ f, (g f).sameRegs f) :
    Stored s { s with fibres := mapIf q g s.fibres } p :=
  ⟨id, fun _ _ _ _ => rfl, rfl, fun u => find_mapIf_same hu hg u s.fibres, by simp [mapIf], rfl⟩

/-- A change of a fibre that keeps its registers. -/
theorem Stored.of_fibre (u : Nat) {g : Fibre → Fibre} (hu : ∀ f, (g f).uid = f.uid) (hg : ∀ f, (g f).sameRegs f) : Stored s (s.updFibre u g) p :=
  Stored.of_fibres hu hg

theorem Stored.post (e : Event) : Stored s (s.post e) p := Stored.of_quiet rfl rfl rfl rfl
theorem Stored.timer (c : Nat) (e : Event) : Stored s (s.timer c e) p := Stored.of_quiet rfl rfl rfl rfl

/-- A write of bytes of which the predicate does not hold. -/
theorem Stored.setBytes {k : Nat} {d : List Byte} (h : ∀ a, a < 16 * spaceSize → p a → a < k ∨ k + d.length ≤ a) : Stored s (s.setBytes k d) p := by
  have hf := setBytes_frame (s := s) (k := k) (d := d)
  refine ⟨fun w => setBytes_wf w, fun w a ha hp => byte_setBytes_other w (h a ha hp), by rw [hf], fun u => ?_, by rw [hf], ?_⟩
  · rw [fibre_congr (s := s) (t := s.setBytes k d) (by rw [hf])]; exact sameRegs_refl _
  · conv => lhs; rw [hf]
    rw [hf]

/-- A version's copy lies above every home copy. -/
theorem verKey_above (t k : Nat) : 16 * spaceSize ≤ verKey t k := by unfold verKey; have := Nat.zero_le (2 * t * spaceSize); rw [Nat.add_mul]; omega

/-- The creation of a version (R118). -/
theorem stored_createVersion (part t : Nat) (l : Loc) : Stored s (s.createVersion part t l) p := by
  unfold State.createVersion
  dsimp only
  split
  · exact Stored.refl _ _
  · refine Stored.trans (Stored.trans (Stored.setBytes (k := verKey t (l.key / 32 * 32)) ?_) (Stored.foldl _ _ fun i _ u _ => ?_)) (Stored.of_quiet rfl rfl rfl rfl)
    · intro a ha _; left; exact Nat.lt_of_lt_of_le ha (verKey_above _ _)
    · refine Stored.of_quiet ?_ ?_ ?_ ?_ <;> (unfold State.setMemPoison; dsimp only; repeat' split) <;> rfl

theorem stored_markWritten (t k n : Nat) : Stored s (s.markWritten t k n) p := by
  unfold State.markWritten; split
  · exact Stored.refl _ _
  · exact Stored.of_quiet rfl rfl rfl rfl

theorem stored_touchLine (t k : Nat) : Stored s (s.touchLine t k) p := by
  unfold State.touchLine
  repeat' split
  all_goals first
    | exact Stored.refl _ _
    | exact Stored.of_quiet rfl rfl rfl rfl

/-- A write at the home copy of a block that no L1 holds. -/
theorem stored_homeWriteAs {part t : Nat} {l : Loc} {d : List Byte} (ho : ∀ t, s.owner t l.key l.grain = none)
    (h : ∀ a, a < 16 * spaceSize → p a → a < l.key ∨ l.key + d.length ≤ a) : Stored s (s.homeWriteAs part t l d) p := by
  unfold State.homeWriteAs
  dsimp only
  have h1 := stored_createVersion (s := s) (p := p) part t l
  have h2 : (s.createVersion part t l).recallBlock t l.key l.grain = s.createVersion part t l := by
    unfold State.recallBlock
    have : (s.createVersion part t l).owner t l.key l.grain = none := by unfold State.owner; rw [h1.reg]; exact ho t
    rw [this]
  rw [h2]
  refine h1.trans (Stored.trans (stored_touchLine t l.key) (Stored.trans (Stored.setBytes (k := copyKey t l.key) (d := d) ?_)
    (Stored.trans (stored_markWritten t l.key d.length) ?_)))
  · intro a ha hp
    unfold copyKey
    split
    · exact h a ha hp
    · left; exact Nat.lt_of_lt_of_le ha (verKey_above _ _)
  · exact Stored.of_quiet rfl rfl rfl rfl

/-- A store into the L1 of a core (R77). -/
theorem stored_cachedStore (uid part core f : Nat) (l : Loc) (d : List Byte) : Stored s (s.cachedStore uid part core f l d) p := by
  unfold State.cachedStore
  dsimp only
  have h := Stored.trans (stored_createVersion (s := s) (p := p) part (if l.vers then s.writeTag part f else 0) l)
    (stored_markWritten (if l.vers then s.writeTag part f else 0) l.key d.length)
  refine h.trans ?_
  generalize (if l.vers then s.writeTag part f else 0) = g
  generalize (s.createVersion part g l).markWritten g l.key d.length = u
  split
  · exact Stored.of_quiet rfl rfl rfl rfl
  · refine Stored.trans ?_ (Stored.of_fibre _ (fun _ => rfl) fun _ => sameRegs_refl _)
    split
    · exact Stored.of_quiet rfl rfl rfl rfl
    · exact Stored.of_quiet rfl rfl rfl rfl

/-- A plain store at a place. -/
theorem stored_storeAt {f : Fibre} {l : Loc} {d : List Byte} (ho : l.cached = false ∨ isPeer l = true → ∀ t, s.owner t l.key l.grain = none)
    (h : ∀ a, a < 16 * spaceSize → p a → a < l.key ∨ l.key + d.length ≤ a) : Stored s (s.storeAt f l d) p := by
  unfold State.storeAt
  split
  · rename_i hp
    unfold State.peerWrite
    dsimp only
    have h1 : Stored s (s.homeWrite f.part f.tag l d) p := stored_homeWriteAs (ho (.inr hp)) h
    generalize s.homeWrite f.part f.tag l d = u at h1
    have h2 : Stored u (u.updFibre f.uid fun x => { x with peerUnacked := x.peerUnacked + 1 }) p :=
      Stored.of_fibre _ (fun _ => rfl) fun _ => sameRegs_refl _
    refine h1.trans (h2.trans ?_)
    exact Stored.of_quiet rfl rfl rfl rfl
  · split
    · exact stored_cachedStore _ _ _ _ _ _
    · rename_i hc
      exact stored_homeWriteAs (ho (.inl (by simpa using hc))) h

theorem pairPieces_mem {x : Piece × List Byte} : ∀ {ps : List Piece} {d : List Byte}, x ∈ pairPieces ps d → x.1 ∈ ps ∧ x.2.length ≤ x.1.n := by
  intro ps
  induction ps with
  | nil => intro d h; cases h
  | cons y r ih =>
    intro d h
    unfold pairPieces at h
    rcases List.mem_cons.mp h with rfl | h
    · exact ⟨by simp, by simp only [List.length_take]; omega⟩
    · exact ⟨List.mem_cons_of_mem _ (ih h).1, (ih h).2⟩

theorem signStore_same (f : Fibre) (ea : Nat) (d : List Byte) : (f.signStore ea d).sameRegs f ∧ (f.signStore ea d).uid = f.uid := by
  unfold Fibre.signStore
  generalize chunksOf ea d = cs
  induction cs generalizing f with
  | nil => exact ⟨sameRegs_refl _, rfl⟩
  | cons c r ih => exact ih (f.fold c.record)

theorem stored_replicated {t : State} (h : Stored s t p) (u : Nat) : t.replicatedFibre (t.fibre u) = s.replicatedFibre (s.fibre u) := by
  obtain ⟨-, -, -, -, h1, h2⟩ := h.regs u
  have h3 : t.pipes = s.pipes := by rw [h.rest]
  unfold State.replicatedFibre State.pipeOf State.pipe State.pipe?
  rw [h1, h2, h3]

/-- A fibre that goes on keeps its registers. -/
theorem continues_same (f : Fibre) : f.continues.sameRegs f ∧ f.continues.uid = f.uid := by
  unfold Fibre.continues Fibre.advancePc; dsimp only; repeat' split
  all_goals exact ⟨⟨rfl, rfl, rfl, rfl, rfl, rfl⟩, rfl⟩

/-- The end of a barrier's phase writes the barrier's first byte (R91). -/
theorem stored_txbDone {k : Nat} {old : Txb} (h : ¬ p k) : Stored s (s.txbDone k old) p := by
  unfold State.txbDone
  dsimp only
  split
  · exact Stored.refl _ _
  · refine Stored.trans (Stored.setBytes (s := s) (k := k) (d := [BitVec.ofNat 8 (((s.txbAt k).phase + 1) % 16)]) fun a _ hp => ?_)
      (Stored.trans (Stored.foldl _ _ fun f _ t _ => ?_) (Stored.of_fibres (fun f => (continues_same f).2) fun f => (continues_same f).1))
    · have : a ≠ k := fun e => h (e ▸ hp)
      simp only [List.length_singleton]; omega
    · unfold State.acquire
      split
      · exact Stored.refl _ _
      · exact Stored.of_quiet rfl rfl rfl rfl

/-- A plain store to scratchpad, and the barriers that it reaches (R91). -/
theorem stored_txbStore {keys : List Nat} {st : State → State} (h : ∀ k ∈ keys, ¬ p k) (hs : Stored s (st s) p) : Stored s (s.txbStore keys st) p :=
  hs.trans (Stored.foldl keys _ fun k hk _ _ => stored_txbDone (h k hk))

theorem txbsUnder_mem {k key n : Nat} (h : k ∈ s.txbsUnder key n) : k ∈ s.txbs := (List.mem_filter.mp h).1

/-- A covering store clears marks (R464). -/
theorem stored_clearCovered (f : Fibre) (ps : List Piece) : Stored s (s.clearCovered f ps) p := Stored.of_quiet rfl rfl rfl rfl

/-- One access of a store, outside replicated pipelines. -/
theorem stored_storeOne {irrev rel : Bool} {x : Placed} {d : List Byte} (hr : s.replicatedFibre (s.fibre x.uid) = false)
    (ho : ∀ y ∈ x.pieces, y.loc.cached = false ∨ isPeer y.loc = true → ∀ t, s.owner t y.loc.key y.loc.grain = none) (hb : ∀ k ∈ s.txbs, ¬ p k)
    (h : ∀ a, a < 16 * spaceSize → p a → ∀ y ∈ x.pieces, a < y.loc.key ∨ y.loc.key + y.n ≤ a) : Stored s (s.storeOne irrev rel x d) p := by
  unfold State.storeOne
  dsimp only
  have h1 : Stored s (s.updFibre x.uid fun f => f.signStore x.ea d) p :=
    Stored.of_fibre x.uid (g := fun f => f.signStore x.ea d) (fun f => (signStore_same f _ _).2) fun f => (signStore_same f _ _).1
  have h2 := stored_replicated h1 x.uid
  rw [hr] at h2
  refine h1.trans ?_
  split
  · exact Stored.refl _ _
  · rw [h2]
    simp only [Bool.false_and, Bool.false_eq_true, if_false]
    refine stored_txbStore (fun k hk => ?_) (Stored.trans (Stored.foldl _ _ fun y hy t ht => ?_) (stored_clearCovered _ _))
    · split at hk
      · exact hb k (txbsUnder_mem hk)
      · cases hk
    · obtain ⟨h1, h2⟩ := pairPieces_mem hy
      refine stored_storeAt (fun hc u => ?_) fun a ha hp => ?_
      · have := ho y.1 h1 hc u
        unfold State.owner at this ⊢; rw [ht]; exact this
      · have := h a ha hp y.1 h1
        omega

/-- The accesses of a store one after the other. -/
theorem stored_stores {irrev rel : Bool} {bytes : State → Fibre → List Byte} (ps : List Placed) (s : State) {p : Nat → Prop}
    (hr : ∀ x ∈ ps, s.replicatedFibre (s.fibre x.uid) = false)
    (ho : ∀ x ∈ ps, ∀ y ∈ x.pieces, y.loc.cached = false ∨ isPeer y.loc = true → ∀ t, s.owner t y.loc.key y.loc.grain = none) (hb : ∀ k ∈ s.txbs, ¬ p k)
    (h : ∀ a, a < 16 * spaceSize → p a → ∀ x ∈ ps, ∀ y ∈ x.pieces, a < y.loc.key ∨ y.loc.key + y.n ≤ a) :
    Stored s (ps.foldl (fun s x => s.storeOne irrev rel x (bytes s (s.fibre x.uid))) s) p := by
  induction ps generalizing s with
  | nil => exact Stored.refl _ _
  | cons x r ih =>
    have h1 : Stored s (s.storeOne irrev rel x (bytes s (s.fibre x.uid))) p :=
      stored_storeOne (hr x (by simp)) (ho x (by simp)) hb fun a ha hp => h a ha hp x (by simp)
    have h2 : (s.storeOne irrev rel x (bytes s (s.fibre x.uid))).txbs = s.txbs := by rw [h1.rest]
    refine h1.trans (ih _ (fun y hy => ?_) (fun y hy z hz hc t => ?_) (by rw [h2]; exact hb) fun a ha hp y hy => h a ha hp y (by simp [hy]))
    · rw [stored_replicated h1]; exact hr y (by simp [hy])
    · have := ho y (by simp [hy]) z hz hc t
      unfold State.owner at this ⊢; rw [h1.reg]; exact this

/-- A way for an engine changes the table of version lines alone (R123, R124). -/
theorem engineWay_frame {part t : Nat} {l : Loc} {u : State} (h : s.engineWay part t l = some u) : u = { s with verLines := u.verLines } := by
  unfold State.engineWay at h
  split at h
  · exact takeWay_frame h
  · split at h
    · cases h; rfl
    · exact readWay_frame h

/-- A write of the collective path (R252). -/
theorem stored_collectiveWrite {f : Fibre} {l : Loc} {d : List Byte} {u : State} (hu : s.collectiveWrite f l d = some u)
    (ho : ∀ t, s.owner t l.key l.grain = none) (hb : ∀ k ∈ s.txbs, ¬ p k)
    (h : ∀ a, a < 16 * spaceSize → p a → a < l.key ∨ l.key + d.length ≤ a) : Stored s u p := by
  unfold State.collectiveWrite at hu
  dsimp only at hu
  split at hu
  · cases hu; exact stored_storeAt (fun _ => ho) h
  · split at hu
    · cases hu
    · rename_i v hv
      cases hu
      have hf := engineWay_frame hv
      have h1 : Stored s v p := by rw [hf]; exact Stored.of_quiet rfl rfl rfl rfl
      have h2 : v.txbs = s.txbs := by rw [h1.rest]
      refine h1.trans (stored_txbStore (fun k hk => ?_) (stored_homeWriteAs (fun t => ?_) h))
      · split at hk
        · exact hb k (h2 ▸ txbsUnder_mem hk)
        · cases hk
      · have := ho t
        unfold State.owner at this ⊢; rw [h1.reg]; exact this

/-- The writes of a reducing store (R252). -/
theorem stored_reduceWrites {f : Fibre} : ∀ (ws : List (Loc × List Byte)) (s : State) {p : Nat → Prop},
    (∀ w ∈ ws, ∀ t, s.owner t w.1.key w.1.grain = none) → (∀ k ∈ s.txbs, ¬ p k) →
    (∀ a, a < 16 * spaceSize → p a → ∀ w ∈ ws, a < w.1.key ∨ w.1.key + w.2.length ≤ a) → Stored s (s.reduceWrites f ws).1 p := by
  intro ws
  induction ws with
  | nil => intro s p _ _ _; exact Stored.refl _ _
  | cons w r ih =>
    intro s p ho hb h
    unfold State.reduceWrites
    split
    · exact Stored.refl _ _
    · rename_i u hu
      have h1 := stored_collectiveWrite hu (ho w (by simp)) hb fun a ha hp => h a ha hp w (by simp)
      have h2 : u.txbs = s.txbs := by rw [h1.rest]
      refine h1.trans (ih u (fun x hx t => ?_) (by rw [h2]; exact hb) fun a ha hp x hx => h a ha hp x (by simp [hx]))
      have := ho x (by simp [hx]) t
      unfold State.owner at this ⊢; rw [h1.reg]; exact this

/-- An acknowledgement (R80, R99). -/
theorem stored_acknowledge (x : Nat × Nat × Nat) : Stored s (s.acknowledge x) p := by
  unfold State.acknowledge
  dsimp only
  refine Stored.trans (Stored.trans (Stored.of_fibres (s := s) (q := fun _ => true) (g := fun f => { f with unacked := f.unacked.filter fun y => y != x })
    (fun _ => rfl) fun _ => sameRegs_refl _) ?_) (Stored.foldl _ _ fun i _ t _ => Stored.post _)
  refine Stored.of_quiet ?_ ?_ ?_ ?_ <;> simp [State.mapFibres, mapIf]

/-- A reducing store goes on (R252). -/
theorem stored_reduceOn {r : Reducing} (ho : ∀ w ∈ r.left, ∀ t, s.owner t w.1.key w.1.grain = none) (hb : ∀ k ∈ s.txbs, ¬ p k)
    (h : ∀ a, a < 16 * spaceSize → p a → ∀ w ∈ r.left, a < w.1.key ∨ w.1.key + w.2.length ≤ a) : Stored s (s.reduceOn r) p := by
  unfold State.reduceOn
  dsimp only
  have h1 := stored_reduceWrites (f := { s.fibre r.uid with uid := r.uid, part := r.part, tag := r.tag }) r.left s ho hb h
  generalize s.reduceWrites { s.fibre r.uid with uid := r.uid, part := r.part, tag := r.tag } r.left = x at h1 ⊢
  obtain ⟨t, left⟩ := x
  have h2 : Stored t { t with reducing := t.reducing.filter fun x => x.id != r.id } p := Stored.of_quiet rfl rfl rfl rfl
  refine (h1.trans h2).trans ?_
  split
  · exact stored_acknowledge _
  · split
    · exact Stored.of_quiet rfl rfl rfl rfl
    · exact Stored.of_quiet rfl rfl rfl rfl

end Sys2Proof.Machine
end

