-- ==== Sys2Proof/Tests/Lab.lean ====
section
/-! SUPPORT. The small machine of the tests: one running partition with two logical cores, one pipeline and a wave of two fibres; and the
forms of the hypotheses of statements that evaluation can decide. -/

namespace Sys2Proof.Tests

open Sys2Proof Sys2Proof.Machine

/-! ### The machine -/

/-- The first byte of the scratchpad of cluster 0 (R62, R66). -/
def spd : Nat := 0xFD00000000000000

/-- The fibre of a lane: every register of the file is there, p1 is true, and the current group is not the home group. -/
def fibreOf (uid lane : Nat) : Fibre :=
  { Fibre.blank with uid := uid, setId := uid, pipe := 1, lane := lane, fid := uid, cur := 5, home := 4, st := .runnable, preds := 3, win := 512
                     pc := 0x1000, rank := lane, vregs := [(1, ⟨3, false⟩), (2, ⟨BitVec.ofNat 32 (7 + lane), false⟩)] }

/-- A group. Its s-registers: s2 the scratchpad's address, s4 the number 2, s6 the home group; s10 and s11, s20 to s22 copies of one sector;
s14 a lease of one line for five units; s16 an address of global memory; s24 to s28 the descriptors of a TMMA of one step; s30 a
structure's handle; s32 the address of a view record, s34 of a texture descriptor. -/
def groupOf (handle : Nat) : Group :=
  { Group.blank with handle := handle, everJoined := true, copyRight := true, members := [(0, 1), (1, 2)]
                     sregs := [(2, ⟨BitVec.ofNat 64 spd, false⟩), (4, ⟨2, false⟩), (6, ⟨4, false⟩), (10, ⟨BitVec.ofNat 64 (spd + 1024), false⟩), (11, ⟨1, false⟩),
                               (14, ⟨0x500000001, false⟩), (16, ⟨0x10000, false⟩), (20, ⟨BitVec.ofNat 64 (spd + 1024), false⟩), (21, ⟨0x10001, false⟩), (24, ⟨0x8000001000, false⟩), (26, ⟨0x8000002000, false⟩),
                               (28, ⟨0x4000004000, false⟩), (30, ⟨0x1800, false⟩), (32, ⟨BitVec.ofNat 64 (spd + 2048), false⟩), (34, ⟨BitVec.ofNat 64 (spd + 3072), false⟩)]
                     cvs := List.replicate 8 { size := 2, signers := [], count := 0, round := 0, since := none, done := [] }
                     bars := List.replicate 4 { isOpen := false, expected := [], lost := 0, arrived := [], since := 0, pipe := 0 } }

/-- The pipeline of the wave: the supervisor's, with one queue. -/
def pipe1 : Pipe :=
  { Pipe.blank with handle := 1, supervisor := true, ended := none, cores := [0, 1]
                    queues := [{ launching := false, depth := 4, base := 0x2000, entries := [], closed := false, dropping := [] }] }

/-- Partition 0: RUNNING, logical cores 0 and 1 on physical cores 0 and 1. -/
def part0 : Partition :=
  { Partition.reset with state := 2, lmap := [128, 129] ++ List.replicate 126 0, lmapPage := [128, 129] ++ List.replicate 126 0, res := 0xF00000008
                         pipeCount := 1 }

/-- A translation: the first 2 MiB of global memory, cached, lie at 2 MiB of the device, and may be read, written and fetched. -/
def page0 : TlbEntry := { part := 0, cluster := true, place := 0, entry := BitVec.ofNat 128 (5 + 14 * 2 ^ 64 + 0x200 * 2 ^ 76) }

/-- A structure with one current generation, which holds nothing. -/
def ctx0 : StructCtx :=
  { part := 0, idx := 0, seq := 1, top := true, live := true, arena := 0x20000, size := 1, original := 1, extensions := 0, maxGen := 1, staged := []
    gens := [{ num := 1, state := 1, tag := 0, pins := 0, fresh := false, replaced := none
               data := { nodes := [], tris := [], insts := [], counts := [], sah := 0, overlap := 0, refits := 0, degen := 0, baseSah := 0 } }] }

/-- The machine. In the scratchpad lie a job descriptor that names a structure, at 1,024, a view record with a pitch
of 256 bytes, at 2,048. -/
def lab : State :=
  { State.reset with clock := 1000, parts := part0 :: List.replicate 15 Partition.reset, pipes := [pipe1], fibres := [fibreOf 1 0, fibreOf 2 1]
                     groups := [groupOf 4, groupOf 5], cur := [1, 2], tlb := [page0], structs := [ctx0]
                     mem := [(spdKey 0 1025, 0x10), (spdKey 0 2121, 1)], nextUid := 10, nextId := 10 }

/-! ### Hypotheses that evaluation decides -/

/-- `Issues`, as a Bool. -/
def issuesB (s : State) (i : Issue) : Bool :=
  s.cur.all (fun u => s.fibres.any fun f => f.uid == u) && decide (s.gate i = .go) && !(s.activeSet i).isEmpty && s.wave.all fun f => (s.pipeOf f).repl == 0

theorem issues {s : State} {i : Issue} (h : issuesB s i = true) : Issues s i := by
  simp only [issuesB, Bool.and_eq_true] at h
  obtain ⟨⟨⟨h1, h2⟩, h3⟩, h4⟩ := h
  refine ⟨fun u hu => ?_, by simpa using h2, by simpa using h3, fun f hf => ?_⟩
  · simpa using (List.all_eq_true.mp h1) u hu
  · simpa using (List.all_eq_true.mp h4) f hf

/-- The hypotheses of a row of an instruction that acts in each fibre. -/
def laneOk (s : State) (r : LaneRow) : Prop :=
  Issues s r.issue ∧ ∀ u ∈ s.activeSet r.issue, r.ok (s.issuedBy r.issue) (s.activeSet r.issue) ((s.issuedBy r.issue).fibre u) = true

theorem lanes {s : State} {l : List LaneRow} (h : (l.all fun r => issuesB s r.issue &&
    (s.activeSet r.issue).all fun u => r.ok (s.issuedBy r.issue) (s.activeSet r.issue) ((s.issuedBy r.issue).fibre u)) = true) : ∀ r ∈ l, laneOk s r := by
  intro r hr
  have := (List.all_eq_true.mp h) r hr
  simp only [Bool.and_eq_true] at this
  exact ⟨issues this.1, fun u hu => (List.all_eq_true.mp this.2) u hu⟩

/-- The hypotheses of a row of an instruction that writes an s-register. -/
def scalarOk (s : State) (r : ScalarRow) : Prop :=
  Issues s r.issue ∧ ((s.issuedBy r.issue).group? ((s.issuedBy r.issue).fibre ((s.activeSet r.issue).headD 0)).groupId).isSome = true ∧
    r.ok (s.issuedBy r.issue) ((s.issuedBy r.issue).fibre ((s.activeSet r.issue).headD 0)) = true

theorem scalars {s : State} {l : List ScalarRow} (h : (l.all fun r => issuesB s r.issue &&
    (((s.issuedBy r.issue).group? ((s.issuedBy r.issue).fibre ((s.activeSet r.issue).headD 0)).groupId).isSome &&
      r.ok (s.issuedBy r.issue) ((s.issuedBy r.issue).fibre ((s.activeSet r.issue).headD 0)))) = true) : ∀ r ∈ l, scalarOk s r := by
  intro r hr
  have := (List.all_eq_true.mp h) r hr
  simp only [Bool.and_eq_true] at this
  exact ⟨issues this.1, this.2.1, this.2.2⟩

/-- The hypotheses of a row of an instruction as a whole. -/
def opOk (s : State) (r : OpRow) : Prop := Issues s r.issue ∧ r.pre (s.issuedBy r.issue) (s.activeSet r.issue)

/-- A check that passes. -/
def passes {α β : Type} : Except α β → Bool
  | .ok _ => true
  | .error _ => false

theorem passed {α β : Type} {x : Except α β} (h : passes x = true) : ∃ y, x = .ok y := by
  cases x with
  | ok y => exact ⟨y, rfl⟩
  | error e => cases h

/-- A check that answers a value. -/
def answersB {α β : Type} [DecidableEq β] (x : Except α β) (y : β) : Bool :=
  match x with
  | .ok z => decide (z = y)
  | .error _ => false

theorem answers {α β : Type} [DecidableEq β] {x : Except α β} {y : β} (h : answersB x y = true) : x = .ok y := by
  cases x with
  | ok z => simp only [answersB, decide_eq_true_eq] at h; rw [h]
  | error e => cases h

/-- A check that passes, with a property of the two parts of its answer. -/
theorem passedWith {α β γ : Type} {x : Except α (β × γ)} (q : β → γ → Bool) (h : (match x with | .ok y => q y.1 y.2 | .error _ => false) = true) :
    ∃ a b, x = .ok (a, b) ∧ q a b = true := by
  cases x with
  | ok y => exact ⟨y.1, y.2, rfl, h⟩
  | error e => cases h

/-- Checked accesses with a property that evaluation decides. -/
theorem placedWith {s : State} {us : List Nat} {uses : List RegUse} {accs : State → Fibre → List Acc} {m : Bool}
    {q : State → List Nat → List Placed → Prop} (b : State → List Nat → List Placed → Bool) (hb : ∀ t us ps, b t us ps = true → q t us ps)
    (h : (match s.placeAll uses (accs s) m us with
      | .ok (ps, ws) => b (s.keepWalks (s.fibre (us.headD 0)) ws) us ps
      | .error _ => false) = true) : placedPre uses accs m q s us := by
  revert h
  cases hp : s.placeAll uses (accs s) m us with
  | error e => intro h; cases h
  | ok x =>
    obtain ⟨ps, ws⟩ := x
    intro h
    exact ⟨ps, ws, hp, hb _ _ _ h⟩

/-- Checked accesses that load; `sel` are those that do. -/
theorem placedRead {s : State} {us : List Nat} {uses : List RegUse} {accs : State → Fibre → List Acc} {m : Bool}
    {wide : State → State → Fibre → Bool} {sel : State → List Placed → List Placed}
    (h : (match s.placeAll uses (accs s) m us with
      | .ok (ps, ws) =>
        let t := s.keepWalks (s.fibre (us.headD 0)) ws
        passes (t.reserveLoads (wide t t) (sel t ps))
      | .error _ => false) = true) : placedPre uses accs m (fun t us ps => readPre (wide t) t us (sel t ps)) s us :=
  placedWith (fun t _ ps => passes (t.reserveLoads (wide t t) (sel t ps))) (fun _ _ _ h => passed h) h

/-- No tag of some fibres is COMMITTING, as a Bool. -/
def notCommitB (t : State) (vs : List Nat) : Bool := vs.all fun u => (t.fibre u).tag == 0 || (t.tagRec (t.fibre u).tag).state != 2

theorem notCommits {t : State} {vs : List Nat} (h : notCommitB t vs = true) : notCommit t vs := fun u hu => by
  simpa using (List.all_eq_true.mp h) u hu

/-- What a store asks of checked accesses, as a Bool. -/
def storeB (vs : List Nat) (t : State) (ps : List Placed) : Bool := notCommitB t vs && passes (t.reserveAll ps)

theorem storeOk {t : State} {vs : List Nat} {ps : List Placed} (h : storeB vs t ps = true) : storePre t vs ps := by
  simp only [storeB, Bool.and_eq_true] at h
  exact ⟨notCommits h.1, passed h.2⟩

/-- What an atomic asks of checked accesses, as a Bool. -/
def atomB (a : AtomOp) (e : Ext) (t : State) (us : List Nat) (ps : List Placed) : Bool :=
  notCommitB t us && (match t.reserveAll ps with | .ok v => passes (v.reserveOrd a e ps) | .error _ => false)

theorem atomOk {a : AtomOp} {e : Ext} {t : State} {us : List Nat} {ps : List Placed} (h : atomB a e t us ps = true) : atomPre a e t us ps := by
  simp only [atomB, Bool.and_eq_true] at h
  obtain ⟨h1, h2⟩ := h
  revert h2
  cases hp : t.reserveAll ps with
  | error e => intro h; cases h
  | ok v => intro h; exact ⟨notCommits h1, v, hp, passed h⟩

/-- The machine goes on. -/
def goesOn (x : Host.Outcome State Fault Refusal) : Bool :=
  match x with
  | .next _ => true
  | .fault _ => false
  | .refused _ => false

theorem next {x : Host.Outcome State Fault Refusal} (h : goesOn x = true) : ∃ t, x = .next t := by
  cases x with
  | next t => exact ⟨t, rfl⟩
  | fault f => cases h
  | refused r => cases h

end Sys2Proof.Tests
end

