-- ==== Sys2Proof/Tests/Witness.lean ====
section
/-! SUPPORT. Witnesses: states and operands that meet the hypotheses of the statements about instructions. -/

namespace Sys2Proof.Tests

set_option Elab.async false

open Sys2Proof Sys2Proof.Machine

noncomputable section

/-- A base form: d 8, a 2. -/
def b0 : Base := { stall := 0, gn := false, gp := 0, d := 8, a := 2 }

/-- An extended form of v-registers, with p3 as result. -/
def eR : Ext := { ext0 with d := 8, a := 2, b := 4, c := 1, ty := .f32, pd := 3, pdv := true, stall := 2 }

theorem witness_IntegerResults : ∀ r ∈ intRows b0 (.baseLit b0 5) { eR with ty := .s64 }, laneOk lab r := lanes (by decide +kernel)

theorem witness_BitResults : ∀ r ∈ bitRows b0 (.ext { eR with ty := .n32 }) { eR with ty := .n32 }, laneOk lab r := lanes (by decide +kernel)

theorem witness_FloatResults : ∀ r ∈ singleRows b0 (.ext eR) eR ++ packedRows b0 (.ext { eR with ty := .f16 }) { eR with ty := .f16 } ++ specialRows b0 (.ext eR) ++ convertRows eR, laneOk lab r := lanes (by decide +kernel)

theorem witness_LaneResults : ∀ r ∈ laneRows { eR with ty := .n32 }, laneOk lab r := lanes (by decide +kernel)

theorem witness_ScalarResults : ∀ r ∈ scalarRows b0 (.ext { eR with ty := .s64 }) { eR with ty := .s64 }, scalarOk lab r := scalars (by decide +kernel)

theorem witness_LaneScalarResults : (∀ r ∈ laneScalarRows { eR with ty := .n32 }, scalarOk lab r) ∧ ∀ r ∈ onceRows { eR with ty := .n32 }, laneOk lab r :=
 ⟨scalars (by decide +kernel), lanes (by decide +kernel)⟩

theorem witness_VoteBallot : (∀ r ∈ voteRows eR, laneOk lab r) ∧ scalarOk lab (ballotRow { eR with dk := true }) := 
 ⟨lanes (by decide +kernel), scalars (l := [ballotRow { eR with dk := true }]) (by decide +kernel) _ (by simp)⟩

/-- A branch by p1. -/
def bb : BaseBranch := { stall := 0, gn := false, gp := 1, off := 4 }

/-- A scalar source. -/
def eFlow : Ext := { eR with ty := .n32, ak := true, a := 2, dk := true }

theorem witness_FlowResults : ∀ r ∈ flowRows 0 bb 0x4000 eFlow, opOk lab r := by
  simp only [flowRows, List.forall_mem_cons]
  refine ⟨?_, ?_, ?_, ?_, ?_, ?_, ?_, ?_, ?_, ?_, fun _ h => by cases h⟩
  all_goals first
    | exact ⟨issues (by decide +kernel), trivial⟩
    | exact ⟨issues (by decide +kernel), by simp only [targetGood]; decide +kernel⟩

theorem witness_FibreInstructions : ∀ r ∈ fibreRows b0 eFlow, opOk lab r := by
  simp only [fibreRows, List.forall_mem_cons]
  refine ⟨?_, ?_, ?_, ?_, ?_, ?_, ?_, ?_, fun _ h => by cases h⟩
  all_goals first
    | exact ⟨issues (by decide +kernel), trivial⟩
    | exact ⟨issues (by decide +kernel), by simp only [noPoison, acked]; decide +kernel⟩

theorem witness_GroupInstructions : ∀ r ∈ groupRows { eFlow with bk := 1, b := 4 }, opOk lab r := by
  simp only [groupRows, List.forall_mem_cons]
  refine ⟨?_, ?_, ?_, ?_, ?_, ?_, ?_, ?_, ?_, ?_, fun _ h => by cases h⟩
  all_goals first
    | exact ⟨issues (by decide +kernel), trivial⟩
    | exact ⟨issues (by decide +kernel), by simp only [noPoison, acked]; decide +kernel⟩

theorem witness_QueueInstructions : ∀ r ∈ queueRows eFlow, opOk lab r := by
  simp only [queueRows, List.forall_mem_cons]
  refine ⟨?_, ?_, ?_, ?_, ⟨issues (by decide +kernel), ?_⟩, ?_, fun _ h => by cases h⟩
  case refine_5 => 
    refine ⟨by simp only [noPoison]; decide +kernel, by decide +kernel, by simp only [acked]; decide +kernel, ?_⟩
    have : ∃ y, (released (lab.issuedBy { issueOf 5 0 eFlow eFlow.len with compare := true, once := true }) [1,2]).readDescriptor ((released (lab.issuedBy { issueOf 5 0 eFlow eFlow.len with compare := true, once := true }) [1, 2]).fibre 1) spd = .ok y := passed (by decide +kernel)
    obtain ⟨⟨d, p, w⟩, h⟩ := this
    exact ⟨d, p, w, h⟩
  all_goals first
    | exact ⟨issues (by decide +kernel), trivial⟩
    | exact ⟨issues (by decide +kernel), by simp only [noPoison, notCommit]; decide +kernel⟩
    | skip

/-- An extended form of s-registers. -/
def eS : Ext := { ext0 with d := 8, a := 2, b := 4, c := 10, ty := .n32, pd := 3, pdv := true, ak := true, dk := true, stall := 2 }

/-- Its form for system instructions. -/
def eSys : Ext := { eS with a := 6, bk := 1, b := 8 }

/-- Its form for accesses: the address in s2. -/
def eM : Ext := { eS with b := 0, c := 2 }

theorem witness_SystemInstructions : ∀ r ∈ systemRows eSys, opOk lab r := by
  simp only [systemRows, eretRow, preqRow, migrRow, privIssue, List.forall_mem_cons]
  refine ⟨?_, ?_, ?_, ?_, ?_, ?_, ?_, ?_, ?_, ?_, ?_, ?_, ?_, ?_, ?_, fun _ h => by cases h⟩
  all_goals first
    | exact ⟨issues (by decide +kernel), trivial⟩
    | exact ⟨issues (by decide +kernel), by dsimp only [noPoison, acked]; decide +kernel⟩

theorem witness_MemoryInstructions : ∀ r ∈ memoryRows eM, opOk lab r := by
  simp only [memoryRows, List.forall_mem_cons]
  have rel (s : State) (us : List Nat) : relPre eM s us := fun h => absurd h (by decide)
  refine ⟨⟨?_, placedRead (wide := fun _ => wideAcq eM) (sel := fun _ ps => ps) (by decide +kernel)⟩,
    ⟨?_, placedRead (wide := fun _ _ _ => false) (sel := fun t ps => ps.filter fun p => t.ldpAbsent (t.fibre p.uid) eM = []) (by decide +kernel)⟩,
    ⟨?_, placedRead (wide := fun _ => wideAcq eM) (sel := fun _ ps => ps) (by decide +kernel)⟩, ⟨?_, rel _ _, ?_⟩, ⟨?_, rel _ _, ?_⟩,
    ⟨?_, rel _ _, ?_, ?_, ?_, ?_⟩, ⟨?_, rel _ _, ?_⟩, ⟨?_, ?_, ?_⟩, ?_, fun _ h => by cases h⟩
  all_goals first
    | exact issues (by decide +kernel)
    | exact placedWith (fun t us ps => storeB us t ps) (fun _ _ _ h => storeOk h) (by decide +kernel)
    | exact placedWith (fun t _ ps => storeB [1, 2] t ps) (fun _ _ _ h => storeOk h) (by decide +kernel)
    | exact placedWith (fun t _ _ => notCommitB t [1, 2]) (fun _ _ _ h => notCommits h) (by decide +kernel)
    | exact ⟨issues (by decide +kernel), by dsimp only [noPoison]; decide +kernel⟩
    | (dsimp only [noPoison]; decide +kernel)
    | (intro u hu; exact passed ((by decide +kernel : ∀ u ∈ lab.activeSet { issueOf 0x23 0 eM eM.len with compare := true, once := true }, passes (decodeWindow ((lab.issuedBy { issueOf 0x23 0 eM eM.len with compare := true, once := true }).ea ((lab.issuedBy { issueOf 0x23 0 eM eM.len with compare := true, once := true }).fibre u) eM) 1 eM.win) = true) u hu))

theorem witness_AtomicInstructions : ∀ x ∈ atomics eM, Issues lab (atomIssue x.2 eM lab) ∧ relPre eM (lab.issuedBy (atomIssue x.2 eM lab)) (lab.activeSet (atomIssue x.2 eM lab)) ∧
    placedPre (usesOf x.2.major x.2.op eM) (atomicAccs eM) false (atomPre x.2 eM) (lab.issuedBy (atomIssue x.2 eM lab)) (lab.activeSet (atomIssue x.2 eM lab)) := by
  simp only [atomics, List.forall_mem_cons]
  have rel (s : State) (us : List Nat) : relPre eM s us := fun h => absurd h (by decide)
  refine ⟨?_, ?_, ?_, ?_, ?_, ?_, ?_, ?_, ?_, ?_, ?_, ?_, ?_, ?_, fun _ h => by cases h⟩
  all_goals exact ⟨issues (by decide +kernel), rel _ _, placedWith (atomB _ eM) (fun _ _ _ h => atomOk h) (by decide +kernel)⟩

theorem witness_FenceInstructions : ∀ r ∈ fenceRows eM, opOk lab r := by
  simp only [fenceRows, List.forall_mem_cons]
  refine ⟨?_, ?_, ?_, ?_, ?_, ?_, fun _ h => by cases h⟩
  all_goals first
    | exact ⟨issues (by decide +kernel), trivial⟩
    | exact ⟨issues (by decide +kernel), fun h => absurd h (by decide)⟩
    | exact ⟨issues (by decide +kernel), by dsimp only [noPoison, acked]; decide +kernel⟩

theorem witness_StoreFrame : ∀ x ∈ storeForms eM, ∃ ps ws t,
    let s1 := lab.issuedBy x.2.1
    let us := lab.activeSet x.2.1
    let s2 := s1.keepWalks (s1.fibre (us.headD 0)) ws
    Issues lab x.2.1 ∧ relPre eM s1 us ∧ x.2.2 s1 us = .ok (ps, ws) ∧ notCommit s2 us ∧ (x.1 ≠ .rst eM → storePre s2 us ps) ∧
    (∀ y, x.1 = .rst y → s1.poisonUse (s1.fibre (us.headD 0)) (usesOf 0x22 1 eM) = none ∧
        noPoison [⟨false, eM.d.toNat, if eM.ty.wide then 2 else 1, true, false⟩] s1 us ∧
        extraOk.redTypeOk ((s1.srcC (s1.fibre (us.headD 0)) eM true).val.toNat / 16 % 8) eM.ty = true) ∧
    Memory.wf lab.mem = true ∧ directFree lab x.1 eM ps ∧ exec x.1 lab = .next t := by
  have rel (s : State) (us : List Nat) : relPre eM s us := fun h => absurd h (by decide)
  have key : ∀ x ∈ storeForms eM, issuesB lab x.2.1 = true ∧ goesOn (exec x.1 lab) = true ∧
      (match x.2.2 (lab.issuedBy x.2.1) (lab.activeSet x.2.1) with
        | .ok (ps, ws) =>
          storeB (lab.activeSet x.2.1) ((lab.issuedBy x.2.1).keepWalks ((lab.issuedBy x.2.1).fibre ((lab.activeSet x.2.1).headD 0)) ws) ps
        | .error _ => false) = true := by
    simp only [storeForms, List.forall_mem_cons]
    refine ⟨⟨?_, ?_, ?_⟩, ⟨?_, ?_, ?_⟩, ⟨?_, ?_, ?_⟩, ⟨?_, ?_, ?_⟩, fun _ h => by cases h⟩
    all_goals decide +kernel
  intro x hx
  obtain ⟨h1, h2, h3⟩ := key x hx
  obtain ⟨t, ht⟩ := next h2
  revert h3
  cases hp : x.2.2 (lab.issuedBy x.2.1) (lab.activeSet x.2.1) with
  | error e => intro h; cases h
  | ok y =>
    obtain ⟨ps, ws⟩ := y
    intro h
    refine ⟨ps, ws, t, issues h1, rel _ _, hp, (storeOk h).1, fun _ => storeOk h, ?_, rfl, fun _ _ _ _ _ _ => rfl, ht⟩
    simp only [storeForms, List.mem_cons, List.not_mem_nil, or_false] at hx
    rcases hx with rfl | rfl | rfl | rfl
    case inr.inr.inl => intro y _; dsimp only [noPoison]; decide +kernel
    all_goals (intro y h; cases h)

theorem witness_AccessTraps : (∀ x ∈ accessForms eM lab, Issues lab x.2.1) ∧ eM.sync < 2 ∧ 
   (let s1 := lab.issuedBy { issueOf 0x21 0 eM eM.len with compare := eM.sync = 2 }
    s1.poisonUse (s1.fibre 1) (usesOf 0x21 0 eM) = none ∧ s1.ea (s1.fibre 1) eM % min 4 16 = 0) := by
  refine ⟨?_, by decide, by decide +kernel⟩
  simp only [accessForms, atomics, List.map, List.cons_append, List.nil_append, List.forall_mem_cons]
  refine ⟨?_, ?_, ?_, ?_, ?_, ?_, ?_, ?_, ?_, ?_, ?_, ?_, ?_, ?_, ?_, ?_, fun _ h => by cases h⟩
  all_goals exact issues (by decide +kernel)

/-- A copy of one sector. -/
def eC : Ext := { ext0 with d := 8, a := 2, b := 12, c := 10, ty := .n32, pd := 3, pdv := true, ak := true, bk := 1, ck := true, dk := true, stall := 2 }

/-- A copy through a tensor descriptor. -/
def eCpyt : Ext := { eC with c := 20 }

/-- A lease of one line for five units. -/
def eLease : Ext := { eC with a := 16, c := 14 }

/-- Barriers: the count is in s12, which is zero. -/
def eTxb : Ext := { eC with c := 12 }

theorem witness_CopyInstructions_cpy : opOk lab (copyRow (.cpy eC) false eC) := by
  unfold copyRow
  refine ⟨issues (by decide +kernel), ?_⟩
  dsimp only [notCommit, cleanLead]
  exact ⟨by decide +kernel, by decide +kernel, by decide +kernel, passed (by decide +kernel), passed (by decide +kernel)⟩

theorem witness_CopyInstructions_cpyt : opOk lab (copyRow (.cpyt eCpyt) true eCpyt) := by
  unfold copyRow
  refine ⟨issues (by decide +kernel), ?_⟩
  dsimp only [notCommit, cleanLead]
  exact ⟨by decide +kernel, by decide +kernel, by decide +kernel, passed (by decide +kernel), passed (by decide +kernel)⟩

theorem witness_CopyInstructions_txb : ∀ r ∈ (copyRows eTxb).drop 3, opOk lab r := by
  simp only [copyRows, txbRow, List.drop_succ_cons, List.drop_zero, List.forall_mem_cons]
  refine ⟨?_, ?_, ?_, ?_, fun _ h => by cases h⟩
  · refine ⟨issues (by decide +kernel), ?_⟩
    dsimp only
    exact ⟨by decide +kernel, passed (by decide +kernel), by decide +kernel⟩
  · refine ⟨issues (by decide +kernel), ?_⟩
    dsimp only
    exact ⟨by decide +kernel, passed (by decide +kernel), by decide +kernel⟩
  · refine ⟨issues (by decide +kernel), ?_⟩
    dsimp only [acked]
    exact ⟨passed (by decide +kernel), by decide +kernel⟩
  · refine ⟨issues (by decide +kernel), ?_⟩
    dsimp only
    exact passed (by decide +kernel)

theorem witness_CopyInstructions_lease : ∀ r ∈ (copyRows eLease).drop 2 |>.take 1, opOk lab r := by
  simp only [copyRows, List.drop_succ_cons, List.drop_zero, List.take_succ_cons, List.take_zero, List.forall_mem_cons]
  refine ⟨?_, fun _ h => by cases h⟩
  refine ⟨issues (by decide +kernel), ?_⟩
  dsimp only [cleanLead]
  exact ⟨by decide +kernel, by decide +kernel, by decide +kernel, by decide +kernel, passed (by decide +kernel)⟩

/-- Each fibre has signed round 0 of c0, whose size is 16. -/
def labMat : State :=
  { lab with fibres := lab.fibres.map (fun f => { f with signed := [(f.cur, 0, 0, false)] }), groups := lab.groups.map fun g => { g with cvs := g.cvs.map fun c => { c with size := 16 } } }

/-- Matrix operands. -/
def eMat : Ext := { ext0 with d := 8, a := 24, b := 26, c := 28, ty := .bf16, pd := 3, pdv := true, ak := true, bk := 1, stall := 2 }

theorem witness_MatrixInstructions : ∀ r ∈ matrixRows eMat, opOk labMat r := by
  simp only [matrixRows, mmaRow, List.forall_mem_cons]
  refine ⟨⟨issues (by decide +kernel), fun u hu => passed (?_ : passes _ = true)⟩, ⟨issues (by decide +kernel), fun u hu => passed (?_ : passes _ = true)⟩,
    ⟨issues (by decide +kernel), ?_⟩, ⟨issues (by decide +kernel), ?_⟩, ⟨issues (by decide +kernel), ?_⟩, fun _ h => by cases h⟩
  · revert u; decide +kernel
  · revert u; decide +kernel
  · dsimp only [notCommit, cleanLead]
    refine ⟨by decide +kernel, by decide +kernel, by decide +kernel, fun _ => ?_⟩
    exact ⟨0, by decide +kernel⟩
  · dsimp only [notCommit, cleanLead]; decide +kernel
  · dsimp only [notCommit, cleanLead]; decide +kernel

theorem witness_MatrixZero : Issues lab (issueOf 0x28 3 eMat eMat.len) ∧ mapWf zeroWord (lab.fibre 1).vregs = true := ⟨issues (by decide +kernel), by decide +kernel⟩

theorem witness_LeaseRelease :
    let i : Issue := { issueOf 0x27 3 eC eC.len with compare := true, once := true }
    let t : State := { lab with leases := [{ part := 0, handle := 0xFD000000, lines := [], expiry := 2000 }] }
    let mine (s : State) (l : Lease) : Bool := l.part == ((s.issuedBy i).fibre ((s.activeSet i).headD 0)).part &&
      l.handle == ((s.issuedBy i).srcA ((s.issuedBy i).fibre ((s.activeSet i).headD 0)) eC true).val.toNat / 2 ^ 32
    Issues t i ∧ (∃ l ∈ (t.issuedBy i).leases, mine t l = true) ∧ Issues lab i ∧ ∀ l ∈ (lab.issuedBy i).leases, mine lab l = false := by
  refine ⟨issues (by decide +kernel), ?_, issues (by decide +kernel), ?_⟩ <;> decide +kernel

/-- A tag in s16 and s4. -/
def eF : Ext := { ext0 with d := 8, a := 16, b := 4, ty := .n32, pd := 3, pdv := true, ak := true, bk := 1, dk := true, stall := 2 }

theorem witness_FutureInstructions : ∀ r ∈ futureRows eF, opOk lab r := by
  simp only [futureRows, futWaitRow, List.forall_mem_cons]
  refine ⟨?_, ?_, ?_, ?_, ?_, ?_, ?_, ?_, ?_, fun _ h => by cases h⟩
  all_goals (refine ⟨issues (by decide +kernel), ?_⟩; dsimp only [notCommit, cleanLead, noPoison]; decide +kernel)

/-- The structure in s30. -/
def eB : Ext := { ext0 with d := 8, a := 20, b := 16, c := 12, ty := .n32, pd := 3, pdv := true, ak := true, bk := 1, ck := true, dk := true, stall := 2 }

theorem witness_BuilderRest : ∀ r ∈ (builderRows eB).drop 6, opOk lab r := by
  simp only [builderRows, jobRows, List.cons_append, List.nil_append, List.drop_succ_cons, List.drop_zero, List.forall_mem_cons]
  refine ⟨?_, ?_, ?_, ?_, ?_, fun _ h => by cases h⟩
  all_goals (refine ⟨issues (by decide +kernel), ?_⟩; dsimp only [notCommit, cleanLead, noPoison, acked]; decide +kernel)

theorem witness_Signature : ∀ r ∈ signatureRows eF, opOk lab r := by
  simp only [signatureRows, List.forall_mem_cons]
  refine ⟨?_, ?_, fun _ h => by cases h⟩
  all_goals exact ⟨issues (by decide +kernel), trivial⟩

end

end Sys2Proof.Tests
end

