-- ==== Sys2Proof/Tests/CoreWitness.lean ====
section
/-! SUPPORT. Witnesses: states that meet the hypotheses of the statements about issue, waves, traps, registers and stores. -/

namespace Sys2Proof.Tests

set_option Elab.async false

open Sys2Proof Sys2Proof.Machine

noncomputable section

/-! ### The step -/

/-- The machine with words where its wave fetches. -/
def labAt (ws : List Word) : State := lab.setBytes 0x201000 (ws.flatMap fun w => leBytes 4 w.toNat)

/-- The machine with its clock settled is at an issue: nothing is due. -/
def quietB (s : State) : Bool :=
  s.dueSlot.isNone && s.ready && s.settle.ready && s.settle.agenda.isEmpty && s.settle.dueTimer.isNone

/-- What the step picks and fetches, with a property of the words. -/
theorem fetches {s : State} (q : List Word → Bool) (h : (match s.settle.makePlan.pick with
      | some c => match (issuing s c).issueWords ((issuing s c).wave.headD Fibre.blank) ((issuing s c).wave.all fun g => g.repLive) with
        | .ok y => q y.1
        | .error _ => false
      | none => false) = true) :
    ∃ c ws w0 walks, s.settle.makePlan.pick = some c ∧
      (issuing s c).issueWords ((issuing s c).wave.headD Fibre.blank) ((issuing s c).wave.all fun g => g.repLive) = .ok (ws, w0, walks) ∧ q ws = true := by
  cases hp : s.settle.makePlan.pick with
  | none => rw [hp] at h; cases h
  | some c =>
    rw [hp] at h
    dsimp only at h
    cases hw : (issuing s c).issueWords ((issuing s c).wave.headD Fibre.blank) ((issuing s c).wave.all fun g => g.repLive) with
    | error e => rw [hw] at h; cases h
    | ok y => rw [hw] at h; exact ⟨c, y.1, y.2.1, y.2.2, rfl, hw, h⟩

/-- IADD v5, v9, by p1. -/
theorem witness_StepRunsInstruction : quietB (labAt [0x08220289]) = true ∧ ∃ c ws w0 walks i rest, (labAt [0x08220289]).settle.makePlan.pick = some c ∧
    (issuing (labAt [0x08220289]) c).issueWords ((issuing (labAt [0x08220289]) c).wave.headD Fibre.blank)
      ((issuing (labAt [0x08220289]) c).wave.all fun g => g.repLive) = .ok (ws, w0, walks) ∧ decode ws = .ok (i, rest) := by
  refine ⟨by decide +kernel, ?_⟩
  obtain ⟨c, ws, w0, wk, h1, h2, h3⟩ := fetches (s := labAt [0x08220289]) (fun ws => passes (decode ws)) (by decide +kernel)
  obtain ⟨⟨i, rest⟩, h4⟩ := passed h3
  exact ⟨c, ws, w0, wk, i, rest, h1, h2, h4⟩

/-- Base word 63 is no instruction. -/
theorem witness_StepRejectsWords : quietB (labAt [0x7C000000]) = true ∧ ∃ c ws w0 walks r, (labAt [0x7C000000]).settle.makePlan.pick = some c ∧
    (issuing (labAt [0x7C000000]) c).issueWords ((issuing (labAt [0x7C000000]) c).wave.headD Fibre.blank)
      ((issuing (labAt [0x7C000000]) c).wave.all fun g => g.repLive) = .ok (ws, w0, walks) ∧ decode ws = .error r := by
  refine ⟨by decide +kernel, ?_⟩
  obtain ⟨c, ws, w0, wk, h1, h2, h3⟩ := fetches (s := labAt [0x7C000000]) (fun ws => !passes (decode ws)) (by decide +kernel)
  cases h4 : decode ws with
  | ok x => rw [h4] at h3; cases h3
  | error r => exact ⟨c, ws, w0, wk, r, h1, h2, h4⟩

/-- A slot start that is due; an event of the agenda; another timer that is due; time alone, before READY and with no wave; and a watchdog that expires. -/
theorem witness_StepRunsEvents :
    ({ lab with timers := [(1000, .replMismatchTimeout 0), (1000, .sinkSlotStart 3)] }.dueSlot = some (.sinkSlotStart 3, [(1000, .replMismatchTimeout 0)])) ∧
    ({ lab with agenda := [.replMismatchTimeout 0] }.dueSlot = none ∧ { lab with agenda := [.replMismatchTimeout 0] }.settle.agenda.head? = some (.replMismatchTimeout 0)) ∧
    ({ lab with timers := [(1000, .replMismatchTimeout 0)] }.dueSlot = none ∧ { lab with timers := [(1000, .replMismatchTimeout 0)] }.settle.agenda.isEmpty ∧
      ({ lab with timers := [(1000, .replMismatchTimeout 0)] }.settle.dueTimer).isSome) ∧
    (State.reset.settle.agenda.isEmpty ∧ State.reset.settle.dueTimer = none ∧ State.reset.settle.makePlan.pick.isNone ∧ State.reset.settle.makePlan.dueExpiry = none) ∧
    (let s : State := { State.reset with timers := [(0, .barrierTimeout ⟨0, 0, 0⟩ 1)] }
     s.settle.agenda.isEmpty ∧ s.settle.dueTimer = none ∧ s.settle.makePlan.pick.isNone ∧ s.settle.makePlan.dueExpiry.isSome) := by
  refine ⟨by decide +kernel, ?_, ?_, ?_, ?_⟩ <;> decide +kernel

/-! ### The shared checks -/

/-- A machine whose wave is not the supervisor's. -/
def labUser : State := { lab with pipes := [{ pipe1 with supervisor := false }] }
/-- A machine in CHECK mode in which an instruction at 0xFF8 with latency 6 has written v2 of the first fibre, at a distance of 2. -/
def labShort : State :=
  { lab with pipes := [{ pipe1 with check := true }]
             fibres := [{ fibreOf 1 0 with sb := [{ kind := 0, num := 2, lat := 6, dist := 2, done := 1004, pc := 0xFF8 }] }, fibreOf 2 1] }

/-- IADD v8, v2 as base word, and with v510 to v513 at the edge of the file of 512. -/
def iaddIssue : Issue := issueOf 2 0 (expandBase 2 0 b0 none) 4
def edge (d : BitVec 9) : Issue := issueOf 0x20 0 { eM with d := d, dk := false, ty := .b64 } 12

/-- The four clauses: v511 and v512 as a pair of a file of 512, a privileged instruction of a user's pipeline, a writer two
instructions away, and an instruction that goes on, with its pair at the last place of the file. -/
theorem witness_GateOrder :
    (∃ f ∈ lab.wave, usesInFile f.win (edge 511).uses = false) ∧
    ((∀ f ∈ labUser.wave, usesInFile f.win (edge 510).uses = true) ∧ { edge 510 with priv := true }.priv = true ∧ ∃ f ∈ labUser.wave, (labUser.pipeOf f).supervisor = false) ∧
    ((∀ f ∈ labShort.wave, usesInFile f.win (issueOf 8 0 (expandBase 8 0 b0 none) 4).uses = true) ∧
      ∃ f ∈ labShort.wave, meetsShort labShort (issueOf 8 0 (expandBase 8 0 b0 none) 4) f = true) ∧
    (∀ f ∈ lab.wave, usesInFile f.win (edge 510).uses = true) ∧ nothingPending lab := by
  refine ⟨by decide +kernel, ⟨by decide +kernel, rfl, by decide +kernel⟩, ⟨by decide +kernel, by decide +kernel⟩, by decide +kernel, ?_⟩
  unfold nothingPending
  decide +kernel

/-- A load to a pair that does not fit; and a form whose guard p2 is false in both fibres. -/
theorem witness_SharedChecks : ∃ x i t, Instr.issue? x = some i ∧ lab.gate i = .trap t :=
  ⟨.ld { eM with d := 511, dk := false, ty := .b64 }, _, _, rfl, rfl⟩
theorem witness_GuardFalse : ∃ x i, Instr.issue? x = some i ∧ lab.gate i = .go ∧ lab.activeSet i = [] :=
  ⟨.iaddBase { b0 with gp := 2 }, _, rfl, by decide +kernel, by decide +kernel⟩
theorem witness_IssueFrame : lab.waveFound ∧ 1 ∈ lab.cur ∧ 7 ∉ lab.cur := by
  refine ⟨?_, by decide, by decide⟩
  unfold State.waveFound
  decide +kernel
/-- Outside a REP, with a repeat left, and at the last repeat. -/
theorem witness_WaveAdvance :
    let rep (n : Nat) : State := { lab with fibres := lab.fibres.map fun f => { f with repLive := true, repcnt := n, repLen := 4 } }
    (lab.waveFound ∧ (lab.fibre 1).repLive = false) ∧ ((rep 2).waveFound ∧ ((rep 2).fibre 1).repLive = true ∧ 1 < ((rep 2).fibre 1).repcnt) ∧
    (rep 1).waveFound ∧ ((rep 1).fibre 1).repLive = true ∧ ((rep 1).fibre 1).repcnt ≤ 1 := by
  unfold State.waveFound
  decide +kernel

/-! ### Traps -/

/-- A trap with a record, of a fibre that exists, and one that does not; a log whose next write meets an error, and one whose next write meets none. -/
theorem witness_TakeTrap : causeClass 0x0003 ≠ 0 ∧ (∃ f ∈ lab.fibres, f.uid = 1) ∧ 7 ∉ [1, 2] ∧ lab.logError 0 = none ∧
    ({ lab with errors := [(.logWrite 0 true, none)], parts := { part0 with errlog := 6 } :: List.replicate 15 Partition.reset } : State).logError 0 = some true := by
  decide +kernel
/-- One sleeping fibre of the supervisor, and none. -/
theorem witness_ErrorWake :
    let s : State := { lab with fibres := [{ fibreOf 1 0 with st := .sleeping }, fibreOf 2 1] }
    ((s.pipe 0 9).supervisor = false ∧ (s.partn 0).mode.getLsbD 3 = false ∧ 0 < s.parts.length ∧ (∃ f ∈ s.fibres, f.uid = 1) ∧
      (s.fibre 1).part = 0 ∧ (s.fibre 1).st = .sleeping ∧ (s.pipeOf (s.fibre 1)).supervisor = true) ∧
    ∀ f ∈ lab.fibres, ¬ (f.part = 0 ∧ f.st = .sleeping ∧ (lab.pipeOf f).supervisor = true) := by decide +kernel
theorem witness_EretReturns (a : Option Nat) : ∃ f h l, Fibre.hold f = some h ∧ h.len = some l ∧ h.answer = a ∧ Fibre.blank.hold = none :=
  ⟨{ Fibre.blank with hold := some { cause := 4, answer := a, len := some 12, debugger := false } }, _, 12, rfl, rfl, rfl, rfl⟩

/-! ### Registers, memory, stores -/

theorem witness_RegisterLaws : mapWf zeroWord (lab.fibre 1).vregs = true ∧ mapWf zeroDWord (lab.group ⟨0, 5, 0⟩).sregs = true := by decide +kernel
theorem witness_MemoryLaws : Memory.wf lab.mem = true := by decide +kernel
/-- REP with the IADD at the address that follows. -/
theorem witness_SignatureAndRepeat : opOk (labAt [0x00020F00, 0x08200410]) (repRow { stall := 0, cnt := 1, md := true, ma := true, mb := true, mc := false }) :=
  ⟨issues (by decide +kernel), by decide +kernel, passedWith (fun ws _ => repAllows { stall := 0, cnt := 1, md := true, ma := true, mb := true, mc := false } ws) (by decide +kernel)⟩
/-- A place of the scratchpad, and the last bytes of a word of cached memory. -/
theorem witness_StoreEffects :
    let l : Loc := { (pteOf page0.entry.toNat).loc 0x1002 with vers := false }
    (∃ k : Loc, k.cached = false ∧ k.vers = false ∧ isPeer k = false ∧ lab.owner 0 k.key k.grain = none) ∧ Memory.wf lab.mem = true ∧
    l.cached = true ∧ l.vers = false ∧ isPeer l = false ∧ l.key % 4 + 2 ≤ 4 ∧ ∃ o, (lab.storeAt (lab.fibre 1) l [1]).l1Word (lab.coreOf (lab.fibre 1)) 0 l.key = some o := by
  refine ⟨⟨{ (pteOf page0.entry.toNat).loc 0x1002 with vers := false, cached := false }, by decide +kernel⟩, by decide +kernel, by decide +kernel, by decide +kernel, by decide +kernel, by decide +kernel, ?_⟩
  exact Option.isSome_iff_exists.mp (by decide +kernel)

/-! ### The traps of operands -/

/-- A poisoned address; one that is no multiple of 4; and a window whose first address is the last byte of the one before it. -/
def labS2 (x : PDWord) : State := { lab with groups := lab.groups.map fun g => { g with sregs := g.sregs.map fun r => if r.1 = 2 then (2, x) else r } }

/-- A load that each clause reaches: poison first, whatever the address; an address one past a multiple of 4; and, at multiples of 4, a window of
1 MiB named by the instruction that the address has just left, and the first address past 57 bits. -/
theorem witness_AccessTraps_clauses :
    let ld (e : Ext) : Issue := { issueOf 0x20 0 e e.len with once := e.sync = 1, take := takeAcquire e }
    let f (s : State) (e : Ext) : Fibre := (s.issuedBy (ld e)).fibre ((s.activeSet (ld e)).headD 0)
    let clean (s : State) (e : Ext) : Bool := issuesB s (ld e) && decide ((s.issuedBy (ld e)).poisonUse (f s e) (addrUses e) = none)
    let ea (s : State) (e : Ext) : Nat := (s.issuedBy (ld e)).ea (f s e) e
    let s1 := labS2 ⟨BitVec.ofNat 64 (spd + 1), true⟩
    let s2 := labS2 ⟨BitVec.ofNat 64 (spd + 1), false⟩
    let s3 := labS2 ⟨0x100000, false⟩
    let s4 := labS2 ⟨0x200000000000000, false⟩
    let e3 : Ext := { eM with mod := 8 }
    (issuesB s1 (ld eM) && ((s1.issuedBy (ld eM)).poisonUse (f s1 eM) (addrUses eM)).isSome) = true ∧
    (clean s2 eM && decide (ea s2 eM % min (accessBytes eM) 16 ≠ 0)) = true ∧
    (clean s3 e3 && decide (ea s3 e3 % min (accessBytes e3) 16 = 0) && !passes (decodeWindow (ea s3 e3) (accessBytes e3) e3.win)) = true ∧
    (clean s4 eM && decide (ea s4 eM % min (accessBytes eM) 16 = 0) && !passes (decodeWindow (ea s4 eM) (accessBytes eM) eM.win)) = true := by decide +kernel

/-- A check that ends in a trap. -/
def trapsB : Except Stop Unit → Bool | .error (.trap _) => true | _ => false

/-- Poison in s2 or v2, which each form reads; an address that is no multiple of 16, or not canonical; an entry address and a descriptor address one
byte and one word too far; an enabled flag. -/
theorem witness_OperandTraps :
    let s1 : State := { labS2 ⟨0, true⟩ with fibres := lab.fibres.map fun f => f.setV 2 ⟨0, true⟩ }
    let s2 := labS2 ⟨BitVec.ofNat 64 (spd + 1), false⟩
    let s3 := labS2 ⟨BitVec.ofNat 64 (spd + 4), false⟩
    let s5 := labS2 ⟨0x200000000000001, false⟩
    let s4 : State := { lab with fibres := lab.fibres.map fun f => { f with flags := 2, ftz := 0x200000000 } }
    let spawn : Issue := { issueOf 2 5 eM eM.len with once := true, take := takeSpawn }
    let launch : Issue := { issueOf 5 0 eM eM.len with compare := true, once := true }
    let addr (s : State) (i : Issue) (u : Nat) : Nat := ((s.issuedBy i).srcA ((s.issuedBy i).fibre u) eM true).val.toNat
    (∀ x ∈ poisonForms { eM with b := 4, bk := 1 }, issuesB s1 x.2.1 = true ∧
      ((s1.activeSet x.2.1).findSome? fun u => (s1.issuedBy x.2.1).poisonUse ((s1.issuedBy x.2.1).fibre u) x.2.2).isSome = true) ∧
    (∀ x ∈ laneForms { eM with b := 4, bk := 1 }, issuesB s1 x.2.1 = true ∧ (s1.activeSet x.2.1).isEmpty = false ∧
      ((s1.issuedBy x.2.1).poisonUse ((s1.issuedBy x.2.1).fibre ((s1.activeSet x.2.1).headD 0)) x.2.2.1).isSome = true ∧
      issuesB s5 x.2.1 = true ∧ (s5.activeSet x.2.1).isEmpty = false ∧
      ((s5.issuedBy x.2.1).poisonUse ((s5.issuedBy x.2.1).fibre ((s5.activeSet x.2.1).headD 0)) x.2.2.1).isNone = true ∧
      trapsB (x.2.2.2 (s5.issuedBy x.2.1) ((s5.issuedBy x.2.1).fibre ((s5.activeSet x.2.1).headD 0))) = true) ∧
    (issuesB s2 spawn = true ∧ (s2.activeSet spawn).all (fun u => ((s2.issuedBy spawn).poisonUse ((s2.issuedBy spawn).fibre u)
        (slotUse (.vs .pair 1) eM.ak eM.a true false eM ++ bSlotUse (.src [0, 1, 2] .one 1 false true) eM)).isNone) = true ∧
      ((s2.activeSet spawn).find? fun u => addr s2 spawn u % 4 != 0).isSome = true) ∧
    (issuesB s3 launch = true ∧ addr s3 launch ((s3.activeSet launch).headD 0) % 64 ≠ 0) ∧
    issuesB s4 (issueOf 6 7 eM eM.len) = true ∧
      ((s4.activeSet (issueOf 6 7 eM eM.len)).find? fun u => ((s4.issuedBy (issueOf 6 7 eM eM.len)).fibre u).flags &&&
        ((s4.issuedBy (issueOf 6 7 eM eM.len)).fibre u).ftz.extractLsb' 32 5 != 0).isSome = true := by
  refine ⟨?_, ?_, by decide +kernel, by decide +kernel, by decide +kernel⟩
  · simp only [poisonForms, List.forall_mem_cons]
    refine ⟨?_, ?_, ?_, ?_, ?_, ?_, ?_, fun _ h => by cases h⟩
    all_goals decide +kernel
  · simp only [laneForms, List.forall_mem_cons]
    refine ⟨?_, ?_, ?_, fun _ h => by cases h⟩
    all_goals decide +kernel

end

end Sys2Proof.Tests
end

