-- ==== Sys2Proof/Tests/RenderWitness.lean ====
section
/-! SUPPORT. Witnesses: states and operands that meet the hypotheses of the statements about rays, textures and builder jobs. -/

namespace Sys2Proof.Tests

set_option Elab.async false

open Sys2Proof Sys2Proof.Machine

noncomputable section

/-- A job: its descriptor in s20. -/
def eJob : Ext := { ext0 with d := 8, a := 20, b := 16, c := 12, ty := .n32, pd := 3, pdv := true, ak := true, bk := 1, ck := true, dk := true, stall := 2 }

/-- The structure in s30. -/
def eRay : Ext := { ext0 with d := 40, a := 30, b := 30, c := 12, ty := .n32, pd := 3, pdv := true, ak := true, bk := 1, ck := true, stall := 2 }

/-- The view record in s32. -/
def eBeam : Ext := { eRay with d := 8, b := 32, dk := true }

/-- The texture descriptor in s34. -/
def eTex : Ext := { eRay with b := 34 }

/-- The atlas descriptor in s36. -/
def eAtl : Ext := { eRay with a := 2, b := 36 }

/-- A placed ray of the first fibre, shown or not. -/
def ray0 (shown : Bool) : Ray :=
  { id := 7, part := 0, uid := 1, lead := 1, core := 0, repl := 0, ctx := 0, gen := 1, tag := 0, words := List.replicate 8 0, ctl := 0, bound := true, dst := 0
    placed := true, decisions := [], shown := shown, ready := none, call := 6, pc := 0, eng := EngineWait.idle }

/-- Both fibres are bound to rays. -/
def labHit (shown : Bool) : State :=
  { lab with fibres := lab.fibres.map (fun f => { f with boundRay := some (6 + f.uid) }), rays := [ray0 shown, { ray0 shown with id := 8, uid := 2 }] }

theorem bound_rays (shown : Bool) (s : State) (us : List Nat) (h : us.all (fun u => match s.bound? (s.fibre u) with | some r => r.shown == shown | none => false) = true) :
    boundRays shown s us := by
  intro u hu
  have := (List.all_eq_true.mp h) u hu
  cases hb : s.bound? (s.fibre u) with
  | none => rw [hb] at this; cases this
  | some r => rw [hb] at this; exact ⟨r, rfl, by simpa using this⟩

theorem witness_RayInstructions_trace (x : Instr) (hx : x = .trace eRay ∨ x = .traceAh eRay) : opOk lab (traceRow x (x == .traceAh eRay) eRay) := by
  rcases hx with rfl | rfl
  · unfold traceRow
    refine ⟨issues (by decide +kernel), ?_⟩
    dsimp only [notCommit, noPoison]
    refine ⟨by decide +kernel, by decide +kernel, fun u hu => passed (?_ : passes _ = true)⟩
    revert u; decide +kernel
  · unfold traceRow
    refine ⟨issues (by decide +kernel), ?_⟩
    dsimp only [notCommit, noPoison]
    refine ⟨by decide +kernel, by decide +kernel, fun u hu => passed (?_ : passes _ = true)⟩
    revert u; decide +kernel

theorem witness_RayInstructions_hits : opOk (labHit true) (hitRow (.hitacc eRay) 2 1 eRay) ∧ opOk (labHit true) (hitRow (.hitrej eRay) 3 0 eRay) ∧ opOk (labHit true) (hitRow (.hitend eRay) 4 2 eRay) := by
  refine ⟨⟨issues (by decide +kernel), ?_⟩, ⟨issues (by decide +kernel), ?_⟩, ⟨issues (by decide +kernel), ?_⟩⟩
  all_goals exact ⟨by dsimp only [notCommit]; decide +kernel, bound_rays _ _ _ (by decide +kernel), by unfold portOpen; decide +kernel⟩

/-- The checks of a BEAM that finds its translations kept, as a Bool. -/
def beamOk (s : State) (f : Fibre) (e : Ext) : Bool :=
  match s.place f (viewAcc s f e) with
  | .error _ => false
  | .ok (ps, ws) =>
    match parseView (s.plainPieces f ps).1 with
    | some v => ws.isEmpty && !(s.plainPieces f ps).2 && bits (s.sC f e).toNat 40 2 != 3 && passes (s.useGen f (s.sA f e) none) && passes (s.beamRows f v (s.sC f e) 0 8)
    | none => false

theorem beam {s : State} {f : Fibre} {e : Ext} (h : beamOk s f e = true) :
    ∃ ps ws v c g rows, s.place f (viewAcc s f e) = .ok (ps, ws) ∧ (s.plainPieces f ps).2 = false ∧ parseView (s.plainPieces f ps).1 = some v ∧
      bits (s.sC f e).toNat 40 2 ≠ 3 ∧ (s.keepWalks f ws).useGen f (s.sA f e) none = .ok (c, g) ∧
      (s.keepWalks f ws).beamRows f v (s.sC f e) 0 8 = .ok rows := by
  unfold beamOk at h
  cases hp : s.place f (viewAcc s f e) with
  | error x => rw [hp] at h; cases h
  | ok x =>
    obtain ⟨ps, ws⟩ := x
    rw [hp] at h
    dsimp only at h
    cases hv : parseView (s.plainPieces f ps).1 with
    | none => rw [hv] at h; cases h
    | some v =>
      rw [hv] at h
      simp only [Bool.and_eq_true, List.isEmpty_iff, bne_iff_ne, Bool.not_eq_true'] at h
      obtain ⟨⟨⟨⟨rfl, h1⟩, h2⟩, h3⟩, h4⟩ := h
      obtain ⟨⟨c, g⟩, h3⟩ := passed h3
      obtain ⟨rows, h4⟩ := passed h4
      exact ⟨ps, [], v, c, g, rows, rfl, h1, hv, h2, h3, h4⟩

theorem witness_RayInstructions_beam : ∀ r ∈ (rayRows eBeam).drop 6 |>.take 1, opOk lab r := by
  simp only [rayRows, List.drop_succ_cons, List.drop_zero, List.take_succ_cons, List.take_zero, List.forall_mem_cons]
  refine ⟨?_, fun _ h => by cases h⟩
  refine ⟨issues (by decide +kernel), ?_⟩
  dsimp only [notCommit, noPoison]
  exact ⟨by decide +kernel, by decide +kernel, by unfold portOpen; decide +kernel, beam (by decide +kernel)⟩

/-- The view record carries a memory-error mark. -/
def labMarked : State := { lab with poisoned := [spdKey 0 1024 / 4, spdKey 0 2048 / 4, spdKey 0 3072 / 4] }

theorem witness_RayInstructions_beamMarked : ∀ r ∈ (rayRows eBeam).drop 7, opOk labMarked r := by
  simp only [rayRows, List.drop_succ_cons, List.drop_zero, List.take_succ_cons, List.take_zero, List.forall_mem_cons]
  refine ⟨?_, fun _ h => by cases h⟩
  refine ⟨issues (by decide +kernel), ?_⟩
  dsimp only [notCommit, noPoison]
  refine ⟨by decide +kernel, by decide +kernel, ?_⟩
  exact passedWith (fun ps _ => (State.plainPieces _ _ ps).2) (by decide +kernel)

theorem witness_RayInstructions_rayget : ∀ r ∈ (rayRows eRay).drop 2 |>.take 1, opOk (labHit false) r := by
  simp only [rayRows, List.drop_succ_cons, List.drop_zero, List.take_succ_cons, List.take_zero, List.forall_mem_cons]
  exact ⟨⟨issues (by decide +kernel), by dsimp only [notCommit]; decide +kernel, bound_rays _ _ _ (by decide +kernel), by unfold portOpen; decide +kernel⟩, fun _ h => by cases h⟩

/-- A descriptor that is read, as a Bool. -/
def texOk (s : State) (f : Fibre) (va : Nat) (bad : Bool) : Bool :=
  match s.readTex f va with
  | .ok (d, b, _) => d == 0 && b == bad
  | .error _ => false

theorem texRead {s : State} {f : Fibre} {va : Nat} {bad : Bool} (h : texOk s f va bad = true) : ∃ t, s.readTex f va = .ok (0, bad, t) := by
  unfold texOk at h
  cases hx : s.readTex f va with
  | error e => rw [hx] at h; cases h
  | ok x =>
    obtain ⟨d, b, t⟩ := x
    rw [hx] at h
    simp only [Bool.and_eq_true, beq_iff_eq] at h
    exact ⟨t, by rw [h.1, h.2]⟩

theorem texGood {s : State} {f : Fibre} {va : Nat} {atl : Bool} (ha : atl = false) (h : texOk s f va false = true) :
    ∃ desc bad t, s.readTex f va = .ok (desc, bad, t) ∧ descGood atl desc bad := by
  obtain ⟨t, ht⟩ := texRead h
  exact ⟨0, false, t, ht, .inr ⟨_, rfl, fun h => by rw [ha] at h; cases h⟩⟩

theorem texqGood {s : State} {f : Fibre} {va : Nat} (h : texOk s f va false = true) : ∃ desc t x, s.readTex f va = .ok (desc, false, t) ∧ parseTex desc = some x := by
  obtain ⟨t, ht⟩ := texRead h
  exact ⟨0, t, _, ht, rfl⟩

theorem witness_TextureInstructions_tex : opOk lab (texRow (.tex eTex) 0 eTex) ∧ opOk lab (texRow (.texg eTex) 1 eTex) := by
  unfold texRow
  refine ⟨⟨issues (by decide +kernel), ?_⟩, ⟨issues (by decide +kernel), ?_⟩⟩
  all_goals
    dsimp only [notCommit, noPoison]
    exact ⟨by decide +kernel, by decide +kernel, texGood (by decide) (by decide +kernel)⟩

theorem witness_TextureInstructions_texq : (∀ r ∈ (textureRows eTex).drop 2 |>.take 1, opOk lab r) ∧ ∀ r ∈ (textureRows eTex).drop 3, opOk labMarked r := by
  simp only [textureRows, List.drop_succ_cons, List.drop_zero, List.take_succ_cons, List.take_zero, List.forall_mem_cons]
  refine ⟨⟨⟨issues (by decide +kernel), ?_⟩, fun _ h => by cases h⟩, ⟨⟨issues (by decide +kernel), ?_⟩, fun _ h => by cases h⟩⟩
  all_goals dsimp only [notCommit, noPoison, portOpen]; refine ⟨by decide +kernel, by decide +kernel, by decide +kernel, ?_⟩
  · exact texqGood (by decide +kernel)
  · exact texRead (by decide +kernel)

/-- At 0x9000 of global memory lies an atlas descriptor of four slots, its table at 0x8000, which s36 names. -/
def labAtlas : State :=
  { lab with mem := [(devKey 0x209001, 0x80), (devKey 0x209008, 6), (devKey 0x20900C, 4)], groups := lab.groups.map fun g => g.setS 36 ⟨0x9000, false⟩ }

theorem witness_TextureInstructions_atlas : ∀ r ∈ atlasRows eAtl, opOk labAtlas r := by
  simp only [atlasRows, atlasRow, List.forall_mem_cons]
  refine ⟨⟨issues (by decide +kernel), ?_⟩, ⟨issues (by decide +kernel), ?_⟩, fun _ h => by cases h⟩
  all_goals
    dsimp only [notCommit, noPoison, portOpen]
    exact ⟨by decide +kernel, by decide +kernel, by decide +kernel, by decide +kernel, passed (by decide +kernel)⟩

/-- A descriptor that is read without a mark and accepted (R337). -/
theorem jobRead {s : State} {f : Fibre} {a : Acc} {kind : Nat} (h : (match s.place f a with
      | .ok x => !(s.plainPieces f x.1).2 && jobDescOk (ofLeBytes (s.plainPieces f x.1).1) kind f.tag
      | .error _ => false) = true) :
    ∃ ps ws, s.place f a = .ok (ps, ws) ∧ (s.plainPieces f ps).2 = false ∧ jobDescOk (ofLeBytes (s.plainPieces f ps).1) kind f.tag = true := by
  cases hp : s.place f a with
  | error e => rw [hp] at h; cases h
  | ok x =>
    rw [hp] at h
    simp only [Bool.and_eq_true, Bool.not_eq_true'] at h
    exact ⟨x.1, x.2, rfl, h.1, h.2⟩

theorem witness_BuilderInstructions_jobs : ∀ x ∈ [(.bldBuild eJob, 0), (.bldRefit eJob, 1), (.bldRebal eJob, 2)],
    opOk lab ((jobRows x.1 x.2 eJob)[0]'(by simp [jobRows])) ∧ opOk labMarked ((jobRows x.1 x.2 eJob)[1]'(by simp [jobRows])) := by
  simp only [List.forall_mem_cons]
  refine ⟨?_, ?_, ?_, fun _ h => by cases h⟩
  all_goals
    refine ⟨⟨issues (by decide +kernel), ⟨?_, ?_⟩, ?_⟩, ⟨issues (by decide +kernel), ⟨?_, ?_⟩, ?_⟩⟩
    · dsimp only [notCommit]; decide +kernel
    · dsimp only [noPoison]; decide +kernel
    · exact jobRead (by decide +kernel)
    · dsimp only [notCommit]; decide +kernel
    · dsimp only [noPoison]; decide +kernel
    · exact passedWith (fun ps _ => (State.plainPieces _ _ ps).2) (by decide +kernel)

end

end Sys2Proof.Tests
end

