-- ==== Sys2Proof/Tests/EngineWitness.lean ====
section
/-! SUPPORT. Witnesses: states that meet the hypotheses of the statements about the events of engines, futures, replicas, queues and
memory, clause by clause. -/

namespace Sys2Proof.Tests

set_option Elab.async false

open Sys2Proof Sys2Proof.Machine

noncomputable section

/-! ### Rendering -/

/-- The read of one node from an arena of at most one byte, mapped to a cacheable DIRECT page of the device, without a mark. -/
theorem arenaGood (s : State) (f : Fibre) (ctx node : Nat) (c : StructCtx) (hc : s.structCtx f.part ctx = some c) (h : (match s.translate f c.arena c.arena 1 with
      | .error _ => false
      | .ok x =>
        let p := pteOf x.1
        decide (max 1 c.size = 1) && c.arena % 32 == 0 && !(p.host || p.vers || !p.cached) && decide ((p.loc c.arena).key % spaceSize < deviceSize) &&
          !s.memPoison (p.loc c.arena).key) = true) : s.arenaReads f [(ctx, node)] = (.data [] false, s) := by
  unfold State.arenaReads
  rw [hc]
  dsimp only
  unfold State.arenaPlace
  dsimp only
  revert h
  have hm : ∀ x y : Nat, max 1 c.size = 1 → y + x % max 1 c.size / 32 * 32 = y := by intro x y h; rw [h, Nat.mod_one]; rfl
  cases ht : s.translate f c.arena c.arena 1 with
  | error e => intro h; cases h
  | ok x =>
    intro h
    simp only [Bool.and_eq_true, decide_eq_true_eq, Bool.not_eq_true', Bool.or_eq_false_iff] at h
    obtain ⟨⟨⟨⟨h1, -⟩, ⟨h2, h3⟩, h4⟩, h5⟩, h6⟩ := h
    rw [hm _ _ h1, ht]
    dsimp only
    rw [if_neg (by simp [h2, h3, h4]), if_neg (by omega)]
    dsimp only
    rw [h6]
    rfl

/-- A traversal that reads the nodes given, all of which can be read. -/
theorem nodesRead {s : State} {f : Fibre} {l k : List (Nat × Nat)} (h : l = k) (hk : s.arenaReads f k = (.data [] false, s)) :
    s.arenaReads f l = (.data [] false, s) := by rw [h]; exact hk

/-- A triangle that is not opaque, in the plane z = 1, in the path of a ray from (0.25, 0.25, 0) along z. -/
def hitData : GenData :=
  { nodes := [{ id := 1, lo := [0, 0, 0x3F800000], hi := [0x3F800000, 0x3F800000, 0x3F800000], kids := [], prims := [0] }]
    tris := [{ geom := 0, prim := 0, isOpaque := false, verts := [0, 0, 0x3F800000, 0x3F800000, 0, 0x3F800000, 0, 0x3F800000, 0x3F800000] }]
    insts := [], counts := [], sah := 0, overlap := 0, refits := 0, degen := 0, baseSah := 0 }
def hitRay : Ray := { ray0 false with bound := true, words := [0x3E800000, 0x3E800000, 0, 0, 0, 0, 0x3F800000, 0x42C80000], ctl := 0xFF }
def labTri : State :=
  { lab with rays := [hitRay], structs := [{ ctx0 with top := false, gens := ctx0.gens.map fun g => { g with data := hitData } }] }
/-- A machine with a vertical port. -/
def labPort (w : List (Nat × Nat)) (b : List (Nat × Nat × Option Nat)) (rs : List Ray) : State :=
  { lab with rays := rs, vports := [{ part := 0, core := 0, window := w, backoff := b }] }
def beam0 : Beam :=
  { id := 7, part := 0, pipe := 1, uid := 1, grp := 5, repl := 0, token := 8, tag := 0, ctx := 0, gen := 1, uids := [1], rows := [(0, { key := 0x300000, vers := true, cached := true, grain := 64 })], data := [List.replicate 128 0]
    hits := 0, reads := [], got := none, placed := true, call := 1, pc := 0x1000, eng := EngineWait.idle, stuck := none }
def x0 : Tex := { fmt := 0, mips := 0, w := 1, h := 1, base := 0 }
def gather0 : Gather :=
  { id := 7, uid := 1, lead := 1, part := 0, core := 0, repl := 0, minor := 0, mod := 0, dst := 40, coords := [0, 0, 0], desc := 0, bad := false, sampler := 0, tag := 0, placed := true
    call := 1, pc := 0x1000, eng := EngineWait.idle }
/-- The texels that the request reads. -/
def texels : List (Nat × Nat × Nat) :=
  let plan := texPlan x0 (gather0.minor = 1) (gather0.mod.getLsbD 1) gather0.sampler gather0.coords
  ((plan.map fun p => p.reads (gather0.minor = 1)).getD []).eraseDups

/-- A request that arrives, one that meets a full engine for the second time; a back-off whose clock has just come; traversals that end, of a
bound and of an unbound ray, and one that presents a candidate; a BEAM that reads its nodes, one that has read them, and a texture request that
completes. -/
theorem witness_RenderEvents :
    let p (s : State) : VPort := s.vport 0 0
    let full : List Ray := (List.range 1024).map fun k => { ray0 false with id := k }
    let s1 := labPort [(0, 7)] [(1, 1, some 2000)] [ray0 false]
    let s2 := labPort [(0, 7)] [(0, 1, none)] full
    let s3 := labPort [] [(0, 1, some 1000)] []
    let runs (s : State) (r : Ray) : Prop := s.rays.find? (fun x => x.id == 7) = some r ∧ s.rayRuns r = true ∧
      s.arenaReads (s.onBehalf r.uid r.tag r.eng) (s.traverseRay r).seen = (.data [] false, s)
    let s4 : State := { lab with rays := [{ ray0 false with bound := false }] }
    let s5 : State := { lab with rays := [ray0 false] }
    ((p s1).window.find? (fun x => !(p s1).waits x.1) = some (0, 7) ∧ ¬ 1024 ≤ s1.raySlots 0 0) ∧
    ((p s2).window.find? (fun x => !(p s2).waits x.1) = some (0, 7) ∧ (s2.rays.any fun r => r.id == 7) = true ∧ 1024 ≤ s2.raySlots 0 0) ∧
    ((0, 1, some 1000) ∈ (p s3).backoff ∧ 1000 ≤ s3.clock) ∧
    (runs s4 { ray0 false with bound := false } ∧ (s4.traverseRay { ray0 false with bound := false }).shown = none) ∧
    (runs s5 (ray0 false) ∧ (s5.traverseRay (ray0 false)).shown = none) ∧
    (runs labTri hitRay ∧ (labTri.traverseRay hitRay).shown.isSome = true) ∧
    (let s : State := { lab with beams := [beam0] }
     s.beams.find? (fun x => x.id == 7 && x.placed && x.eng.wait == .none) = some beam0 ∧ beam0.got = none ∧
      s.arenaReads (s.onBehalf beam0.uid beam0.tag beam0.eng) beam0.reads = (.data [] false, s)) ∧
    (let b : Beam := { beam0 with got := some true }
     let s : State := { lab with beams := [b] }
     s.beams.find? (fun x => x.id == 7 && x.placed && x.eng.wait == .none) = some b ∧ b.got = some true ∧ s.allAcked b.uids = true ∧ ∃ t, s.beamWays b = some t) ∧
    ∃ xs t, { lab with gathers := [gather0] }.gatherRuns gather0 = true ∧ gather0.bad = false ∧ parseTex gather0.desc = some x0 ∧
      { lab with gathers := [gather0] }.readTexels gather0 x0 texels =
        (xs, none, t, none) := by
  refine ⟨by decide +kernel, by decide +kernel, by decide +kernel, ⟨⟨by decide +kernel, by decide +kernel, nodesRead (k := []) (by decide +kernel) rfl⟩, by decide +kernel⟩,
    ⟨⟨by decide +kernel, by decide +kernel, nodesRead (k := []) (by decide +kernel) rfl⟩, by decide +kernel⟩,
    ⟨⟨by decide +kernel, by decide +kernel, nodesRead (k := [(0, 1)]) (by decide +kernel)
      (arenaGood _ _ _ _ { ctx0 with top := false, gens := ctx0.gens.map fun g => { g with data := hitData } } (by decide +kernel) (by decide +kernel))⟩, by decide +kernel⟩,
    ⟨by decide +kernel, by decide +kernel, rfl⟩, ⟨by decide +kernel, by decide +kernel, by decide +kernel, Option.isSome_iff_exists.mp (by decide +kernel)⟩, ?_⟩
  · have h : ∀ r : List ((Nat × Nat × Nat) × Option (List FV)) × Option Fetched × State × Option Trap, r.2.1 = none → r.2.2.2 = none → ∃ xs t, r = (xs, none, t, none) := by
      rintro ⟨a, b, c, d⟩ h1 h2
      exact ⟨a, c, by simp at h1 h2; rw [h1, h2]⟩
    obtain ⟨xs, t, h⟩ := h ({ lab with gathers := [gather0] }.readTexels gather0 x0 texels)
      (by decide +kernel) (by decide +kernel)
    exact ⟨xs, t, by decide +kernel, rfl, by decide +kernel, h⟩

/-! ### The builder -/

/-- A full build of a structure of instances from an input of one entry. -/
def job0 (handle input : Nat) : Job :=
  { id := 7, part := 0, pipe := 1, uids := [1], grp := 5, repl := 0, token := 8, kind := 0, desc := [BitVec.ofNat 32 handle, 1, 0, BitVec.ofNat 32 input, BitVec.ofNat 32 (input / 2 ^ 32)]
    ctx := 0, fresh := false, tag := 0, addr := spd, pc := 0x1000, eng := EngineWait.idle, growWait := false, refused := false }
/-- A structure whose arena has 65,536 bytes. -/
def ctx1 : StructCtx := { ctx0 with size := 65536, original := 65536 }
def labJob (j : Job) : State := { lab with jobs := [j], structs := [ctx1] }
def jobRead1 (j : Job) : Reading × List Nat := (labJob j).readInstances ((labJob j).onBehalf 1 0 j.eng) j.d

def job2 : Job := job0 0x1800 0x200000000000000
def job3 : Job := job0 0x1800 0x1000
/-- Its turn has come. -/
def runsJob (s : State) (j : Job) : Bool := s.jobs.find? (fun x => x.id == 7) == some j && s.jobRuns j

/-- Every context is in use. -/
def labFull : State := { labJob (job0 0 0x1000) with structs := (List.range 1024).map fun k => { ctx0 with idx := k } }

/-- A job for a new structure with a context free, and with none of the 1,024 free. -/
theorem witness_BuilderEvents_new :
    (runsJob (labJob (job0 0 0x1000)) (job0 0 0x1000) = true ∧ (job0 0 0x1000).d.handle = 0 ∧ (job0 0 0x1000).d.free = false ∧
      ((labJob (job0 0 0x1000)).freeStructIdx 0).isSome = true) ∧
    runsJob labFull (job0 0 0x1000) = true ∧ labFull.freeStructIdx 0 = none := by
  refine ⟨⟨by decide +kernel, by decide +kernel, by decide +kernel, by decide +kernel⟩, by decide +kernel, ?_⟩
  unfold State.freeStructIdx
  rw [List.find?_eq_none]
  intro k hk
  have h : (labFull.structCtx 0 k).isSome = true := by
    have hs : labFull.structs = (List.range 1024).map fun k => { ctx0 with idx := k } := by simp only [labFull]
    unfold State.structCtx
    rw [hs, List.find?_isSome]
    exact ⟨{ ctx0 with idx := k }, List.mem_map_of_mem hk, by simp [ctx0]⟩
  simp [Option.isNone_iff_eq_none, Option.isSome_iff_ne_none.mp h]

/-- A job whose input lies past 57 bits. -/
theorem witness_BuilderEvents_fails : runsJob (labJob job2) job2 = true ∧ (labJob job2).structOf 0 (BitVec.ofNat 64 job2.d.handle) = some ctx1 ∧
    job2.d.free = false ∧ job2.d.strict = false ∧ (match (jobRead1 job2).1.halt with | some (.fails _) => true | _ => false) = true := by decide +kernel

/-- A structure whose arena is as large as the result of `job3` needs, by the free value of notes/assumptions/16.md. -/
def ctxFit : StructCtx := { ctx0 with size := Config.arenaNeed 0 0 }
def labFit : State := { lab with jobs := [job3], structs := [ctxFit] }
def fitRead : Reading × List Nat := labFit.readInstances (labFit.onBehalf 1 0 job3.eng) job3.d
def fitData : GenData :=
  let live := (List.range fitRead.1.items.length).filter fun k => ((fitRead.1.items[k]?).map fun y => y.bad.isNone).getD false
  genDataOf fitRead.1.items (if live = [] then [] else newTree fitRead.1.items (fitRead.1.items.length + 1) 0 (List.range fitRead.1.items.length)) fitRead.2 true 0 none

/-- A job whose input is read, whose one instance has no structure, and whose result without nodes fits and is written. -/
theorem witness_BuilderEvents_builds : runsJob labFit job3 = true ∧ labFit.structOf 0 (BitVec.ofNat 64 job3.d.handle) = some ctxFit ∧
    job3.d.free = false ∧ job3.d.strict = false ∧ fitRead.1.halt = none ∧ Config.arenaNeed (ctxFit.footprint fitData).1 (ctxFit.footprint fitData).2 ≤ ctxFit.size ∧
    (numberNodes (fitRead.1.s.nextId + 1) fitData.nodes).map (fun b => b.id) = [] := by
  refine ⟨by decide +kernel, rfl, by decide +kernel, by decide +kernel, by decide +kernel, ?_, by decide +kernel⟩
  rw [show ctxFit.footprint fitData = (0, 0) by decide +kernel]
  exact Nat.le_refl _

/-- A build of one triangle, at the addresses that its geometry names, into an arena that may not be written. -/
def job4 : Job := job0 0x1000 0x3000
def page0R : TlbEntry := { page0 with entry := BitVec.ofNat 128 (5 + 2 * 2 ^ 64 + 0x200 * 2 ^ 76) }
def ctxTri : StructCtx := { ctx0 with top := false, size := Config.arenaNeed 1 1 }
def labTriJob : State :=
  { lab with jobs := [job4], structs := [ctxTri], tlb := [page0R]
             mem := [(devKey 0x203001, 0x40), (devKey 0x203010, 1), (devKey 0x203014, 12), (devKey 0x20400A, 0x80), (devKey 0x20400B, 0x3F), (devKey 0x20400E, 0x80),
                     (devKey 0x20400F, 0x3F), (devKey 0x204016, 0x80), (devKey 0x204017, 0x3F), (devKey 0x20401E, 0x80), (devKey 0x20401F, 0x3F), (devKey 0x204022, 0x80), (devKey 0x204023, 0x3F)] }
def triRead : Reading × List Nat := labTriJob.readGeometries (labTriJob.onBehalf 1 0 job4.eng) job4.d
def triData : GenData :=
  let live := (List.range triRead.1.items.length).filter fun k => ((triRead.1.items[k]?).map fun y => y.bad.isNone).getD false
  genDataOf triRead.1.items (if live = [] then [] else newTree triRead.1.items (triRead.1.items.length + 1) 0 (List.range triRead.1.items.length)) triRead.2 false 0 none

/-- Where no page is found in the table and the one that is cached gives no W, no node is written. -/
theorem notWritable {s : State} {f : Fibre} {c : StructCtx} {k : Nat} {r : List Nat} (ht : s.tlb = [page0R]) (hp : (s.partn f.part).ptLog? = none)
    (hf : f.pageFail = none) : (s.writeNodes f c (k :: r)).1 ≠ .data [] false := by
  have hw : ∀ va, s.walk f.part va = none := fun va => by unfold State.walk; dsimp only; rw [hp]
  have key : ∀ va, ∃ t, s.translate f va va 2 = .error (.trap t) := by
    intro va
    unfold State.translate
    dsimp only
    rw [hw va]
    have hs : ∃ t, s.absentStop f va va 2 = .trap t := by unfold State.absentStop; rw [hf]; simp [hp]
    obtain ⟨t, hs⟩ := hs
    dsimp only
    rw [hs]
    have hc : s.cachedPte f.part f.onCore va = none ∨ s.cachedPte f.part f.onCore va = some page0R.entry.toNat := by
      unfold State.cachedPte
      rw [ht]
      dsimp only [List.find?]
      simp only [show page0R.cluster = true from rfl, Bool.not_true, Bool.false_and]
      split
      · exact .inr rfl
      · exact .inl rfl
    rcases hc with hc | hc
    · rw [hc]; exact ⟨t, rfl⟩
    · rw [hc]
      dsimp only
      rw [if_neg (by decide +kernel)]
      exact ⟨_, rfl⟩
  unfold State.writeNodes State.arenaPlace
  obtain ⟨t, ht⟩ := key (c.arena + Config.nodeOffset c.idx k % max 1 c.size / 32 * 32)
  dsimp only
  rw [ht]
  simp [State.engineStop]

/-- One item is not split. -/
theorem splitOne (items : List Item) (k : Nat) : (splitItems items [k]).length ≤ 1 := by
  unfold splitItems
  dsimp only
  generalize Config.treeSplit _ = x
  obtain h | h | h | h | h | h | h | h : x % 8 = 0 ∨ x % 8 = 1 ∨ x % 8 = 2 ∨ x % 8 = 3 ∨ x % 8 = 4 ∨ x % 8 = 5 ∨ x % 8 = 6 ∨ x % 8 = 7 := by omega
  all_goals simp [h, List.range, List.range.loop]

/-- The tree of the triangle has one node. -/
theorem triNodes : ∃ lo hi, triData.nodes = [{ id := 0, lo := lo, hi := hi, kids := [], prims := [0] }] := by
  have h1 : triRead.1.items.length = 1 := by decide +kernel
  have h2 : ((List.range triRead.1.items.length).filter fun k => ((triRead.1.items[k]?).map fun y => y.bad.isNone).getD false) = [0] := by decide +kernel
  refine ⟨(boxOf triRead.1.items [0]).lo, (boxOf triRead.1.items [0]).hi, ?_⟩
  unfold triData
  rw [h2, h1]
  show newTree triRead.1.items 2 0 [0] = _
  unfold newTree
  dsimp only
  rw [if_pos (splitOne _ _)]

theorem witness_BuilderEvents_notWritten : runsJob labTriJob job4 = true ∧ labTriJob.structOf 0 (BitVec.ofNat 64 job4.d.handle) = some ctxTri ∧
    job4.d.free = false ∧ job4.d.strict = false ∧ triRead.1.halt = none ∧ Config.arenaNeed (ctxTri.footprint triData).1 (ctxTri.footprint triData).2 ≤ ctxTri.size ∧
    (triRead.1.s.writeNodes (triRead.1.s.onBehalf 1 0 job4.eng) ctxTri
      (((numberNodes (triRead.1.s.nextId + 1) triData.nodes).map fun b => b.id).filter fun k => decide (triRead.1.s.nextId < k))).1 ≠ .data [] false := by
  obtain ⟨lo, hi, hn⟩ := triNodes
  refine ⟨by decide +kernel, rfl, by decide +kernel, by decide +kernel, by decide +kernel, ?_, ?_⟩
  · have h : ctxTri.footprint triData = (1, 1) := by
      have hr : ctxTri.results.flatMap (fun g => g.nodes) = [] := by decide +kernel
      unfold StructCtx.footprint nodesOf
      rw [List.flatMap_append, hr]
      simp [hn]
    rw [h]
    exact Nat.le_refl _
  · have h : (((numberNodes (triRead.1.s.nextId + 1) triData.nodes).map fun b => b.id).filter fun k => decide (triRead.1.s.nextId < k)) = [triRead.1.s.nextId + 1] := by
      rw [hn]; simp [numberNodes]
    rw [h]
    exact notWritable (by decide +kernel) (by decide +kernel) (by decide +kernel)

/-- An extension that is awaited, and a generation in reclamation. -/
theorem witness_BuilderEvents_rest :
    let j : Job := { job0 0 0x1000 with growWait := true }
    let s : State := { lab with structs := [{ ctx0 with gens := ctx0.gens.map fun g => { g with state := 3 } }] }
    (labJob j).jobs.find? (fun x => x.id == 7 && x.growWait) = some j ∧ (s.genOf 0 0 1).map (fun g => g.state) = some 3 := by decide +kernel

/-! ### Copies and matrix engines -/

/-- A copy of a number of sectors from cached memory to the scratchpad. -/
def copy0 (n total : Nat) (started : Bool) : Copy :=
  { id := 7, part := 0, pipe := 1, uids := [1], fid := 1, grp := 5, repl := 0, cluster := 0, token := 8, tag := 0, total := total
    left := (List.range n).map fun k => { idx := k, src := { key := 0x201000 + 32 * k, vers := false, cached := true, grain := 0 }
                                          dst := { key := spdKey 0 (32 * k), vers := false, cached := false, grain := 0 }, data := none }
    all := [], txb := none, started := started, rel := false, pages := [], stuck := some 0 }
def labCopy (c : Copy) : State := { lab with copies := [c] }
def set0 : StepSet := { id := 7, part := 0, pipe := 1, grp := 5, repl := 0, cv := 0, round := 0, completed := 0, signers := [], core := 0, bound := some (0, 3) }
def tile0 : Tmma :=
  { id := 7, part := 0, pipe := 1, uid := 1, uids := [1], grp := 5, repl := 0, core := 0, engine := 0, e := eMat, descA := (0, 0), descB := (0, 0), descC := 0, shape := 0, next := 0, seq := 3 }

/-- A pre-walk of a copy of two sectors and of one of none; a sector that lands before the last, and the last, with the stores of its fibres
acknowledged and not; a copy that has waited for exactly
2^20 clocks; a step of each kind that is picked, no request, and a request that an exclusive slot of another pipeline holds back. -/
theorem witness_CopyAndMatrixEvents :
    let labOf (acked : Bool) (c : Copy) : State := { labCopy c with fibres := lab.fibres.map fun f => { f with unacked := if acked then [] else [(0, 0, 0)] } }
    let lands (acked : Bool) (n : Nat) (c : Copy) : Bool :=
      match (labOf acked c).preread c |>.find? (fun y => y.idx == 1) with
      | none => false
      | some x =>
        let d : Copy := { c with left := (labOf acked c).preread c }
        let s1 := (labOf acked c).updCopy 7 fun _ => d
        match s1.engineWay 0 0 x.dst with
        | none => false
        | some t => decide (x.dst.vers = false) &&
          (match (t.landSector d x).copy? 7 with | some c' => c'.left.length == n && (t.landSector d x).allAcked c'.uids == acked | none => false)
    let last : Copy := { copy0 2 2 true with left := (copy0 2 2 true).left.drop 1 }
    let held : State := { lab with stepSets := [set0], mxe := (List.range 16).map fun k => { core := 0, engine := 0, slot := k, handle := 9, part := 0, excl := true, next := none } }
    ((labCopy (copy0 2 2 false)).copy? 7 = some (copy0 2 2 false) ∧ (copy0 2 2 false).started = false ∧ (copy0 2 2 false).left ≠ []) ∧
    ((labCopy (copy0 0 0 false)).copy? 7 = some (copy0 0 0 false) ∧ (copy0 0 0 false).left = [] ∧ (labOf true (copy0 0 0 false)).allAcked [1] = true ∧
      (labOf false (copy0 0 0 false)).allAcked [1] = false) ∧
    ((labCopy (copy0 2 2 true)).copy? 7 = some (copy0 2 2 true) ∧ lands true 1 (copy0 2 2 true) = true) ∧ ((labCopy last).copy? 7 = some last ∧ lands true 0 last = true ∧ lands false 0 last = true) ∧
    (({ labCopy (copy0 2 2 true) with clock := 2 ^ 20 } : State).copy? 7 = some (copy0 2 2 true) ∧ (copy0 2 2 true).stuck = some 0 ∧ 0 + 2 ^ 20 ≤ ({ labCopy (copy0 2 2 true) with clock := 2 ^ 20 } : State).clock) ∧
    (({ lab with stepSets := [set0] } : State).pickStep 0 0 0).map (fun r => (r.tile, r.id)) = some (false, 7) ∧
    (({ lab with tmmas := [tile0] } : State).pickStep 0 0 0).map (fun r => (r.tile, r.id)) = some (true, 7) ∧
    (lab.pickStep 0 0 0 = none ∧ lab.bound 0 0 0 = []) ∧ (held.pickStep 0 0 0 = none ∧ held.bound 0 0 0 ≠ []) ∧ lab.stepSets = [] ∧ lab.tmmas = [] := by decide +kernel

/-! ### Futures and sinks -/

/-- A machine with a tag in a state. -/
def labTag (st : Nat) : State := { lab with tags := lab.tags.set 3 { TagRec.reset with state := st, set := 0x28 } }
/-- A machine with a sink whose slot begins at a clock. -/
def labSink (mode : DWord) (at' : Nat) : State := { lab with sinks := lab.sinks.set 19 { Sink.reset with mode := mode, slotAt := at' } }

/-- A tag of each state, and a commit that waits; the last sink disabled, one clock before its slot, and at it. -/
theorem witness_FutureEvents :
    ((labTag 3).tagRec 3).state = 3 ∧ ((labTag 4).tagRec 3).state = 4 ∧ (((labTag 2).tagRec 3).state = 2 ∧ (labTag 2).commitReady 3 = true) ∧
    (let s : State := { labTag 2 with copies := [{ copy0 1 1 true with tag := 3 }] }; s.commitReady 3 = false) ∧
    ((labSink 0 0).sink 19).mode.getLsbD 63 = false ∧ (labSink 0x8000000000000000 1001).clock < ((labSink 0x8000000000000000 1001).sink 19).slotAt ∧
    (((labSink 0x8000000000000000 1000).sink 19).mode.getLsbD 63 = true ∧ ((labSink 0x8000000000000000 1000).sink 19).slotAt ≤ (labSink 0x8000000000000000 1000).clock) := by
  decide +kernel

/-! ### Replicas -/

/-- A pipeline of two replicas, a fibre in each, with their waits, and the clock at which the first reached its point. -/
def labRepl (w1 w2 : Wait) (at' : Nat) : State :=
  { lab with clock := at' + 2 ^ 24, pipes := [{ pipe1 with repl := 1, live := [0, 1], cores := [0], partners := [[1]] }]
             fibres := [{ fibreOf 1 0 with wait := w1, st := .waitMemory, pointAt := at' }, { fibreOf 2 0 with setId := 1, repl := 1, onCore := 1, wait := w2, st := .waitMemory }] }
def labMeet : State := labRepl .compare .compare 5

/-- Both at the point and in agreement; one not there; and a limit that has just come. -/
theorem witness_ReplicaEvents :
    (allArrived labMeet (labMeet.fibre 1) ∧ allAgree labMeet (labMeet.fibre 1)) ∧
    (∃ g ∈ (labRepl .compare .none 5).replicaSet ((labRepl .compare .none 5).fibre 1), g.wait ≠ .compare) ∧
    ((labMeet.fibre 1).live = true ∧ (labMeet.fibre 1).wait = .compare ∧ (labMeet.fibre 1).pointAt + watchdog (labMeet.pipeOf (labMeet.fibre 1)).convwd = labMeet.clock) ∧
    ({ labMeet with clock := 2 ^ 24 }).clock < (labMeet.fibre 1).pointAt + watchdog (labMeet.pipeOf (labMeet.fibre 1)).convwd ∧
    labMeet.agree (labMeet.fibre 1) (labMeet.fibre 2) = true := by
  refine ⟨⟨⟨by decide +kernel, by decide +kernel⟩, ?_⟩, by decide +kernel, by decide +kernel, by decide +kernel, by decide +kernel⟩
  intro x r h g hg
  have hs : labMeet.replicaSet (labMeet.fibre 1) = [labMeet.fibre 1, labMeet.fibre 2] := by decide +kernel
  rw [hs] at h
  simp only [List.cons.injEq] at h
  obtain ⟨rfl, rfl⟩ := h
  simp only [List.mem_singleton] at hg
  rw [hg]
  decide +kernel

/-! ### Execution -/

def stage0 : StageRec :=
  { arg := 0, coreMax := 0, coreMin := 0, inq := none, crEn := false, crGrp := 0, elastic := false, shape := 0, gcount := 0, gsize := 1, prio := 0, win := 32, entry := 0x1000, cores := [0], nacked := false }
def pend0 : PendInst := { stage := 0, core := some 0, tag := 0, entry := none }
/-- A machine with a pending instance, whose cluster has a free group context or none of its 128. -/
def labPend (full : Bool) : State :=
  { lab with pipes := [{ pipe1 with stages := [stage0], pending := [pend0] }]
             groups := if full then (List.range 128).map (fun k => { Group.blank with handle := k }) else lab.groups }

def entry0 (close sent : Bool) : PortEntry := { pipe := 1, queue := 0, close := close, entry := { tag := 0, words := [], fid := 1 }, uid := 1, sent := sent, waitFor := [] }
def port0 : PortId := ⟨false, 0, 0, 0⟩
/-- A machine with one entry in a port, before a queue that holds so many of its four and drops entries of the ports given. -/
def labQueue (e : PortEntry) (n : Nat) (drop : List PortId) (ended : Option (Nat × Nat)) : State :=
  { lab with ports := [{ id := port0, window := [e], backoff := [{ pipe := 1, queue := 0, nacks := 1, due := 1000 }] }]
             pipes := [{ pipe1 with ended := ended, queues := [{ launching := false, depth := 4, base := 0x2000, entries := List.replicate n { tag := 0, words := [], fid := 1 }, closed := false, dropping := drop }] }] }
def labBar (since : Nat) : State :=
  { lab with clock := 2 ^ 24, groups := [{ groupOf 4 with bars := [{ isOpen := true, expected := [1, 2], lost := 0, arrived := [1], since := since, pipe := 1 }] ++ (groupOf 4).bars.drop 1 }] }
def labCv (since : Nat) : State :=
  { lab with clock := 2 ^ 24, groups := [{ groupOf 4 with cvs := [{ size := 2, signers := [1], count := 1, round := 0, since := some since, done := [] }] ++ (groupOf 4).cvs.drop 1 }] }

/-- An instance that finds room, and one that does not. -/
theorem witness_ExecutionEvents_instances :
    (((labPend false).pipe 0 1).ended = none ∧ ((labPend false).pipe 0 1).pending.find? (fun x => x.stage == 0) = some pend0 ∧ ((labPend false).startInstance ((labPend false).pipe 0 1) pend0).isSome = true) ∧
    (((labPend true).pipe 0 1).ended = none ∧ ((labPend true).pipe 0 1).pending.find? (fun x => x.stage == 0) = some pend0 ∧
      ((labPend true).startInstance ((labPend true).pipe 0 1) pend0).isNone = true ∧ ((labPend true).pipe 0 1).contract = none) := by decide +kernel

/-- An entry for a pipeline that has ended; a close; an entry with one place free, and with none; an entry for a queue that drops; a port with nothing
to send; a back-off whose clock has just come; and a close that has been sent. -/
theorem witness_ExecutionEvents_queues :
    let e := entry0 false false
    let q (s : State) : Queue := (s.pipe 0 1).queue 0
    let s1 := labQueue e 0 [] (some (0, 0))
    let s2 := labQueue (entry0 true false) 0 [] none
    let s3 := labQueue e 3 [] none
    let s4 := labQueue e 4 [] none
    let s5 := labQueue e 0 [port0] none
    let s6 := labQueue (entry0 true true) 0 [] none
    ((s1.port port0).next = some e ∧ (s1.pipe 0 1).ended ≠ none) ∧
    ((s2.port port0).next = some (entry0 true false) ∧ (s2.pipe 0 1).ended = none ∧ port0 ∉ (q s2).dropping) ∧
    ((s3.port port0).next = some e ∧ (s3.pipe 0 1).ended = none ∧ port0 ∉ (q s3).dropping ∧ (q s3).entries.length < (q s3).depth ∧ (q s3).launching = false) ∧
    ((s4.port port0).next = some e ∧ (s4.pipe 0 1).ended = none ∧ port0 ∉ (q s4).dropping ∧ (q s4).depth ≤ (q s4).entries.length) ∧
    ((s5.port port0).next = some e ∧ (s5.pipe 0 1).ended = none ∧ port0 ∈ (q s5).dropping) ∧
    ((s6.port port0).next = none ∧ (s6.ports.any fun p => p.id.part == 0 && p.window.any fun e => e.pipe == 1 && e.queue == 0 && e.close && e.sent) = true ∧ (q s6).dropping = []) ∧
    ((s5.port port0).backoff.any fun b => b.pipe == 1 && b.queue == 0 && decide (b.due ≤ s5.clock)) = true := by decide +kernel

/-- A running and an ended pipeline; sleeps whose clock has come, comes at the next clock, and has none; collections likewise; and the
watchdogs of a barrier and of a register, at their limit and before it. -/
theorem witness_ExecutionEvents_rest :
    let sleeps (c : Option Nat) : State := { lab with fibres := [{ fibreOf 1 0 with st := .sleeping, wait := .sleep c }, fibreOf 2 1] }
    let c0 : Collect := { id := 7, part := 0, lcore := 0, quad := 0, stage := 0, pipe := 1, repl := 0, pc := 0x1000, grp := 5, tag := 0, arrivals := [], due := 1000, plan := [] }
    let one (s : State) (kind : Nat) : Bool :=
      match s.watches (s.group ⟨0, 4, 0⟩) with
      | [w] => (w.kind == 0) == (kind == 0) && w.num == 0 && decide (w.due = s.watchClock 0 w.pipe) && (s.firstExpired 0 w.pipe).isSome
      | _ => false
    (lab.pipe 0 1).ended = none ∧ (lab.pipe 0 2).ended ≠ none ∧
    (((sleeps (some 1000)).fibre 1).wait = .sleep (some 1000) ∧ 1000 ≤ (sleeps (some 1000)).clock ∧ ((sleeps (some 1000)).fibre 1).st = .sleeping) ∧
    ((sleeps (some 1001)).fibre 1).wait = .sleep (some 1001) ∧ ((sleeps none).fibre 1).wait = .sleep none ∧
    (({ lab with collects := [c0] } : State).collects.find? fun (c : Collect) => c.id == 7 && c.plan.isEmpty && decide (c.due ≤ 1000)) = some c0 ∧
    ({ lab with clock := 999 } : State).clock < c0.due ∧
    one (labBar 0) 0 = true ∧ one (labCv 0) 1 = true ∧ ((labBar 1).watches ((labBar 1).group ⟨0, 4, 0⟩)).all (fun w => decide ((labBar 1).watchClock 0 w.pipe < w.due)) = true := by
  decide +kernel

/-! ### Memory -/

def load0 (cancelled : Bool) : LoadReq :=
  { id := 7, uid := 1, core := 0, tag := 0, acq := false, inval := false, us := [1], elems := [{ reg := 8, loc := { key := 0x201000, vers := false, cached := true, grain := 0 }, n := 4, va := 0x1000 }]
    sreg := false, ty := .n32, grp := 5, cancelled := cancelled }
def l1w (rls : Bool) : L1Word :=
  { core := 0, tag := 0, key := 0x201000, data := 0, valid := 15, dirty := 8, rls := rls, poison := false, foreign := false, grain := 0 }
/-- Version lines of one set of a slice. -/
def labWays (n : Nat) : State :=
  { lab with tags := (labTag 1).tags, verLines := (List.range n).map (fun _ => { tag := 3, line := 0, part := 0, slotted := false }), parts := { part0 with voaCtl := 26 } :: List.replicate 15 Partition.reset }

/-- A service with the mode and the region of its fault, and a partition with a page table of 1,024 buckets, which holds the translation of the first
2 MiB. -/
def svc0 (va : Nat) (mode : BitVec 5) (region : Option Nat) : PageSvc :=
  { va := va, acc := 1, request := true, region := region, mode := mode, hostSeq := none, frame := none, failed := none, save := none }
def labPt (x : PageSvc) (frames : BitVec 64) : State :=
  { lab with parts := { part0 with ptRoot := 0xA00, services := [x], fpool := frames } :: List.replicate 15 Partition.reset
             mem := (State.reset.setBytes 0 (leBytes 16 page0.entry.toNat)).mem }

theorem witness_MemoryEvents_caches :
    let ld (c : Bool) : State := { lab with loads := [load0 c] }
    let l1 (r : Bool) : State := { lab with l1 := [l1w r] }
    ((ld true).loads.find? (fun x => x.id == 7) = some (load0 true) ∧ (load0 true).elems.all (fun x => !((ld true).hostLineStop x.loc.key false).isSome) = true) ∧
    ((ld false).loads.find? (fun x => x.id == 7) = some (load0 false) ∧ (load0 false).cancelled = false) ∧ (∀ r ∈ lab.loads, r.id ≠ 7) ∧
    (∃ w ∈ (l1 false).l1, w.core = 0 ∧ w.tag = 0 ∧ w.dirty ≠ 0 ∧ inBlock (blockOf 0x201000 0) w.key = true) ∧
    (∀ w ∈ (l1 false).l1, w.core = 0 → w.tag = 0 → w.dirty ≠ 0 → inBlock (blockOf 0x201020 0) w.key = false) ∧
    ((l1 true).l1Word 0 0 0x201000 = some (l1w true) ∧ (l1w true).dirty ≠ 0 ∧ (l1w true).rls = true) ∧
    ((l1 false).l1Word 0 0 0x201000 = some (l1w false) ∧ ¬ (l1w false).rls = true) ∧ (lab.l1Word 0 0 0x201000).isNone = true ∧
    ({ lab with vers := [{ tag := 3, sector := 0x200000 / 32, mask := 0 }] } : State).hasVersion (0x200000 / 32) 3 = true ∧ lab.hasVersion (0x200000 / 32) 3 = false := by
  decide +kernel

/-- Fifteen lines of a set, and sixteen with a slot free. -/
theorem witness_MemoryEvents_ways :
    ((labWays 15).unslotted 0).length + (labWays 15).leasedWays 0 < 16 ∧ (∀ h ∈ (labWays 15).hostLines, h.mesi = 0) ∧
    16 ≤ ((labWays 16).unslotted 0).length + (labWays 16).leasedWays 0 ∧
    (((labWays 16).unslotted 0).find? fun v => decide (((labWays 16).verLines.filter fun w => w.slotted && w.part == v.part).length < ((labWays 16).partn v.part).voaSlots)).isSome = true := by
  decide +kernel

/-- A page of the table; a page that the host is asked for, one of no region, and one of a region of fresh pages, with frames and without. -/
theorem witness_MemoryEvents_pages :
    let r : Nat := 1 + 2 ^ 21 + 2 ^ 64
    let asks (x : PageSvc) (n : BitVec 64) : Bool :=
      let s := labPt x n
      ((s.partn 0).services.find? fun y => y.va == x.va && y.hostSeq.isNone) == some x && (s.walk 0 x.va).isNone && ((s.partn 0).ptLog?).isSome && x.save.isNone
    let s1 := labPt (svc0 0x1000 0 none) 1
    let s4 := labPt (svc0 0x3FF000 0 (some r)) 0
    let s5 := labPt (svc0 0x3FF000 0 (some r)) 1
    ((s1.partn 0).services.find? (fun x => x.va == 0x1000 && x.hostSeq.isNone) = some (svc0 0x1000 0 none) ∧ (s1.walk 0 0x1000).isSome = true) ∧
    asks (svc0 0x200000 1 none) 1 = true ∧ asks (svc0 0x400000 0 none) 1 = true ∧
    (asks (svc0 0x3FF000 0 (some r)) 0 = true ∧ (s4.takeFrames 0 (pageFrames (bits r 10 2))).isNone = true) ∧
    (asks (svc0 0x3FF000 0 (some r)) 1 = true ∧ (s5.takeFrames 0 (pageFrames (bits r 10 2))).isSome = true ∧ bits r 0 2 ≠ 2) ∧
    ((s1.promoteWalk 0 0x200000).walk 0 0x200000).isNone = true ∧ ((s1.promoteWalk 0 0x1000).walk 0 0x1000).isSome = true ∧
    (∀ x ∈ (lab.partn 0).services, x.va ≠ 0x1000) := by decide +kernel

/-- A load of a host line that is not a peer's and that the VAC does not hold. -/
theorem witness_MemoryEvents_hostLine (h : Config.peerLine (hostKey 0x1000 / 128) = false) :
    let r : LoadReq := { load0 false with elems := [{ reg := 8, loc := { key := hostKey 0x1000, vers := false, cached := true, grain := 0 }, n := 4, va := 0x1000 }] }
    let s : State := { lab with loads := [r] }
    s.loads.find? (fun x => x.id == 7) = some r ∧ r.cancelled = false ∧ ∃ x ∈ r.elems, x.loc.cached = true ∧ (s.hostLineStop x.loc.key false).isSome = true := by
  refine ⟨by decide +kernel, rfl, _, List.mem_singleton.mpr rfl, rfl, ?_⟩
  unfold State.hostLineStop
  rw [if_neg (by rw [h]; decide +kernel)]
  rfl

end

end Sys2Proof.Tests
end

