-- ==== Sys2Proof/Tests/SystemWitness.lean ====
section
/-! SUPPORT. Witnesses: states that meet the hypotheses of the statements about the events of the device, its partitions and its host, clause
by clause. -/

namespace Sys2Proof.Tests

set_option Elab.async false

open Sys2Proof Sys2Proof.Machine

noncomputable section

/-! ### The host's links -/

def hline (mesi : Nat) (req : Option Nat) : HostLine := { line := 7, mesi := mesi, request := req, uid := some 1, since := 1000, backup := [], snoops := [], into := [] }
/-- A machine with a host line, 10 ms after its request went out. -/
def labHost (mesi : Nat) (req : Option Nat) : State := { lab with clock := 18001000, hostLines := [hline mesi req] }
def pwrite : PeerWrite := { uid := 1, also := [], key := 900, old := [1], since := 1000 }

/-- The last word of the device, and the word past it; a line in a fill, evicted, in M and in I; a completion, and a limit that has just come, of each
request; a write that a peer has not acknowledged; a fourth spare, and a fifth; the last sector of the device. -/
theorem witness_CoherenceEvents :
    let find (s : State) : Option HostLine := s.hostLines.find? fun (h : HostLine) => h.line == 7
    let late (s : State) (q : Nat) : Option HostLine :=
      s.hostLines.find? fun (h : HostLine) => h.line == 7 && h.request == some q && decide (h.since + 10 * clocksPerMs ≤ s.clock)
    let sp : State := { lab with spares := [(5, 9, 3)] }
    (lab.ready = true ∧ { lab with ready := false }.ready = false ∧ deviceSize - 4 + 4 * 1 ≤ deviceSize ∧ (deviceSize - 4) % 4 = 0 ∧ deviceSize < deviceSize - 4 + 4 * 2) ∧
    (find (labHost 0 (some 1)) = some (hline 0 (some 1)) ∧ find (labHost 0 (some 2)) = some (hline 0 (some 2)) ∧ find (labHost 3 none) = some (hline 3 none) ∧
      find (labHost 0 none) = some (hline 0 none) ∧ ∀ h ∈ (labHost 3 none).hostLines, h.line ≠ 6) ∧
    (late (labHost 0 (some 0)) 0 = some (hline 0 (some 0)) ∧ late (labHost 0 (some 1)) 1 = some (hline 0 (some 1)) ∧ late (labHost 0 (some 2)) 2 = some (hline 0 (some 2)) ∧
      ∀ h ∈ (labHost 0 (some 2)).hostLines, h.line = 7 → { labHost 0 (some 2) with clock := 18000999 }.clock < h.since + 10 * clocksPerMs) ∧
    (({ labHost 0 none with peerWrites := [pwrite] }).peerWrites.find? (fun (w : PeerWrite) => w.uid == 1) = some pwrite ∧
      ({ labHost 0 none with peerWrites := [pwrite] }).peerWrites.find? (fun (w : PeerWrite) => w.key / 128 == 7 && decide (w.since + 10 * clocksPerMs ≤ 18001000)) = some pwrite) ∧
    (sp.sparesUsed 5 9 = 3 ∧ [1].length + sp.sparesUsed 5 9 ≤ 4 ∧ 4 < [1, 2].length + sp.sparesUsed 5 9) ∧
    32 * (deviceSize / 32 - 1) < deviceSize ∧ (lab.poisonList 0).length ≤ 1024 := by decide +kernel

/-! ### Partitions -/

/-- The machine with partition 0 changed. -/
def labPart (f : Partition → Partition) : State := { lab with parts := f part0 :: List.replicate 15 Partition.reset }
/-- A page that CREATE takes, with an overflow area of its own or a pool of 256 MiB. -/
def page (voa : DWord) (pool : DWord) : State :=
  labPart fun _ => { Partition.reset with clus := 1, lmapPage := [128, 129] ++ List.replicate 126 0, res := 0xF00010101, voaPage := voa, fpool := pool, emergBase := 0x800000000 }

/-- A machine that runs a partition already, one whose page is empty, pools of 127 and of 128 units of 2 MiB, and an area of the host's choice. -/
theorem witness_PartitionCommands_create :
    (lab.ready = true ∧ lab.cmdStat ≠ 0xFF ∧ (lab.partn 0).state ≠ 0) ∧ ((labPart fun _ => Partition.reset).partn 0).state = 0 ∧
    (labPart fun _ => Partition.reset).mayCreate 0 = false ∧
    ((page 0 0x1000007F).mayCreate 0 = true ∧ ((page 0 0x1000007F).takeOverflow 0).isNone = true) ∧
    ((page 0x10000001A 0x1000007F).mayCreate 0 = true ∧ ((page 0x10000001A 0x1000007F).takeOverflow 0).isSome = true) ∧
    ((page 0 0x10000080).mayCreate 0 = true ∧ ((page 0 0x10000080).takeOverflow 0).isSome = true) := by decide +kernel

def noWork : Capture :=
  { pipes := [], fibres := [], groups := [], rays := [], gathers := [], loads := [], pendV := [], copies := [], beams := [], jobs := [], ports := [], vports := [], scratch := [], vault := [], pending := [] }
/-- Every fibre saved and out of its slot; BASE of SAVE_CTL is 8 MiB or zero, and the map has a core or none. -/
def labSave (base : DWord) (map : List (BitVec 8)) : State :=
  { lab with parts := { part0 with suspending := true, saveCtl := base, lmap := map ++ List.replicate (128 - map.length) 0 } :: List.replicate 15 Partition.reset
             fibres := lab.fibres.map fun f => { f with saved := true, slot := 8 } }
def area0 (s : State) : Option (Nat × Nat × Nat) := s.areaAbsent 0 (s.partn 0).saveBase ((mapEntries (s.partn 0).lmap).map fun e => e.1)

theorem witness_PartitionCommands_ends :
    ((labPart fun p => { p with state := 4 }).partn 0).state = 4 ∧ ((labPart fun p => { p with state := 4 }).partn 0).migrs = [] ∧
    ((labPart fun p => { p with state := 4, migrs := [{ src := 0, dst := 5, state := 2, deadline := 0 }] }).partn 0).migrs ≠ [] ∧
    lab.suspendReady 0 = false ∧ ((labSave 0 []).suspendReady 0 = true ∧ ((labSave 0 []).partn 0).saveBase = 0) ∧
    ((labSave 0x800000 [128]).suspendReady 0 = true ∧ ((labSave 0x800000 [128]).partn 0).saveBase ≠ 0 ∧ (area0 (labSave 0x800000 [128])).isSome = true) ∧
    ((labSave 0x800000 []).suspendReady 0 = true ∧ ((labSave 0x800000 []).partn 0).saveBase ≠ 0 ∧ (area0 (labSave 0x800000 [])).isNone = true) ∧
    (({ lab with destroyWait := some 0 } : State).tagsFree 0 = true ∧ ({ labTag 4 with destroyWait := some 0 } : State).tagsFree 0 = false ∧ 0 < lab.parts.length) ∧
    ({ lab with cmdStat := 0xFF } : State).cmdStat = 0xFF := by decide +kernel

/-- A machine whose partition is SUSPENDED or IDLE, with the image of an area and a map. -/
def labImage (st : Nat) (map : List (BitVec 8)) (i : Option (Nat × Capture)) : State :=
  labPart fun p => { p with state := st, saveCtl := 0x800000, lmap := map ++ List.replicate (128 - map.length) 0, image := i }

/-- The image of the last suspension, by SAVE_CTL's base; an area at 0; an area of which a page is absent; the image from IDLE, by the argument; and an
area without an image. -/
theorem witness_PartitionCommands_resume :
    let im : Option (Nat × Capture) := some (0x800000, noWork)
    let base (s : State) (arg : BitVec 48) : Nat := if arg = 0 then (s.partn 0).saveBase else arg.toNat * 2 ^ 16
    let absent (s : State) (b : Nat) : Bool := (s.areaAbsent 0 b ((s.partn 0).imageCores b)).isSome
    (((labImage 2 [] im).partn 0).state ≠ 3 ∧ ((labImage 2 [] im).partn 0).state ≠ 1 ∧ ((labImage 2 [] im).partn 0).resuming = none) ∧
    ((labImage 3 [] im).partn 0).image = some (base (labImage 3 [] im) 0, noWork) ∧
    (base (labPart fun p => { p with state := 1 }) 0 = 0) ∧
    (base (labImage 3 [128] im) 0x81 ≠ 0 ∧ ((labImage 3 [128] im).partn 0).imageAt (base (labImage 3 [128] im) 0x81) = none ∧
      absent (labImage 3 [128] im) (base (labImage 3 [128] im) 0x81) = true) ∧
    (((labImage 1 [] im).partn 0).image = some (base (labImage 1 [] im) 0x80, noWork) ∧ absent (labImage 1 [] im) (base (labImage 1 [] im) 0x80) = false) ∧
    (base (labImage 1 [] none) 0x80 ≠ 0 ∧ ((labImage 1 [] none).partn 0).imageAt (base (labImage 1 [] none) 0x80) = none ∧
      absent (labImage 1 [] none) (base (labImage 1 [] none) 0x80) = false) := by decide +kernel

/-- A launch of a descriptor past 57 bits, of one whose page a service brings, of one with a mark, of one of zeros, and of one with a stage of one fibre. -/
theorem witness_PartitionCommands_launch :
    let idle : State := { lab with parts := { part0 with state := 1, lmap := part0.lmap } :: List.replicate 15 Partition.reset, pipes := [], fibres := [], groups := [] }
    let good : State := { idle with mem := [(0x201000, 1), (0x201048, 1), (0x201049, 1)] }
    let got (s : State) (w : DWord) : Option (Bool × Nat) :=
      let s := s.selfInval (s.coreOf (s.launchReader 0 w))
      match s.readDescriptor (s.launchReader 0 w) w.toNat with
      | .ok x => some (x.2.1, ((s.keepWalks (s.launchReader 0 w) x.2.2).launch 0 0 (mapEntries (s.partn 0).lmap).length 0 x.1 true true).2.1)
      | .error _ => none
    let trap (s : State) (w : DWord) : Bool := match s.readDescriptor (s.launchReader 0 w) w.toNat with | .error (.trap _) => true | _ => false
    let served : State := { idle with tlb := [], parts := { part0 with state := 1, ptRoot := 0xA00, mode := 1 } :: List.replicate 15 Partition.reset }
    let waits (s : State) (w : DWord) : Bool := match s.readDescriptor (s.launchReader 0 w) w.toNat with | .error (.service _ _) => true | _ => false
    (idle.partn 0).state = 1 ∧ trap idle 0x200000000000000 = true ∧ waits served 0x1000 = true ∧ (got { idle with poisoned := [0x201000 / 4] } 0x1000).map (fun x => x.1) = some true ∧
    got idle 0x1000 = some (false, 1) ∧ got good 0x1000 = some (false, 0) ∧ (64 + 32 : Nat) % 64 ≠ 0 := by decide +kernel

/-! ### Registers -/

def contract0 : Contract := { Contract.blank with reg := 0x8000003E803E83E8 }
/-- A write of PERIOD, DEADLINE and BUDGET of 1,000 microseconds and more, with EN, and a machine that admits it. -/
theorem witness_RegisterWrites_contracts :
    let s1 : State := labPart fun p => { p with contracts := p.contracts.set 15 contract0 }
    let ask (c : Nat) : DWord := kept contractBits (BitVec.ofNat 64 (2 ^ 63 + 1000 * 2 ^ 36 + 1000 * 2 ^ 18 + c))
    ((s1.contract 0 15).en = true ∧ (lab.contract 0 15).en = false) ∧ ((ask 1).getLsbD 63 = true ∧ (kept contractBits 5).getLsbD 63 = false) ∧
    (lab.partn 0).admits { Contract.blank with reg := ask 1001 } = false ∧ (lab.partn 0).admits { Contract.blank with reg := ask 100 } = true ∧
    { Contract.blank with reg := ask 100 }.sync = false := by decide +kernel

/-- A register D in DOWN, in IDLE with the limits kept and broken (a cluster taken from under the map), and while it runs. -/
theorem witness_RegisterWrites_limits :
    let s (st : Nat) : State := labPart fun _ => { Partition.reset with state := st, clus := 1, lmap := [128, 129] ++ List.replicate 126 0, res := 0xF00010101 }
    let holds (st : Nat) (clus : BitVec 32) : Bool :=
      let p := { (s st).partn 0 with clus := clus }
      (s st).limitsOk 0 p p.lmap p.voaCtl p.voaTaken
    ((s 0).partn 0).state = 0 ∧ (((s 1).partn 0).state = 1 ∧ holds 1 1 = true ∧ holds 1 0 = false) ∧ ((s 2).partn 0).state ≠ 0 ∧ ((s 2).partn 0).state ≠ 1 := by decide +kernel

/-- The first and the last register of a sink, and the one past it; slabs that change; a wake that is set and one that is not; a halted core, with a slab
on and off, a fibre and a group; and the registers of a page in each state. -/
theorem witness_RegisterWrites_rest :
    let halted : State := { lab with dbgEn := 1, fibres := [{ fibreOf 1 0 with st := .waitMemory, wait := .held, hold := some { cause := 0x000D, answer := none, len := some 12, debugger := true } }] }
    let off : State := { halted with parts := { part0 with vltPwr := part0.vltPwr.set 0 2 } :: List.replicate 15 Partition.reset }
    (sinkRegister 0x600).isSome = true ∧ (sinkRegister 0x778).isSome = true ∧ sinkRegister 0x780 = none ∧ ((lab.sink 19).mode.getLsbD 63 = false) ∧
    ((labSink 0x8000000000000000 0).sink 19).mode.getLsbD 63 = true ∧
    ({ lab with agenda := [.vaultSlabWakeDone 0 1 3] } : State).isSet (.vaultSlabWakeDone 0 1 3) = true ∧ lab.isSet (.vaultSlabWakeDone 0 1 3) = false ∧
    (halted.halted 0 0 = true ∧ ((halted.partn 0).phys? 0).isSome = true ∧ (halted.partn 0).slab 0 0 = 0 ∧ (off.partn 0).slab 0 0 = 2 ∧
      (halted.fibres.find? fun f => f.part == 0 && f.onCore == 0 && f.live && f.fid == 1).isSome = true ∧
      (halted.groups.find? fun (g : Group) => g.part == 0 && g.handle == 5).isSome = true) ∧
    (lab.halted 0 0 = false ∧ (lab.partn 0).state = 2 ∧ (lab.partn 1).state = 0 ∧ 0 < (4194240 : BitVec 64).toNat ∧ (4194240 : BitVec 64).toNat ≤ 4194240) := by decide +kernel

/-- A write of VLT_PWR that may take effect, one that a copy on the last sector of slab 0 holds up, and one behind an earlier write of its core. -/
theorem witness_RegisterWrites_slabs :
    let at' (k : Nat) : Loc := { key := vltKey 0 k, vers := false, cached := false, grain := 0 }
    let copy : Copy := { id := 1, part := 0, pipe := 1, uids := [1], fid := 1, grp := 5, repl := 0, cluster := 0, token := 3, tag := 0, total := 1, txb := none
                         left := [{ idx := 0, src := at' (2 ^ 18 - 32), dst := at' (2 ^ 19), data := none }], all := [], started := true, rel := false, pages := []
                         stuck := none }
    let s : State := { lab with copies := [copy] }
    let w : State := labPart fun p => { p with slabWrites := [(0, 0)] }
    (∀ x ∈ (lab.partn 0).slabWrites, x.1 ≠ 0) ∧ lab.slabBusy 0 0 2 = false ∧ s.slabBusy 0 0 2 = true ∧ s.slabBusy 0 0 (2 * 2 ^ 2) = false ∧
    s.slabBusy 0 0 (2 ^ 4) = true ∧ s.slabBusy 0 0 3 = false ∧ (∃ x ∈ (w.partn 0).slabWrites, x.1 = 0) := by decide +kernel

/-! ### Host services -/

def event (k kind : Nat) (written : Bool) (due : Option Nat) : HostEvent :=
  { seq := k, kind := kind, addr := 0, len := 0, acc := 1, arg := 0, clock := 900, due := due, uid := none, pipe := 1, written := written }
/-- A machine whose request record, at 0x1000, holds REQ, VALUE and SEQ. -/
def labReq (seq : Nat) : State :=
  let s := labPt (svc0 0 0 none) 0
  { s with parts := { s.partn 0 with reqva := 0x1000, reqSeq := 6 } :: List.replicate 15 Partition.reset
           mem := (s.setBytes 0x201000 (leBytes 8 0x030 ++ leBytes 8 72000 ++ leBytes 8 seq)).mem }

theorem witness_HostServices :
    let svc : PageSvc := { svc0 0x200000 0 (some (1 + 2 ^ 21 + 2 ^ 64)) with hostSeq := some 70, frame := some 0x400 }
    let s : State := labPart fun p => { p with hostEvents := [event 7 1 true (some 1000), event 70 1 false none] }
    let u : State := labPart fun p => { p with hostEvents := [event 8 1 true (some 1001), event 70 1 false none] }
    let v : State := labPart fun p => { p with services := [svc] }
    let reads (s : State) : Option (Nat × Nat × Nat) := do
      let (a, s) ← s.mmpRead 0 0x1010
      let (b, s) ← s.mmpRead 0 0x1000
      let (c, _) ← s.mmpRead 0 0x1008
      return (a, b, c)
    ((lab.partn 1).state ≠ 2 ∧ (lab.partn 0).state = 2 ∧ (lab.mmpRead 0 16).isNone = true) ∧ (reads (labReq 6) = some (6, 0x030, 72000) ∧ reads (labReq 7) = some (7, 0x030, 72000)) ∧
    ((s.partn 0).hostEvents.find? (fun e => !e.written) = some (event 70 1 false none) ∧ (∃ x ∈ (s.partn 0).hostEvents, x.written = true ∧ x.seq + 63 = 70)) ∧
    (∀ x ∈ (u.partn 0).hostEvents, x.written = true → x.seq + 63 ≠ 70) ∧
    ((s.partn 0).hostEvents.find? (fun e => e.written && e.seq == (0x70001 : BitVec 64).toNat / 2 ^ 16) = some (event 7 1 true (some 1000)) ∧
      ∀ e ∈ (u.partn 0).hostEvents, e.written = true → e.seq ≠ (0x70001 : BitVec 64).toNat / 2 ^ 16) ∧
    ((event 7 1 true (some 1000)).due = some 1000 ∧ 1000 ≤ s.clock ∧ (∀ x ∈ (s.partn 0).hostEvents, x.seq = 7 → x = event 7 1 true (some 1000)) ∧ u.clock < 1001) ∧
    ((v.partn 0).serviceOf 70 = some svc ∧ (v.walk 0 svc.va).isNone = true ∧ svc.frame = some 0x400 ∧ svc.region.isSome = true ∧ (s.partn 0).serviceOf 7 = none) := by
  decide +kernel

/-! ### Intervals and pre-emption -/

/-- An ordinary pipeline's two fibres, saved and out of their slot. -/
def pipe2 (prio : Nat) : Pipe := { pipe1 with handle := 2, supervisor := false, stages := [{ stage0 with prio := prio }] }
def labUsers (saved : Bool) (f : Partition → Partition) : State :=
  { labPart f with pipes := [pipe1, pipe2 3], fibres := lab.fibres.map fun x => { x with pipe := 2, saved := saved, slot := if saved then 8 else 0 } }
def absent2 (s : State) : Option (Nat × Nat × Nat) :=
  (s.coresOf 0 (s.participants 0)).findSome? fun c => (s.absentPage 0 (slotBase (s.partn 0).saveBase (1 + (1 - (s.partn 0).lastCapture)) c) (imageOffsets true)).map fun x => (c, x)

/-- A boundary that is due and one that is not; a capture whose fibres are not saved, without a save area, with a page of it absent, and with no pipeline
to save. -/
theorem witness_IntervalAndPreemption_interval :
    let due : State := labPart fun p => { p with intCtl := 0x200000000, ickpt := true }
    let at' (base : DWord) (p : Partition) : Partition := { p with boundary := true, saveCtl := base }
    (due.boundaryDue 0 = true ∧ lab.boundaryDue 0 = false) ∧ (labUsers false (at' 0)).captureReady 0 = false ∧
    ((labUsers true (at' 0)).captureReady 0 = true ∧ (((labUsers true (at' 0)).partn 0).saveBase = 0)) ∧
    ((labUsers true (at' 0x800000)).captureReady 0 = true ∧ (absent2 (labUsers true (at' 0x800000))).isSome = true) ∧
    ((labPart (at' 0x800000)).captureReady 0 = true ∧ ((labPart (at' 0x800000)).partn 0).saveBase ≠ 0 ∧ (absent2 (labPart (at' 0x800000))).isNone = true) := by decide +kernel

/-- A contract of 1,000 microseconds with a budget of one, in its period: no longer admitted, at the end of its period, at the clock before,
with its budget just spent, and synchronous. -/
def contract1 (adm : Bool) (spent : Nat) : Contract :=
  { Contract.blank with reg := BitVec.ofNat 64 (2 ^ 63 + 1000 * 2 ^ 36 + 1000 * 2 ^ 18 + 1), adm := adm, start := some 0, spent := spent }
def labFsc (c : Contract) (clock : Nat) : State := { labPart (fun p => { p with contracts := p.contracts.set 15 c }) with clock := clock }
theorem witness_IntervalAndPreemption_contracts :
    ((labFsc (contract1 false 0) 0).contract 0 15).adm = false ∧ ({ contract1 true 0 with reg := (contract1 true 0).reg ||| 0x2000000000000000 }).sync = true ∧
    (((labFsc (contract1 true 0) 1800000).contract 0 15).sync = false ∧ 0 + (contract1 true 0).p * 1800 ≤ 1800000 ∧ 1799999 < 0 + (contract1 true 0).p * 1800) ∧
    ((contract1 true 0).c * 1800 ≤ (contract1 true 1800).spent ∧ ¬ (contract1 true 0).c * 1800 ≤ (contract1 true 1799).spent) := by decide +kernel

/-- The active contract's pipeline waits for a group context, and all 128 have their members in a pipeline of lower priority. -/
def labTight : State :=
  { labFsc (contract1 true 0) 0 with
    pipes := [{ pipe1 with handle := 1, supervisor := false, contract := some 15, stages := [stage0], pending := [pend0] }, pipe2 3]
    fibres := [{ fibreOf 1 0 with pipe := 2 }], groups := (List.range 128).map fun k => { Group.blank with handle := k, members := [(0, 1)] } }
theorem witness_IntervalAndPreemption_fsc :
    lab.activeContract 0 = none ∧ labTight.activeContract 0 = some 15 ∧
    (match (labTight.runningPipes 0).findSome? fun (p : Pipe) => if p.contract ≠ some 15 then none
        else (p.pending.find? fun x => (p.stages[x.stage]?).isSome && (labTight.startInstance p x).isNone).map fun x => (p, x) with
      | none => none
      | some (p, x) =>
        let order := (sortBy (fun (q : Pipe) => 3 - labTight.pipePrio q) ((labTight.runningPipes 0).filter fun (q : Pipe) =>
          decide (((p.stages[x.stage]?).map fun r => labTight.effPrio p r.prio).getD 0 < labTight.pipePrio q) && q.holds.isEmpty)).map fun q => q.handle
        ((List.range (order.length + 1)).flatMap fun n => choose n order).find? fun hs => ((labTight.without 0 hs).startInstance p x).isSome) = some [2] := by decide +kernel

/-- A gang that has not issued for exactly 64 clocks, beside one in the tier that would issue and for which physical storage lacks one word; a gang saved
whole, with its image in the emergency area, with a page of its image absent, and one fibre of which is not saved. -/
theorem witness_IntervalAndPreemption_gangs :
    let s : State := { lab with fibres := [{ fibreOf 1 0 with win := 32257, lastIssue := 936 }, { fibreOf 2 1 with slot := 1, tiered := true }] }
    let g : GangId := (fibreOf 1 0).gang
    let h : GangId := { (fibreOf 1 0).gang with slot := 8 }
    let saved (e : Option Nat) (b : Bool) : State := { labPart (fun p => { p with emergency := e }) with fibres := [{ fibreOf 1 0 with slot := 8, saved := true }, { fibreOf 2 1 with slot := 8, saved := b }] }
    let h1 : GangId := { (fibreOf 1 0).gang with slot := 1 }
    let missing (s : State) : Option (Nat × Nat) := s.absentPage 0 (slotBase (s.partn 0).saveBase 0 0) (imageOffsets false)
    (g.slot < 8 ∧ (∃ f ∈ s.gangFibres g, f.tiered = false) ∧ (∀ f ∈ s.gangFibres g, f.lastIssue + 64 ≤ s.clock) ∧ h1 ∈ s.neighbours g ∧ s.wantsRecall h1 = true ∧
      32768 < s.wordsHeld h1.part h1.lcore h1.quad false + s.gangWords h1 true ∧
      s.wordsHeld g.part g.lcore g.quad true + s.gangWords g false ≤ 65536 + s.gangWords h1 true) ∧
    lab.wordsHeld g.part g.lcore g.quad false + lab.gangWords g true ≤ 32768 ∧
    (∀ f ∈ (saved (some 0) true).gangFibres h, f.saved = true ∧ (saved (some 0) true).mayReturn f = true) ∧
    (((saved (some 0) true).slotFor ((saved (some 0) true).gangFibres h)).isSome = true ∧ 8 ≤ h.slot ∧ ((saved (some 0) true).partn 0).emergency = some 0) ∧
    (((saved none true).slotFor ((saved none true).gangFibres h)).isSome = true ∧ (missing (saved none true)).isSome = true ∧ ((saved none true).partn 0).emergency ≠ some 0) ∧
    (∃ f ∈ (saved none false).gangFibres h, f.saved = false) ∧ (g ∈ lab.liveGangs ∧ h ∉ lab.liveGangs) ∧ lab.gangFibres h = [] := by decide +kernel

/-- Requests and moves before their deadline; a diverted image with a page absent; one that has waited exactly 2^24 clocks; a move. -/
theorem witness_IntervalAndPreemption_rest :
    let q : State := labPart fun p => { p with preqs := [{ source := 0, pipes := [2], deadline := 1001 }], migrs := [{ src := 0, dst := 5, state := 1, deadline := 1001 }] }
    let e : State := labPart fun p => { p with emergency := some 0 }
    let d : State := { labPart (fun p => { p with diverting := [(0, 1000)] }) with clock := 1000 + 2 ^ 24 }
    let m : State := labPart fun p => { p with migrs := [{ src := 0, dst := 5, state := 2, deadline := 0 }] }
    ((∀ x ∈ (q.partn 0).preqs, q.clock < x.deadline) ∧ (∀ x ∈ (q.partn 0).migrs, x.state = 1 → q.clock < x.deadline)) ∧
    ((e.partn 0).emergency = some 0 ∧ (e.absentPage 0 (slotBase (e.partn 0).saveBase 0 0) (imageOffsets false)).isSome = true ∧ (lab.partn 0).emergency = none) ∧
    ((d.partn 0).diverting.find? (fun x => decide (x.2 + 2 ^ 24 ≤ d.clock)) = some (0, 1000) ∧
      (d.absentPage 0 (slotBase (d.partn 0).saveBase 0 0) (imageOffsets false)).isSome = true ∧ ∀ x ∈ (d.partn 0).diverting, { d with clock := 999 + 2 ^ 24 }.clock < x.2 + 2 ^ 24) ∧
    ((m.partn 0).migrs.find? (fun m => m.src == 0 && m.state == 2) = some { src := 0, dst := 5, state := 2, deadline := 0 } ∧ (m.partn 0).phys? 0 = some 0 ∧
      ∀ x ∈ (q.partn 0).migrs, x.src = 0 → x.state ≠ 2) := by decide +kernel

/-! ### The device -/

def awaited0 : Awaited := { seq := 7, pipe := 1, cause := 0x000F, uid := 1, held := [1], due := some 1000 }
/-- A machine whose partition has a log at 0 with an answer in it, and a record that waits for it. -/
def labAns (ans : Nat) (cause : Nat) (st : FState) : State :=
  { labPart (fun p => { p with errlog := 6, awaited := [{ awaited0 with cause := cause }] }) with
    fibres := [{ fibreOf 1 0 with st := st, wait := .held, hold := some { cause := cause, answer := none, len := some 4, debugger := false } }, fibreOf 2 1]
    mem := (State.reset.setBytes 32 (leBytes 8 ans)).mem }

/-- Sensor readings at each limit, with the device tripped and not; loops that a zone reads as lost; a table that changes; bring-up and reload; answers that are not there, not
new, of another action, for no record, that do not apply and that do; and a mismatch at its limit and before it. -/
theorem witness_DeviceEvents :
    let ans := 7 * 2 ^ 32
    let a (s : State) : DWord := (s.ansWord 0).getD 0
    (lab.trip = false ∧ { lab with trip := true }.trip = true ∧ (1519 : BitVec 12).toNat < 1520 ∧ 1520 ≤ (1520 : BitVec 12).toNat ∧ (1839 : BitVec 12).toNat < 1840 ∧
      1840 ≤ (1840 : BitVec 12).toNat ∧ lab.ready = true ∧ { lab with ready := false }.ready = false) ∧
    (let u (z : Nat) (t b : Bool) : List (Bool × Bool) := (lab.loops.set 7 (true, false)).modify z fun x => (x.1 || t, x.2 || b)
     let v (z : Nat) (t b : Bool) : List (Bool × Bool) := lab.loops.modify z fun x => (x.1 || t, x.2 || b)
     ((∃ x ∈ u 3 false true, x.1 = true) ∧ ∃ x ∈ u 3 false true, x.2 = true) ∧ ((∃ x ∈ u 3 false false, x.1 = true) ∧ ∀ x ∈ u 3 false false, x.2 = false) ∧
     ((∀ x ∈ v 3 false true, x.1 = false) ∧ ∃ x ∈ v 3 false true, x.2 = true) ∧ ((∀ x ∈ v 3 false false, x.1 = false) ∧ ∀ x ∈ v 3 false false, x.2 = false) ∧
     lab.table = 0 ∧ lab.table ≠ 1) ∧
    ({ lab with ready := false, failed := false }.failed = false ∧ { lab with failed := true }.failed = true) ∧
    ((lab.ansWord 0).isNone = true ∧ ((labAns ans 0x000F .waitMemory).ansWord 0) = some (BitVec.ofNat 64 ans) ∧ (labAns 0 0x000F .waitMemory).ansNew 0 0 = false) ∧
    ((labAns (ans + 1) 0x000F .waitMemory).ansNew 0 (a (labAns (ans + 1) 0x000F .waitMemory)) = true ∧ (a (labAns (ans + 1) 0x000F .waitMemory)).toNat % 256 = 1) ∧
    (∃ x, ((labAns (ans + 1) 0x000F .waitMemory).acquireAns 0 (BitVec.ofNat 64 (ans + 1))).answered? 0 (BitVec.ofNat 64 (ans + 1)) = some x) ∧
    (((labAns (ans + 1) 0x000F .ended).acquireAns 0 (BitVec.ofNat 64 (ans + 1))).answered? 0 (BitVec.ofNat 64 (ans + 1))).isNone = true ∧
    (∃ x, ((labAns (ans + 4) 0x0003 .waitMemory).acquireAns 0 (BitVec.ofNat 64 (ans + 4))).answered? 0 (BitVec.ofNat 64 (ans + 4)) = some x ∧ x.cause ≠ cReplMismatch) ∧
    (let s := labAns ans cReplMismatch .waitMemory
     { awaited0 with cause := cReplMismatch } ∈ (s.partn 0).awaited ∧ 1000 ≤ s.clock ∧ ∀ x ∈ (s.partn 0).awaited, x.cause = cReplMismatch → x = { awaited0 with cause := cReplMismatch }) ∧
    ∀ x ∈ ((labAns ans cReplMismatch .waitMemory).partn 0).awaited, ∀ d, x.due = some d → { lab with clock := 999 }.clock < d := by
  refine ⟨by decide +kernel, by decide +kernel, by decide +kernel, by decide +kernel, by decide +kernel, ?_, by decide +kernel, ?_, by decide +kernel, ?_⟩
  · exact Option.isSome_iff_exists.mp (by decide +kernel)
  · exact ⟨{ awaited0 with cause := 0x0003 }, by decide +kernel, by decide +kernel⟩
  · intro x hx d hd
    have h : ((labAns (7 * 2 ^ 32) cReplMismatch .waitMemory).partn 0).awaited = [{ awaited0 with cause := cReplMismatch }] := by decide +kernel
    rw [h, List.mem_singleton] at hx
    rw [hx] at hd
    cases hd
    decide +kernel

end

end Sys2Proof.Tests
end

