-- ==== Sys2Proof/Tests/Slice0.lean ====
section
/-! SUPPORT. Tests: ill-formed terms that the static check refuses, words written out from the spec's encodings, and single steps whose
results are worked out by hand from the rules. -/

namespace Sys2Proof.Tests

set_option Elab.async false

open Sys2Proof Sys2Proof.Machine

noncomputable section

/-- LD v8, [s2] of N32. -/
def eLd : Ext := { ext0 with d := 8, a := 2, bk := 2, ak := true, ty := .n32 }

/-! ### The static check refuses an ill-formed term for each check (R169) -/

theorem test_wf_well : Instr.check (.ld eLd) = none := by rfl
theorem test_wf_literal : Instr.check (.ld { eLd with lit := some 5, imm := 1 }) = some .literal := by rfl
theorem test_wf_literal_unused : Instr.check (.gbar { ext0 with lit := some 5, ty := .b32 }) = some .literal := by rfl
theorem test_wf_type : Instr.check (.prmt { ext0 with ty := .s32 }) = some .badType := by rfl
theorem test_wf_mod : Instr.check (.isetp { ext0 with ty := .n32, pdv := true, pd := 1, mod := 6 }) = some .badMod := by rfl
theorem test_wf_window : Instr.check (.ld { eLd with mod := 20 }) = some .badMod := by rfl
theorem test_wf_pair : Instr.check (.ld { eLd with d := 9, ty := .n64 }) = some .badField := by rfl
theorem test_wf_scalar : Instr.check (.smovi { ext0 with d := 192, dk := true, ty := .b64, bk := 2 }) = some .badField := by rfl
theorem test_wf_scalar_base : Instr.check (.saddBase { stall := 0, gn := false, gp := 0, d := 64, a := 0 }) = some .badField := by rfl
theorem test_wf_pred : Instr.check (.ld { eLd with pdv := false, pd := 3 }) = some .badPred := by rfl
theorem test_wf_imm : Instr.check (.blut { ext0 with ty := .b32, imm := 0x100 }) = some .badMod := by rfl
theorem test_wf_fend : Instr.check (.fendBase { stall := 0, gn := false, gp := 0, d := 1, a := 0 }) = some .badField := by rfl
theorem test_wf_branch : Instr.check (.braExt (.baseLit { stall := 0, gn := false, gp := 0, off := 1 } 0x4000)) = some .badField := by rfl
theorem test_wf_eret : Instr.check (.eretSkip { ext0 with mod := 2 }) = some .badMod := by rfl

/-! ### Words, field by field as R155, R157 and R159 lay them out -/

/-- A base word: LEN, MAJOR, STALL, GN, GP, MINOR, D, A. -/
def baseBits (len : BitVec 2) (major : BitVec 6) (stall : BitVec 3) (gn : BitVec 1) (gp minor : BitVec 3) (d a : BitVec 7) : Word :=
  len ++ major ++ stall ++ gn ++ gp ++ minor ++ d ++ a
/-- Word 0 of the extended form: LEN, MAJOR, STALL, GN, GP, MINOR, MOD. -/
def word0 (len : BitVec 2) (major : BitVec 6) (stall : BitVec 3) (gn : BitVec 1) (gp : BitVec 4) (minor : BitVec 6) (mod : BitVec 10) : Word :=
  len ++ major ++ stall ++ gn ++ gp ++ minor ++ mod
/-- Word 1: D, A, B, DK, AK, BK, CK. -/
def word1 (d a b : BitVec 9) (dk ak : BitVec 1) (bk : BitVec 2) (ck : BitVec 1) : Word := d ++ a ++ b ++ dk ++ ak ++ bk ++ ck
/-- Word 2: C, TYPE, PDV, PD, IMM. -/
def word2 (c : BitVec 9) (ty : BitVec 4) (pdv : BitVec 1) (pd : BitVec 4) (imm : BitVec 14) : Word := c ++ ty ++ pdv ++ pd ++ imm

/-- IMULH v5, v5, v9 by !p2, stall 3 (major 0x09). -/
theorem test_decode_multiply : decode [baseBits 0 0x09 3 1 2 1 5 9] = .ok (.imulhBase { stall := 3, gn := true, gp := 2, d := 5, a := 9 }, []) := by rfl
/-- XOR v127, v127, literal (major 0x0A, LEN 10). -/
theorem test_decode_logic : decode [baseBits 2 0x0A 0 0 0 2 127 0, 0xFFFFFFFF, 0] =
    .ok (.xorExt (.baseLit { stall := 0, gn := false, gp := 0, d := 127, a := 0 } 0xFFFFFFFF), []) := by rfl
/-- FSHL v8, v2, v1, v3 (major 0x0B). -/
theorem test_decode_shift : decode [word0 1 0x0B 0 0 0 4 0, word1 8 2 1 0 0 0 0, word2 3 14 0 0 0] =
    .ok (.fshl { ext0 with d := 8, a := 2, b := 1, c := 3, ty := .n32 }, []) := by rfl
/-- POPC v0, v1 (major 0x0C). -/
theorem test_decode_count : decode [baseBits 0 0x0C 7 0 7 3 0 1] = .ok (.popcBase { stall := 7, gn := false, gp := 7, d := 0, a := 1 }, []) := by rfl
/-- SMOV s63, s2 (major 0x10), and SSAR s1, s1, s0 (major 0x11). -/
theorem test_decode_scalar : decode [baseBits 0 0x10 0 0 0 5 63 2] = .ok (.smovBase { stall := 0, gn := false, gp := 0, d := 63, a := 2 }, []) := by rfl
theorem test_decode_scalar_logic : decode [baseBits 0 0x11 1 0 0 5 1 0] = .ok (.ssarBase { stall := 1, gn := false, gp := 0, d := 1, a := 0 }, []) := by rfl
/-- SLD.ACQ s8, [s2] of N64 at DEVICE scope (major 0x12). -/
theorem test_decode_scalar_load : decode [word0 1 0x12 0 0 0 0 0x1A0, word1 8 2 0 1 1 2 0, word2 0 15 0 0 0] =
    .ok (.sld { ext0 with mod := 0x1A0, d := 8, a := 2, dk := true, ak := true, bk := 2, ty := .n64 }, []) := by rfl
/-- SHFL.XOR p1, v8, v2, 1 (major 0x14). -/
theorem test_decode_lane : decode [word0 1 0x14 0 0 0 0 3, word1 8 2 0 0 0 2 0, word2 0 6 1 1 1] =
    .ok (.shfl { ext0 with mod := 3, d := 8, a := 2, bk := 2, pdv := true, pd := 1, imm := 1 }, []) := by rfl
/-- FADD.RZ v8, v2, 1.0 (major 0x18; R161), HMAX2 v3, v3, v4 (major 0x19), TANH v0, v1 (major 0x1E). -/
theorem test_decode_float : decode [word0 1 0x18 2 0 15 0 0x100, word1 8 2 0 0 0 2 0, word2 0 0 0 0 0x0FE0] =
    .ok (.faddExt (.ext { ext0 with stall := 2, gp := 15, mod := 0x100, d := 8, a := 2, bk := 2, ty := .f32, imm := 0x0FE0 }), []) := by rfl
theorem test_decode_packed : decode [baseBits 0 0x19 0 0 0 3 3 4] = .ok (.hmax2Base { stall := 0, gn := false, gp := 0, d := 3, a := 4 }, []) := by rfl
theorem test_decode_special : decode [baseBits 0 0x1E 0 0 0 7 0 1] = .ok (.tanhBase { stall := 0, gn := false, gp := 0, d := 0, a := 1 }, []) := by rfl
/-- F2I.S32 v8, v2 (major 0x1F). -/
theorem test_decode_convert : decode [word0 1 0x1F 0 0 0 1 0, word1 8 0 2 0 0 0 0, word2 0 10 0 0 0] = .ok (.f2i { ext0 with d := 8, b := 2, ty := .s32 }, []) := by rfl
/-- ST [s2 + 4], v8 (major 0x21). -/
theorem test_decode_store : decode [word0 1 0x21 0 0 0 0 0, word1 8 2 0 0 1 2 0, word2 0 6 0 0 4] =
    .ok (.st { ext0 with d := 8, a := 2, ak := true, bk := 2, imm := 4 }, []) := by rfl
/-- ATOM.ADD v8, [s2], v3 (major 0x24). -/
theorem test_decode_atomic : decode [word0 1 0x24 0 0 0 0 0, word1 8 2 0 0 1 2 0, word2 3 14 0 0 0] =
    .ok (.atomAdd { ext0 with d := 8, a := 2, ak := true, bk := 2, c := 3, ty := .n32 }, []) := by rfl
/-- FENCE.AR.SY (major 0x26). -/
theorem test_decode_fence : decode [word0 1 0x26 0 0 0 0 0x3E0, 0, word2 0 6 0 0 0] = .ok (.fence { ext0 with mod := 0x3E0 }, []) := by rfl
/-- Reserved majors, minors without a base word, and a field that an instruction does not use (R160, R168). -/
theorem test_decode_reserved_major : decode [baseBits 0 0x07 0 0 0 0 0 0] = .error .reserved ∧ decode [word0 1 0x3F 0 0 0 0 0, 0, 0] = .error .reserved := ⟨by rfl, by rfl⟩
theorem test_decode_no_base : decode [baseBits 0 0x0B 0 0 0 4 0 0] = .error .noBase ∧ decode [baseBits 0 0x20 0 0 0 0 0 0] = .error .noBase := ⟨by rfl, by rfl⟩
theorem test_decode_unused_field : decode [word0 1 0x1F 0 0 0 1 0, word1 8 1 2 0 0 0 0, word2 0 10 0 0 0] = .error .badField := by rfl

/-! ### Single steps -/

/-- The state after an instruction. -/
def after (i : Instr) (s : State) : State :=
  match exec i s with
  | .next t => t
  | .fault _ => s
  | .refused _ => s
/-- A v-register of the fibre in lane 0 or 1. -/
def reg (s : State) (lane n : Nat) : Word := ((s.fibre (lane + 1)).v n).val
def sreg (s : State) (n : Nat) : DWord := ((s.group ⟨0, 5, 0⟩).sreg n).val
/-- The machine with a v-register of both fibres set. -/
def labV (n : Nat) (x : Word) : State := { lab with fibres := lab.fibres.map fun f => f.setV n ⟨x, false⟩ }

/-- 0xFFFFFFFF + 7 wraps to 6 (R208). -/
theorem test_iadd_wraps : reg (after (.iaddBase b0) (labV 8 0xFFFFFFFF)) 0 8 = 6 := by decide +kernel
/-- The worked example of R223: −100 is below 100 as S32, and 4,294,967,196 is not as N32. -/
theorem test_isetp_signed : ((after (.isetp { ext0 with mod := 2, a := 3, bk := 2, ty := .s32, pdv := true, pd := 2, imm := 100 }) (labV 3 0xFFFFFF9C)).fibre 1).pred 2 = true := by
  decide +kernel
theorem test_isetp_unsigned : ((after (.isetp { ext0 with mod := 2, a := 3, bk := 2, ty := .n32, pdv := true, pd := 2, imm := 100 }) (labV 3 0xFFFFFF9C)).fibre 1).pred 2 = false := by
  decide +kernel
/-- floor(−2^31 × 7 / 2^32) is −4 (R211). -/
theorem test_imulh_floor : reg (after (.imulhBase b0) (labV 8 0x80000000)) 0 8 = 0xFFFFFFFC := by decide +kernel
/-- A shift by 40 of 32 bits: SAR fills with bit 31, SHL gives 0 (R212). -/
theorem test_sar_past_width : reg (after (.sarExt (.ext { ext0 with d := 8, a := 8, bk := 2, ty := .s32, imm := 40 })) (labV 8 0x80000000)) 0 8 = 0xFFFFFFFF := by decide +kernel
theorem test_shl_past_width : reg (after (.shlExt (.ext { ext0 with d := 8, a := 8, bk := 2, ty := .s32, imm := 32 })) (labV 8 0xFFFFFFFF)) 0 8 = 0 := by decide +kernel
/-- Selector 8 fills a byte with bit 7 of byte 0, selector 0 takes byte 0 (R212). -/
theorem test_prmt_sign : reg (after (.prmt { ext0 with d := 9, a := 8, b := 0, c := 7, ty := .b32 })
    { labV 8 0x80 with fibres := lab.fibres.map fun f => (f.setV 8 ⟨0x80, false⟩).setV 7 ⟨8, false⟩ }) 0 9 = 0x808080FF := by decide +kernel
/-- The majority of 0xC, 0xA and 0x6 is 0xE (R212). -/
theorem test_blut_majority : reg (after (.blut { ext0 with d := 9, a := 10, b := 11, c := 12, ty := .b32, imm := 0xE8 })
    { lab with fibres := lab.fibres.map fun f => ((f.setV 10 ⟨0xC, false⟩).setV 11 ⟨0xA, false⟩).setV 12 ⟨6, false⟩ }) 0 9 = 0xE := by decide +kernel
theorem test_clz_zero : reg (after (.clzBase { b0 with a := 3 }) (labV 3 0)) 0 8 = 32 := by decide +kernel
/-- s4 + s4 is 4, from the base word s4 ← s4 + s4 (R156, R214). -/
theorem test_sadd_base : sreg (after (.saddBase { stall := 0, gn := false, gp := 0, d := 4, a := 4 }) lab) 4 = 4 := by decide +kernel
/-- Lane 0 takes lane 1's v2, which is 8 (R218). -/
theorem test_shfl_xor : reg (after (.shfl { ext0 with mod := 3, d := 9, a := 2, bk := 2, ty := .b32, imm := 1 }) lab) 0 9 = 8 := by decide +kernel
/-- 7 + 8 over the active lanes; under a guard that holds in lane 1 only, 8 (R217, R222). -/
theorem test_reduce_add : sreg (after (.reduce { ext0 with d := 9, dk := true, a := 2, ty := .n32 }) lab) 9 = 15 := by decide +kernel
theorem test_reduce_guarded : sreg (after (.reduce { ext0 with gp := 2, d := 9, dk := true, a := 2, ty := .n32 })
    { lab with fibres := [fibreOf 1 0, (fibreOf 2 1).setPred 2 true] }) 9 = 8 := by decide +kernel
/-- The worked example of R223: lane 1 of 1.0, 2^24 holds 2^24, and the exclusive prefix of lane 0 is −0. -/
theorem test_scan_example :
    let s : State := { lab with fibres := [(fibreOf 1 0).setV 8 ⟨0x3F800000, false⟩, (fibreOf 2 1).setV 8 ⟨0x4B800000, false⟩] }
    reg (after (.scan { ext0 with d := 9, a := 8, ty := .f32 }) s) 1 9 = 0x4B800000 ∧ reg (after (.scan { ext0 with mod := 8, d := 9, a := 8, ty := .f32 }) s) 0 9 = 0x80000000 := by
  decide +kernel
/-- 1.0 + 2^−24: a tie to even gives 1.0, rounding up the next number (R143, R161). -/
theorem test_fadd_rounds : reg (after (.faddExt (.ext { ext0 with d := 9, a := 8, b := 7, ty := .f32 }))
    { lab with fibres := lab.fibres.map fun f => (f.setV 8 ⟨0x3F800000, false⟩).setV 7 ⟨0x33800000, false⟩ }) 0 9 = 0x3F800000 := by decide +kernel
theorem test_fadd_rounds_up : reg (after (.faddExt (.ext { ext0 with mod := 0x200, d := 9, a := 8, b := 7, ty := .f32 }))
    { lab with fibres := lab.fibres.map fun f => (f.setV 8 ⟨0x3F800000, false⟩).setV 7 ⟨0x33800000, false⟩ }) 0 9 = 0x3F800001 := by decide +kernel
/-- The immediate 0x2FC0 is −0.5 (R161): −0.5 × −0.5 is 0.25. -/
theorem test_fmul_immediate : reg (after (.fmulExt (.ext { ext0 with d := 9, a := 8, bk := 2, ty := .f32, imm := 0x2FC0 })) (labV 8 0xBF000000)) 0 9 = 0x3E800000 := by decide +kernel
/-- A store of 0x12345678 puts its low byte first (R243). -/
theorem test_st_little_endian : (after (.st { ext0 with d := 8, a := 2, ak := true, bk := 2, ty := .b32 }) (labV 8 0x12345678)).bytes (spdKey 0 0) 4 = [0x78, 0x56, 0x34, 0x12] := by
  decide +kernel
/-- A load one byte past a word traps MISALIGN, and both fibres are held at it (R241). -/
theorem test_ld_misaligned :
    let t := after (.ld eLd) (labS2 ⟨BitVec.ofNat 64 (spd + 1), false⟩)
    (t.fibre 2).wait = .held ∧ (t.fibre 2).hold.map (fun h => h.cause) = some 0x0003 ∧ (t.fibre 2).pc = 0x1000 := by decide +kernel
/-- Both fibres add 3 to a word of the scratchpad (R247). -/
theorem test_atom_add : (after (.redAdd { ext0 with d := 1, a := 2, ak := true, bk := 2, ty := .n32 }) lab).bytes (spdKey 0 0) 1 = [6] := by decide +kernel
/-- BRA −2 from 0x1000 goes to 0xFF8 (R157). -/
theorem test_bra_back : ((after (.braBase { stall := 0, gn := false, gp := 0, off := -2 }) lab).fibre 1).pc = 0xFF8 := by decide +kernel
/-- Under a guard that no fibre meets the branch falls through (R165). -/
theorem test_bra_guarded : ((after (.braBase { stall := 0, gn := true, gp := 0, off := -2 }) lab).fibre 1).pc = 0x1004 := by decide +kernel
theorem test_fend_ends : ((after (.fendBase { stall := 0, gn := false, gp := 0, d := 0, a := 0 }) lab).fibre 1).st = .ended := by decide +kernel
theorem test_sleep : ((after (.sleep { ext0 with bk := 2 }) lab).fibre 1).st = .sleeping := by decide +kernel
/-- HALT outside the supervisor's pipeline traps PRIV with 6 × 256 + 6 (R167, R170). -/
theorem test_halt_priv :
    let t := after (.halt ext0) labUser
    (t.fibre 1).hold.map (fun h => h.cause) = some 0x0002 ∧ (t.dlog.head?.map fun x => x.2.toNat / 2 ^ 320 % 2 ^ 64) = some 0x606 := by decide +kernel
/-- TRAP 9 holds its fibres; the record's DETAIL is 9 (R183). -/
theorem test_trap_code :
    let t := after (.trap { ext0 with imm := 9 }) lab
    (t.fibre 1).wait = .held ∧ (t.fibre 1).pc = 0x1000 ∧ (t.dlog.head?.map fun x => x.2.toNat / 2 ^ 320 % 2 ^ 64) = some 9 := by decide +kernel
/-- MZERO writes sixteen zeros (R283). -/
theorem test_mzero : reg (after (.mzero { ext0 with d := 0 }) lab) 0 2 = 0 := by decide +kernel
/-- BLD.GEN of generation 1, with nothing staged, no job and no pin (R357). -/
theorem test_bld_gen : sreg (after (.bldGen { ext0 with d := 8, dk := true, a := 30, ak := true }) lab) 8 = 0x100000000 := by decide +kernel
theorem test_sigrd : sreg (after (.sigrd { ext0 with d := 8, dk := true, ty := .b64 }) { lab with fibres := lab.fibres.map fun f => { f with sig := 77 } }) 8 = 77 := by decide +kernel
/-- CREATE of a partition that runs answers status 2 (R390). -/
theorem test_create_busy : (after (.create 0) lab).cmdStat = 2 := by decide +kernel
/-- 115 °C trips the device, a sixteenth of a degree less does not (R425). -/
theorem test_thermal_trip : (after (.thermalSensorSample 5 1840) lab).trip = true ∧ (after (.thermalSensorSample 5 1839) lab).trip = false := by decide +kernel
/-- The first step after reset runs the instruction placed: MOV v16, 3 of the worked encodings, 12 bytes long. -/
theorem test_first_step :
    (match step (State.reset.withFetchWord 96 0x0000000000000000388018800) with
    | .next t => t.fibres.map fun f => (f.pc, (f.v 16).val)
    | .fault _ => []
    | .refused _ => []) = [(0x1000C, 3)] := by decide +kernel

/-- The machine of the example of R473: partition 3 with an interval open under tag 70, and a fibre of it. -/
def errorLab : State :=
  { State.reset.updPart 3 (fun p => { p with state := 2, openInterval := some 70 }) with fibres := [{ Fibre.blank with uid := 1, part := 3 }] }

/-- R473, case 1: bits 63:0 of the record of an uncorrectable flag of the home copy. -/
theorem test_home_error_record :
    (((errorLab.updPart 3 fun p => { p with fpool := 2 ^ 32 }).serveError (.device 0xA0 false) (some 1)).dlog.map fun r => (r.2.extractLsb' 0 64, r.2.extractLsb' 320 64)) =
      [(0x0000462800310105#64, 0x5#64)] := by decide +kernel

/-- R473, case 2: bits 63:0 of the record of a double-bit error in a version of the open interval tag; the partition rolls back. -/
theorem test_version_error_record :
    let t := errorLab.serveError (.cell 40 2 0x201400 none [] (some (70, 0x1400))) (some 1)
    (t.dlog.map fun r => (r.2.extractLsb' 0 64, r.2.extractLsb' 256 64, r.2.extractLsb' 320 64)) = [(0x0200462800310101#64, 0x201400#64, 0x200#64)] ∧
      (t.partn 3).rollback = true := by decide +kernel

end

end Sys2Proof.Tests
end

/-! Proofs of the statements of the scope: events that are due before issues (R300, R484), memory as a finite map (R4, R62), and the management
registers (R7, R388, R399 to R401, R427 to R430). -/

namespace Sys2Proof.Machine

section

variable {s : State}

/-! ### What a step takes first -/

/-- A slot start that is due comes before everything else of its clock (R300). -/
theorem step_of_dueSlot {e : Event} {r : List (Nat × Event)} (h : s.dueSlot = some (e, r)) : step s = exec e.toInstr { s with timers := r } := by
  simp only [step, stepWith, h]

/-- The state whose events a step looks at: what has come about by itself, once the device is ready. -/
def State.settledIfReady (s : State) : State := if s.ready then s.settle else s

/-- The state in which a step looks for an issue. -/
def State.plannedIfReady (t : State) : State := if t.ready then t.makePlan else t

/-- With no slot start due, the oldest event of the agenda comes first. -/
theorem step_of_agenda {e : Event} {r : List Event} (hs : s.dueSlot = none) (h : s.settledIfReady.agenda = e :: r) :
    step s = exec e.toInstr { s.settledIfReady with agenda := r } := by
  unfold State.settledIfReady at *
  simp only [step, stepWith, hs, h]

/-- With an empty agenda, the first timer that is due comes next, but for watchdogs. -/
theorem step_of_dueTimer {e : Event} {r : List (Nat × Event)} (hs : s.dueSlot = none) (ha : s.settledIfReady.agenda = [])
    (h : s.settledIfReady.dueTimer = some (e, r)) : step s = exec e.toInstr { s.settledIfReady with timers := r } := by
  unfold State.settledIfReady at *
  simp only [step, stepWith, hs, ha, h]

/-- Before READY no wave is picked. -/
theorem pickIfReady_eq_none {t : State} (h : t.ready = false ∨ t.plannedIfReady.pick = none) :
    (if t.plannedIfReady.ready then t.plannedIfReady.pick else none) = none := by
  rcases h with h | h
  · simp only [State.plannedIfReady, h, Bool.false_eq_true, if_false]
  · simp only [h, ite_self]

/-- With no event due and no wave to issue, the first watchdog that is due expires (R484). -/
theorem step_of_dueExpiry {e : Event} {r : List (Nat × Event)} (hs : s.dueSlot = none) (ha : s.settledIfReady.agenda = [])
    (ht : s.settledIfReady.dueTimer = none) (hp : s.settledIfReady.ready = false ∨ s.settledIfReady.plannedIfReady.pick = none)
    (h : s.settledIfReady.plannedIfReady.dueExpiry = some (e, r)) :
    step s = exec e.toInstr { s.settledIfReady.plannedIfReady with timers := r } := by
  have hn := pickIfReady_eq_none hp
  unfold State.plannedIfReady State.settledIfReady at *
  simp only [step, stepWith, hs, ha, ht, hn, h]

/-- With nothing at all due and no wave to issue, time passes. -/
theorem step_of_idle (hs : s.dueSlot = none) (ha : s.settledIfReady.agenda = []) (ht : s.settledIfReady.dueTimer = none)
    (hp : s.settledIfReady.ready = false ∨ s.settledIfReady.plannedIfReady.pick = none)
    (h : s.settledIfReady.plannedIfReady.dueExpiry = none) : step s = .next s.settledIfReady.plannedIfReady.tick := by
  have hn := pickIfReady_eq_none hp
  unfold State.plannedIfReady State.settledIfReady at *
  simp only [step, stepWith, hs, ha, ht, hn, h]

end

/-- Settles O4, one lemma for each branch of a step, in their order. That events come before timers and both before issues is the model's choice
(notes/assumptions/3.md, 5.md and 7.md); that slot starts come first and watchdogs last is R300 and R484. -/
theorem stepRunsEvents : Obligations.StepRunsEvents :=
  fun _ => ⟨fun _ _ => step_of_dueSlot, fun hs =>
    ⟨fun _ _ => step_of_agenda hs, fun _ _ => step_of_dueTimer hs, fun ha ht hp => ⟨fun _ _ => step_of_dueExpiry hs ha ht hp, step_of_idle hs ha ht hp⟩⟩⟩

/-! ### Memory -/

/-- Settles O12, by the laws of a finite map in canonical form. -/
theorem memoryLaws : Obligations.MemoryLaws :=
  ⟨memory_reset_wf, fun _ _ _ h => ⟨bytes_setBytes_same h, setBytes_wf h, fun _ ha => byte_setBytes_other h ha⟩⟩

section

variable {s : State} {part k : Nat} {v : DWord}

/-! ### Registers D (R388) -/

/-- A register D that the partition's state protects keeps its value. -/
theorem writeD_eq_self {g : Partition → Partition} (h0 : (s.partn part).state ≠ 0) (h1 : (s.partn part).state ≠ 1) : s.writeD part g = s := by
  simp only [State.writeD, h0, h1, if_false, false_and]

/-- A write of a register D is what R388 says. -/
theorem writesD_writeD (g : Partition → Partition) : writesD s (s.writeD part g) part g := by
  refine ⟨fun h => ?_, fun h hl => ?_, fun h hl => ?_, fun h0 h1 => writeD_eq_self h0 h1⟩
  · simp only [State.writeD, if_pos h]
  · simp only [State.writeD, h, hl, Nat.one_ne_zero, if_false, and_self, if_true]
  · simp only [State.writeD, h, hl, Nat.one_ne_zero, if_false, Bool.false_eq_true, and_false]

theorem writePage_clus : s.writePage part 0x010 v = s.writeD part fun x => { x with clus := v.extractLsb' 0 32 } := rfl
theorem writePage_reqva : s.writePage part 0x028 v = s.writeD part fun x => { x with reqva := kept (maskAt 6 58) v } := rfl
theorem writePage_hsvcBase : s.writePage part 0x048 v = s.writeD part fun x => { x with hsvcBase := v } := rfl
theorem writePage_errlog : s.writePage part 0x400 v = s.writeD part fun x => { x with errlog := kept (maskAt 16 36 + maskAt 0 4) v } := rfl
theorem writePage_mode : s.writePage part 0x018 v = s.updPart part fun x => { x with mode := v.extractLsb' 0 5 } := rfl
theorem writePage_preemptDl : s.writePage part 0x030 v = (s.writePreemptDl part v).1 := rfl

/-- The registers D keep their values while the partition is neither DOWN nor IDLE. -/
theorem writePage_protected (h0 : (s.partn part).state ≠ 0) (h1 : (s.partn part).state ≠ 1) {off : Nat}
    (h : off ∈ [0x010, 0x020, 0x028, 0x038, 0x040, 0x048, 0x060, 0x068, 0x070, 0x400]) : s.writePage part off v = s := by
  simp only [List.mem_cons, List.not_mem_nil, or_false] at h
  rcases h with rfl | rfl | rfl | rfl | rfl | rfl | rfl | rfl | rfl | rfl <;>
    simp only [State.writePage, Nat.reduceMod, ne_eq, not_true_eq_false, if_false, if_true, Nat.reduceEqDiff, Nat.reduceLeDiff, Nat.reduceLT, and_false,
      writeD_eq_self h0 h1]

/-- PREEMPT_DL takes 1 to 4,194,240 and nothing else. -/
theorem writePreemptDl_ignored (h : v.toNat = 0 ∨ 4194240 < v.toNat) : (s.writePreemptDl part v).1 = s := by
  simp only [State.writePreemptDl, if_pos h]

theorem writePreemptDl_taken (h0 : 0 < v.toNat) (h1 : v.toNat ≤ 4194240) :
    (s.writePreemptDl part v).1 = s.updPart part fun x => { x with preemptDl := v.toNat } := by
  have h : ¬ (v.toNat = 0 ∨ 4194240 < v.toNat) := by omega
  simp only [State.writePreemptDl, if_neg h]

/-- A write of FPOOL refills the pool, as a register D (R75). -/
theorem execFpoolWrite_ready (h : s.ready = true) : execFpoolWrite part v s =
    .next (s.writeD part fun p => { p with fpool := kept (maskAt 21 31 + maskAt 0 16) v, framesOut := [] }) := by
  simp only [execFpoolWrite, if_pos h]

theorem execFpoolWrite_ignored (h : s.ready = false) : execFpoolWrite part v s = .next s := by
  simp only [execFpoolWrite, h, Bool.false_eq_true, if_false]

/-- Before READY, and for a partition that does not exist, a write of a page is ignored (R422). -/
theorem execRegisterWrite_ignored {off : Nat} (h : s.ready = false ∨ 16 ≤ part) : execRegisterWrite (some part) off v s = .next s := by
  have : (s.ready && decide (part < 16)) = false := by
    rcases h with h | h
    · simp only [h, Bool.false_and]
    · simp only [Nat.not_lt.mpr h, decide_false, Bool.and_false]
  simp only [execRegisterWrite, this, Bool.false_eq_true, if_false]

theorem execRegisterWrite_ready {off : Nat} (hr : s.ready = true) (hp : part < 16) :
    execRegisterWrite (some part) off v s = .next (s.writePage part off v) := by
  simp only [execRegisterWrite, hr, hp, decide_true, Bool.and_self, if_true]

/-! ### Frame contracts (R400, R401) -/

/-- While EN is 1, a write that leaves it 1 changes nothing. -/
theorem writeContract_keeps (hc : (s.contract part k).en = true) (hv : (kept contractBits v).getLsbD 63 = true) : (s.writeContract part k v).1 = s := by
  simp only [State.writeContract, hc, hv, if_true]

/-- Clearing EN withdraws the contract. -/
theorem writeContract_withdraws (hc : (s.contract part k).en = true) (hv : (kept contractBits v).getLsbD 63 = false) :
    (s.writeContract part k v).1 = s.updContract part k fun c =>
      { c with reg := kept (contractBits - 2 ^ 63) c.reg, adm := false, start := none, spent := 0, delivered := false, overrun := false } := by
  simp only [State.writeContract, hc, hv, if_true, Bool.false_eq_true, if_false]

/-- A write that leaves EN 0 changes the fields. -/
theorem writeContract_fields (hc : (s.contract part k).en = false) (hv : (kept contractBits v).getLsbD 63 = false) :
    (s.writeContract part k v).1 = s.updContract part k fun c => { c with reg := kept contractBits v } := by
  simp only [State.writeContract, hc, hv, Bool.not_false, if_true, Bool.false_eq_true, if_false]

/-- A contract that the sums do not allow keeps EN 0. -/
theorem writeContract_refused (hc : (s.contract part k).en = false) (hv : (kept contractBits v).getLsbD 63 = true)
    (ha : (s.partn part).admits { Contract.blank with reg := kept contractBits v } = false) :
    (s.writeContract part k v).1 = s.updContract part k fun c => { c with reg := kept (contractBits - 2 ^ 63) (kept contractBits v) } := by
  simp only [State.writeContract, hc, hv, ha, Bool.not_false, Bool.not_true, if_true, Bool.false_eq_true, if_false]

/-- A contract that the sums allow is admitted; a free-running one begins its first period. -/
theorem writeContract_admitted (hc : (s.contract part k).en = false) (hv : (kept contractBits v).getLsbD 63 = true)
    (ha : (s.partn part).admits { Contract.blank with reg := kept contractBits v } = true) :
    let c' := { Contract.blank with reg := kept contractBits v }
    let u := s.updContract part k fun _ => { c' with reg := kept contractBits v ||| BitVec.ofNat 64 (2 ^ 62), adm := true }
    (s.writeContract part k v).1 = if c'.sync then u
      else (u.beginPeriod part k s.clock).timer (s.clock + c'.p * clocksPerUs) (.fscPeriodStart part k) := by
  simp only [State.writeContract, hc, hv, ha, Bool.not_true, Bool.false_eq_true, if_false]
  rfl

/-- Before READY, and for a contract that does not exist, a write is ignored. -/
theorem execFscContractWrite_ignored (h : s.ready = false ∨ 16 ≤ part ∨ 16 ≤ k) : execFscContractWrite part k v s = .next s := by
  have : (s.ready && decide (part < 16) && decide (k < 16)) = false := by
    rcases h with h | h | h
    · simp only [h, Bool.false_and]
    · simp only [Nat.not_lt.mpr h, decide_false, Bool.and_false, Bool.false_and]
    · simp only [Nat.not_lt.mpr h, decide_false, Bool.and_false]
  simp only [execFscContractWrite, this, Bool.false_eq_true, if_false]

theorem execFscContractWrite_ready (hr : s.ready = true) (hp : part < 16) (hk : k < 16) :
    execFscContractWrite part k v s = .next (s.writeContract part k v).1 := by
  simp only [execFscContractWrite, hr, hp, hk, decide_true, Bool.and_self, if_true]

/-! ### Sinks (R399) -/

theorem execSinkModeWrite_none {off : Nat} (h : sinkRegister off = none) : execSinkModeWrite off v s = .next s := by
  simp only [execSinkModeWrite, h]

/-- While EN is 1, a value waits for the next slot. -/
theorem execSinkModeWrite_enabled {off r : Nat} (h : sinkRegister off = some (k, r)) (he : (s.sink k).mode.getLsbD 63 = true) :
    execSinkModeWrite off v s = .next (s.updSink k fun x => x.put r (kept (sinkMask r) v)) := by
  simp only [execSinkModeWrite, h, he, if_true, Bool.not_true, Bool.false_and, Bool.false_eq_true, if_false]

/-- While EN is 0, a value is taken at once; where it sets EN, the slots start. -/
theorem execSinkModeWrite_disabled {off r : Nat} (h : sinkRegister off = some (k, r)) (he : (s.sink k).mode.getLsbD 63 = false) :
    let u := s.updSink k fun x => (x.put r (kept (sinkMask r) v)).latch
    execSinkModeWrite off v s = .next (if (u.sink k).mode.getLsbD 63
      then (u.updSink k fun x => { x with slotAt := u.clock + (u.sink k).firstSlot k }).timer (u.clock + (u.sink k).firstSlot k) (.sinkSlotStart k) else u) := by
  simp only [execSinkModeWrite, h, he, Bool.not_false, Bool.true_and, Bool.false_eq_true, if_false]
  split <;> rfl

/-! ### Vault slabs (R427, R428) -/

section

variable {core : Nat} {w : BitVec 8}

/-- What makes a write of VLT_PWR wait for an access (R428). -/
theorem slabBusy_iff : s.slabBusy part core w = true ↔
    ∃ k < 4, (s.partn part).slab core k = 0 ∧ (slabCode w k = 1 ∨ slabCode w k = 2) ∧ s.begunOn part core k = true := by
  simp only [State.slabBusy, List.any_eq_true, List.mem_range, Bool.and_eq_true, Bool.or_eq_true, beq_iff_eq, and_assoc]

theorem execVltPwrWrite_ignored (h : s.ready = false ∨ 128 ≤ core) : execVltPwrWrite part core w s = .next s := by
  have : (!s.ready) = true ∨ 128 ≤ core := by simpa only [Bool.not_eq_true'] using h
  simp only [execVltPwrWrite, if_pos this]

/-- A write of a core that exists, at READY, is past the check. -/
theorem vltPwr_passes (hr : s.ready = true) (hc : core < 128) : ¬ ((!s.ready) = true ∨ 128 ≤ core) := by
  simp only [hr, Bool.not_true, Bool.false_eq_true, false_or]
  omega

/-- A write that no access and no earlier write holds up takes effect. -/
theorem execVltPwrWrite_takes (hr : s.ready = true) (hc : core < 128) (hq : ∀ x ∈ (s.partn part).slabWrites, x.1 ≠ core)
    (hb : s.slabBusy part core w = false) : execVltPwrWrite part core w s = .next (s.setSlabs part core w) := by
  have h1 := vltPwr_passes hr hc
  have h2 : ((s.partn part).slabWrites.any fun x => x.1 == core) = false := by
    simpa only [List.any_eq_false, beq_iff_eq] using hq
  simp only [execVltPwrWrite, if_neg h1, h2, hb, Bool.or_self, Bool.false_eq_true, if_false]

/-- A write that an access or an earlier write holds up waits. -/
theorem execVltPwrWrite_waits (hr : s.ready = true) (hc : core < 128)
    (h : (∃ x ∈ (s.partn part).slabWrites, x.1 = core) ∨ s.slabBusy part core w = true) :
    execVltPwrWrite part core w s = .next (s.updPart part fun p => { p with slabWrites := p.slabWrites ++ [(core, w)] }) := by
  have h1 := vltPwr_passes hr hc
  have h2 : (((s.partn part).slabWrites.any fun x => x.1 == core) || s.slabBusy part core w) = true := by
    simpa only [Bool.or_eq_true, List.any_eq_true, beq_iff_eq] using h
  simp only [execVltPwrWrite, if_neg h1, if_pos h2]

end

/-- A wake ends by its last event: one that is set again leaves the slab waking. -/
theorem execVaultSlabWakeDone_set {core slab : Nat} (h : s.isSet (.vaultSlabWakeDone part core slab) = true) :
    execVaultSlabWakeDone part core slab s = .next s := by
  simp only [execVaultSlabWakeDone, if_pos h]

theorem execVaultSlabWakeDone_last {core slab : Nat} (h : s.isSet (.vaultSlabWakeDone part core slab) = false) :
    execVaultSlabWakeDone part core slab s = .next (s.updPart part fun p => { p with waking := p.waking.filter fun x => x != (core, slab) }) := by
  simp only [execVaultSlabWakeDone, h, Bool.false_eq_true, if_false]

/-! ### Debug (R429, R430) -/

/-- DBG_RESUME acts on the fibres that BKPT holds under the FIBRE_ID and partition it names. -/
def State.resumedBy (s : State) (v : DWord) : List Nat :=
  (s.fibres.filter fun f => f.atBreak && f.fid == bits v.toNat 0 32 && f.part == bits v.toNat 32 4).map fun f => f.uid

theorem execDbgResume_ignored (h : bits v.toNat 40 2 = 3) : execDbgResume v s = .next s := by
  simp only [execDbgResume, if_pos h]

theorem execDbgResume_end (h : bits v.toNat 40 2 = 2) : execDbgResume v s = .next ((s.resumedBy v).foldl (fun s u => s.endFibre u false) s) := by
  have h3 : ¬ bits v.toNat 40 2 = 3 := by omega
  simp only [execDbgResume, if_neg h3, if_pos h, State.resumedBy]

theorem execDbgResume_retry_or_skip (h : bits v.toNat 40 2 ≤ 1) :
    execDbgResume v s = .next (s.updAll (s.resumedBy v) fun f => f.resume (bits v.toNat 40 2) 0) := by
  have h3 : ¬ bits v.toNat 40 2 = 3 := by omega
  have h2 : ¬ bits v.toNat 40 2 = 2 := by omega
  simp only [execDbgResume, if_neg h3, if_neg h2, State.resumedBy]

section

variable {core array off : Nat}

/-- A core that is not halted, or not there, gives no answer. -/
theorem execDebugMemoryRead_refused (h : ¬ (s.halted part core = true ∧ ((s.partn part).phys? core).isSome = true)) :
    execDebugMemoryRead part core array off s = .next s := by
  rcases Classical.not_and_iff_not_or_not.mp h with h | h
  · simp only [execDebugMemoryRead, h, Bool.not_false, true_or, if_true]
  · simp only [execDebugMemoryRead, Option.not_isSome_iff_eq_none.mp h, Option.isNone_none, or_true, if_true]

variable (h : s.halted part core = true ∧ ((s.partn part).phys? core).isSome = true)

include h

/-- A halted core is past the check of a debug read. -/
theorem halted_passes : ¬ ((!s.halted part core) = true ∨ ((s.partn part).phys? core).isNone = true) := by
  obtain ⟨hh, hp⟩ := h
  obtain ⟨c, hc⟩ := Option.isSome_iff_exists.mp hp
  simp only [hh, hc, Bool.not_true, Option.isNone_some, Bool.false_eq_true, or_self, not_false_eq_true]

theorem execDebugMemoryRead_vault (hs : (s.partn part).slab core (off % 2 ^ 20 / 2 ^ 18) ≠ 2) : execDebugMemoryRead part core 0 off s =
    .next { s with dbgData := [BitVec.ofNat 64 (s.readNat (vltKey ((s.partn part).phys core) (off % 2 ^ 20 / 8 * 8)) 8)] } := by
  simp only [execDebugMemoryRead, if_neg (halted_passes h), if_neg hs]

/-- A slab that is OFF reads as all ones, and DARK is set. -/
theorem execDebugMemoryRead_dark (hs : (s.partn part).slab core (off % 2 ^ 20 / 2 ^ 18) = 2) :
    execDebugMemoryRead part core 0 off s = .next { s with dbgData := [BitVec.allOnes 64], dbgDark := true } := by
  simp only [execDebugMemoryRead, if_neg (halted_passes h), if_pos hs]

theorem execDebugMemoryRead_scratchpad : execDebugMemoryRead part core 1 off s =
    .next { s with dbgData := [BitVec.ofNat 64 (s.readNat (spdKey ((s.partn part).phys core) (off % 2 ^ 18 / 8 * 8)) 8)] } := by
  simp only [execDebugMemoryRead, if_neg (halted_passes h)]

theorem execDebugMemoryRead_vreg {f : Fibre}
    (hf : s.fibres.find? (fun f => f.part == part && f.onCore == core && f.live && f.fid == off / 512) = some f) :
    execDebugMemoryRead part core 2 off s = .next { s with dbgData := [(f.vPair (off % 512)).val] } := by
  simp only [execDebugMemoryRead, if_neg (halted_passes h), hf]

theorem execDebugMemoryRead_sreg (ha : 3 ≤ array) {g : Group}
    (hg : s.groups.find? (fun (g : Group) => g.part == part && g.handle == off / 192) = some g) :
    execDebugMemoryRead part core array off s = .next { s with dbgData := [(g.sreg (off % 192)).val] } := by
  obtain ⟨n, rfl⟩ : ∃ n, array = n + 3 := ⟨array - 3, by omega⟩
  simp only [execDebugMemoryRead, if_neg (halted_passes h), hg]

end

/-! ### Reads of registers (R7, R388) -/

/-- Past the regions a page holds no register, and reads as zero. -/
theorem readPage_past_end {off : Nat} (h : 0x700 ≤ off) : s.readPage part off = 0 := by
  by_cases h8 : off % 8 = 0
  · simp (disch := omega) only [State.readPage, if_neg]
  · simp only [State.readPage, ne_eq, h8, not_false_eq_true, if_true]

theorem readPage_contract (hk : k < 16) : s.readPage part (0x080 + 8 * k) = (s.contract part k).reg := by
  have : (0x080 + 8 * k - 0x080) / 8 = k := by omega
  simp (disch := omega) only [State.readPage, if_neg, if_pos, this]

/-- The mode and the time of the first eight sinks by their offset. -/
theorem sinkRegister_mode (hk : k < 8) : sinkRegister (0x600 + 16 * k) = some (k, 0) := by
  have h1 : (0x600 + 16 * k - 0x600) / 16 = k := by omega
  have h2 : (0x600 + 16 * k) % 16 / 8 = 0 := by omega
  simp (disch := omega) only [sinkRegister, if_neg, if_pos, h1, h2]

theorem sinkRegister_time (hk : k < 8) : sinkRegister (0x608 + 16 * k) = some (k, 1) := by
  have h1 : (0x608 + 16 * k - 0x600) / 16 = k := by omega
  have h2 : (0x608 + 16 * k) % 16 / 8 = 1 := by omega
  simp (disch := omega) only [sinkRegister, if_neg, if_pos, h1, h2]

theorem readDevicePage_sinkMode (hk : k < 8) : s.readDevicePage (0x600 + 16 * k) = (s.sink k).mode := by
  simp (disch := omega) only [State.readDevicePage, if_neg, sinkRegister_mode hk]

theorem readDevicePage_sinkTime (hk : k < 8) : s.readDevicePage (0x608 + 16 * k) = (s.sink k).time := by
  simp (disch := omega) only [State.readDevicePage, if_neg, sinkRegister_time hk]

end

/-- Settles O53, row by row: what each write does in each case is a lemma above, and a register at a fixed offset is found by evaluation. What is
checked in IDLE, the numbers of registers in a debug read, and what a write of VLT_PWR that waits lets happen are readings of the model
(notes/assumptions/62.md, 66.md and 91.md). -/
theorem registerWrites : Obligations.RegisterWrites := by
  refine ⟨fun s part k v => ⟨execFscContractWrite_ignored, fun hr hp hk => ?_⟩,
    fun s part v => ⟨execFpoolWrite_ignored, fun hr => ⟨_, execFpoolWrite_ready hr, writesD_writeD _⟩⟩,
    fun s off v => ⟨execSinkModeWrite_none, fun k r h => ⟨execSinkModeWrite_enabled h, execSinkModeWrite_disabled h⟩⟩,
    fun s part core v => ⟨execVltPwrWrite_ignored, slabBusy_iff, execVltPwrWrite_takes, execVltPwrWrite_waits⟩,
    fun s part core slab => ⟨execVaultSlabWakeDone_set, execVaultSlabWakeDone_last⟩, fun s v => rfl,
    fun s v => ⟨execDbgResume_ignored, execDbgResume_end, execDbgResume_retry_or_skip⟩,
    fun s part core array off => ⟨execDebugMemoryRead_refused, fun h ha => ?_, fun h ha => ?_, fun h ha => ?_, fun h ha f => ?_,
      fun h ha g => execDebugMemoryRead_sreg h ha⟩,
    fun s off v => rfl, fun s p off v => ⟨execRegisterWrite_ignored, execRegisterWrite_ready⟩, fun s p v => ?_, fun s p => ?_⟩
  · rw [show exec (.fscContractWrite part k v) s = _ from execFscContractWrite_ready hr hp hk]
    exact ⟨fun hc hv => congrArg _ (writeContract_keeps hc hv), fun hc hv => congrArg _ (writeContract_withdraws hc hv),
      fun hc hv => congrArg _ (writeContract_fields hc hv), fun hc hv =>
        ⟨fun ha => congrArg _ (writeContract_refused hc hv ha), fun ha => congrArg _ (writeContract_admitted hc hv ha)⟩⟩
  · exact ha ▸ execDebugMemoryRead_vault h
  · exact ha ▸ execDebugMemoryRead_dark h
  · exact ha ▸ execDebugMemoryRead_scratchpad h
  · exact ha ▸ execDebugMemoryRead_vreg h
  · rw [writePage_clus, writePage_reqva, writePage_hsvcBase, writePage_errlog, writePage_mode, writePage_preemptDl]
    exact ⟨fun h0 h1 off => writePage_protected h0 h1, writesD_writeD _, writesD_writeD _, writesD_writeD _, writesD_writeD _, rfl,
      writePreemptDl_ignored, writePreemptDl_taken⟩
  · exact ⟨rfl, rfl, rfl, rfl, rfl, fun off => readPage_past_end, rfl, rfl, rfl, fun k => readPage_contract, rfl, rfl, rfl, rfl, rfl, rfl,
      fun k hk => ⟨readDevicePage_sinkMode hk, readDevicePage_sinkTime hk⟩⟩

end Sys2Proof.Machine

/-! Proofs of the statements of execution: the step and the issue of an instruction (R30, R170, R173), registers (R25, R27, R43), and the events of
rendering, of queues and instances, and of intervals and pre-emption. -/

namespace Sys2Proof.Machine

section

variable {s : State} {i : Issue}

/-! ### The step of an instruction (R30, R153) -/

/-- Choosing the waves of a clock changes the plan alone. -/
theorem makePlan_frame (s : State) : s.makePlan = { s with plan := s.makePlan.plan } := by
  unfold State.makePlan
  split <;> rfl

@[simp] theorem makePlan_ready (s : State) : s.makePlan.ready = s.ready := by rw [makePlan_frame]

/-- With no event due and a wave picked, the step is that wave's issue. -/
theorem step_of_pick {c : Chosen} (hs : s.dueSlot = none) (hr : s.ready = true) (hr' : s.settle.ready = true) (ha : s.settle.agenda = [])
    (ht : s.settle.dueTimer = none) (hp : s.settle.makePlan.pick = some c) : step s = (issuing s c).issueWith decode exec := by
  simp only [step, stepWith, hs, hr, ha, ht, if_true, hr', makePlan_ready, hp, issuing]

/-- The issue of words that decode to an instruction is its execution. -/
theorem issueWith_of_decode {ws rest : List Word} {w0 : Word} {walks : List Nat} {x : Instr}
    (hw : s.issueWords (s.wave.headD Fibre.blank) (s.wave.all fun g => g.repLive) = .ok (ws, w0, walks)) (hd : decode ws = .ok (x, rest)) :
    s.issueWith decode exec = exec x (fetched s w0 walks) := by
  simp only [State.issueWith, hw, hd, fetched]

end

/-- Settles O2: a picked wave issues, and the issue runs what its words decode to. -/
theorem stepRunsInstruction : Obligations.StepRunsInstruction :=
  fun _ _ _ _ _ _ _ hs hr hr' ha ht hp hw hd => (step_of_pick hs hr hr' ha ht hp).trans (issueWith_of_decode hw hd)

section

variable {f : Fibre} {g : Group} {n m : Nat}

/-! ### Registers (R25, R27, R43, R105) -/

/-- A v-register of a pair just written: bits 31:0 stand in the even one, and no other register changes. -/
theorem v_setPair {x : DWord} (h : mapWf zeroWord f.vregs) : (f.setPair n ⟨x, false⟩).v m =
    if m = n + 1 then ⟨x.extractLsb' 32 32, false⟩ else if m = n then ⟨x.extractLsb' 0 32, false⟩ else f.v m := by
  simp only [Fibre.setPair, v_setV (setV_wf h), v_setV h, Bool.false_eq_true, if_false]

/-- The halves of a doubleword, put together again. -/
theorem extractLsb'_halves (x : DWord) : x.extractLsb' 32 32 ++ x.extractLsb' 0 32 = x :=
  (BitVec.extractLsb'_append_extractLsb'_eq_extractLsb' rfl).trans BitVec.extractLsb'_eq_self

/-- A pair written without poison reads back. -/
theorem vPair_setPair {x : DWord} (h : mapWf zeroWord f.vregs) : (f.setPair n ⟨x, false⟩).vPair n = ⟨x, false⟩ := by
  have hn : n ≠ n + 1 := by omega
  simp only [Fibre.vPair, v_setPair h, if_neg hn, if_true, extractLsb'_halves, Bool.or_self]

/-- An s-register after a write, where the file is in canonical form. -/
theorem sreg_setS {x : PDWord} (h : mapWf zeroDWord g.sregs) :
    (g.setS n x).sreg m = if m = n then (if x.poison then ⟨0, true⟩ else x) else g.sreg m := mapGet_setFrom h

end

/-- Settles O13, by what each register reads after a write. -/
theorem registerLaws : Obligations.RegisterLaws := by
  refine ⟨fun f n x h => ⟨?_, fun m hm => ?_, setV_wf h⟩, fun f n x h => ⟨?_, ?_, vPair_setPair h, fun m hn hm => ?_⟩,
    fun f b => ⟨pred_zero f, setPred_zero f b⟩, fun f n b h0 hn => ⟨?_, fun m hm hmn => ?_⟩, fun g n x h => ⟨?_, fun m hm => ?_, mapWf_set h⟩, rfl, rfl⟩
  · rw [v_setV h, if_pos rfl]
  · rw [v_setV h, if_neg hm]
  · rw [v_setPair h, if_neg (by omega), if_pos rfl]
  · rw [v_setPair h, if_pos rfl]
  · rw [v_setPair h, if_neg hm, if_neg hn]
  · rw [pred_setPred hn hn (by omega), if_pos rfl]
  · rw [pred_setPred hn hm (by omega), if_neg hmn]
  · rw [sreg_setS h, if_pos rfl]
  · rw [sreg_setS h, if_neg hm]

section

variable {s : State} {i : Issue}

/-! ### What an issue leaves alone (R30, R173, R174, R363) -/

/-- What the issue makes of a fibre of the wave: its stall count runs, and its results are pending. -/
def State.marked (s : State) (i : Issue) (f : Fibre) : Fibre :=
  let after := s.coreClock (s.coreOf f)
  let f' := f.issued s.clock (after (i.e.stall.toNat + 1)) i.e.stall.toNat
  { f' with sb := f'.sb ++ i.marks (s.wave.any fun f => f.guard i.e) f after }

@[simp] theorem marked_uid (s : State) (i : Issue) (f : Fibre) : (s.marked i f).uid = f.uid := rfl

/-- A fibre with its signature reset. -/
def Fibre.resetSig (f : Fibre) : Fibre := { f with sig := 0 }

@[simp] theorem resetSig_uid (f : Fibre) : f.resetSig.uid = f.uid := rfl

/-- A comparison point that is passed resets signatures. -/
theorem passPoint_eq (s : State) (i : Issue) (us : List Nat) : s.passPoint i us = if i.compare then s.updAll us Fibre.resetSig else s := rfl

/-- The fibres of the wave are marked. -/
theorem markIssued_marked (s : State) (i : Issue) : (s.markIssued i).fibres = (s.updAll s.cur (s.marked i)).fibres := by
  simp only [State.markIssued, apply_ite State.fibres, State.updGroup_fibres, ite_self]
  rfl

/-- A group's scoreboard changes, or nothing of any group. -/
theorem markIssued_groups (s : State) (i : Issue) : ∃ (p : Group → Bool) (q : Group → List (Nat × Option Nat)),
    (s.markIssued i).groups = mapIf p (fun g => { g with pend := q g }) s.groups :=
  ite_prop (P := fun t => ∃ (p : Group → Bool) (q : Group → List (Nat × Option Nat)), t.groups = mapIf p (fun g => { g with pend := q g }) s.groups)
    ⟨fun _ => false, fun g => g.pend, by simp [mapIf]⟩ ⟨_, _, rfl⟩

/-- Passing a comparison point and reading tokens change no group. -/
theorem issuedBy_groups (s : State) (i : Issue) : (s.issuedBy i).groups = (s.markIssued i).groups := by
  rw [State.issuedBy, readTokens_groups, passPoint_frame]

/-- What the issue makes of a fibre: the marks of the wave's fibres, and signature 0 at a comparison point that it passes (R363). -/
theorem issuedBy_fibre (s : State) (i : Issue) (u : Nat) :
    (s.issuedBy i).fibre u = (((s.updAll s.cur (s.marked i)).passPoint i (s.activeSet i)).fibre u) := by
  unfold State.issuedBy State.passPoint
  rw [fibre_congr (readTokens_fibres _ i)]
  split
  · exact fibre_congr (by simp only [State.updAll, markIssued_marked]) u
  · exact fibre_congr (markIssued_marked s i) u

/-- What a change of fibres keeps of each fibre, it keeps of the fibre of a number. -/
theorem updAll_keeps {α : Type} {π : Fibre → α} {us : List Nat} {g : Fibre → Fibre} {u : Nat} (hg : ∀ f, (g f).uid = f.uid)
    (h : ∀ f, π (g f) = π f) : π ((s.updAll us g).fibre u) = π (s.fibre u) := by
  by_cases hf : ∃ f ∈ s.fibres, f.uid = u
  · rw [fibre_updAll hf hg]
    split
    · exact h _
    · rfl
  · have hn : s.fibres.find? (fun f => f.uid == u) = none := List.find?_eq_none.mpr fun f hm he => hf ⟨f, hm, by simpa using he⟩
    have hm : (s.updAll us g).fibres.find? (fun f => f.uid == u) = none := by
      show (mapIf _ g s.fibres).find? _ = none
      rw [find_mapIf fun f _ => by rw [hg f], hn, Option.map_none]
    simp only [State.fibre, hn, hm]

/-- A fibre without its clock state and signature. -/
def Fibre.clockless (f : Fibre) : Fibre := { f with readyAt := 0, lastIssue := 0, sb := [], sig := 0 }

/-- The issue changes of any fibre only its clock state and signature. -/
theorem issuedBy_clockless (s : State) (i : Issue) (u : Nat) : ((s.issuedBy i).fibre u).clockless = (s.fibre u).clockless := by
  have hm : ((s.updAll s.cur (s.marked i)).fibre u).clockless = (s.fibre u).clockless := updAll_keeps (marked_uid s i) fun _ => rfl
  rw [issuedBy_fibre, passPoint_eq]
  split
  · exact (updAll_keeps resetSig_uid fun _ => rfl).trans hm
  · exact hm

/-- A fibre outside the wave is as it was. -/
theorem issuedBy_fibre_other {u : Nat} (h : s.waveFound) (hu : u ∉ s.cur) : (s.issuedBy i).fibre u = s.fibre u := by
  rw [issuedBy_fibre, passPoint_eq]
  split
  · rw [fibre_updAll_other (fun ha => hu (active_mem h ha)) resetSig_uid, fibre_updAll_other hu (marked_uid s i)]
  · exact fibre_updAll_other hu (marked_uid s i)

/-- A fibre of the wave is marked, and at a comparison point that it passes its signature is reset. -/
theorem issuedBy_fibre_wave {u : Nat} (h : s.waveFound) (hu : u ∈ s.cur) :
    (s.issuedBy i).fibre u = { s.marked i (s.fibre u) with sig := if i.compare ∧ u ∈ s.activeSet i then 0 else (s.fibre u).sig } := by
  have hm : (s.updAll s.cur (s.marked i)).fibre u = s.marked i (s.fibre u) := by
    rw [fibre_updAll (h u hu) (marked_uid s i), if_pos (by simpa using hu)]
  rw [issuedBy_fibre, passPoint_eq]
  by_cases hc : i.compare = true
  · rw [if_pos hc, fibre_updAll (has_mapIf (p := fun f => s.cur.contains f.uid) (h u hu) fun f _ => marked_uid s i f) resetSig_uid, hm]
    by_cases ha : u ∈ s.activeSet i
    · rw [if_pos (by simpa using ha), if_pos ⟨hc, ha⟩]
      rfl
    · rw [if_neg (by simpa using ha), if_neg fun x => ha x.2]
      rfl
  · rw [if_neg hc, hm, if_neg fun x => hc x.1]
    rfl

/-- The scoreboard of a group apart, the issue changes no group. -/
theorem issuedBy_groups_map {α : Type} {π : Group → α} (h : ∀ g p, π { g with pend := p } = π g) :
    (s.issuedBy i).groups.map π = s.groups.map π := by
  obtain ⟨p, q, he⟩ := markIssued_groups s i
  rw [issuedBy_groups, he, mapIf, List.map_map]
  refine List.map_congr_left fun g _ => ?_
  show π (if p g then _ else g) = π g
  split
  · exact h g (q g)
  · rfl

/-- An arithmetic clock lasts one CLOCK under the nominal table, and two with the top loop lost (R424). -/
theorem coreClock_nominal {core n : Nat} (ht : s.table = 0) (hc : (nth (0, false, false) s.therm core).2.1 = false) :
    s.coreClock core n = s.clock + n := by
  have h1 : s.table ≠ 1 := by omega
  have h2 : s.table ≠ 2 := by omega
  simp only [State.coreClock, State.clockRatio, h1, h2, hc, Bool.false_eq_true, if_false]
  omega

theorem coreClock_topLost {core n : Nat} (ht : s.table = 1) (hc : (nth (0, false, false) s.therm core).2.1 = false) (h2 : s.clock % 2 = 0) :
    s.coreClock core n = s.clock + 2 * n := by
  simp only [State.coreClock, State.clockRatio, ht, hc, if_true, Bool.false_eq_true, if_false]
  omega

/-- The tokens of a group do not change with its scoreboard. -/
theorem issuedBy_tokens (s : State) (i : Issue) (k : GroupId) : ((s.issuedBy i).group k).tokens = (s.group k).tokens := by
  obtain ⟨p, q, he⟩ := markIssued_groups s i
  unfold State.group State.group?
  rw [issuedBy_groups, he, find_mapIf (g := fun g : Group => { g with pend := q g }) fun _ _ => rfl]
  cases s.groups.find? fun g => g.is k with
  | none => rfl
  | some g =>
    simp only [Option.map_some, Option.getD_some]
    split <;> rfl

/-- The first fibre of the wave lies where it lay, and is in the group it was in. -/
theorem issuedBy_wave_head (s : State) (i : Issue) :
    ((s.issuedBy i).wave.headD Fibre.blank).clockless = (s.wave.headD Fibre.blank).clockless := by
  unfold State.wave
  rw [issuedBy_cur]
  cases s.cur with
  | nil => rfl
  | cons u r => exact issuedBy_clockless s i u

/-- Which clean words a read of tokens invalidates shows in where the wave's first fibre lies and in the tokens of its group. -/
theorem readTokens_l1_congr {t : State} (hl : t.l1 = s.l1) (hp : t.parts = s.parts)
    (hf : (t.wave.headD Fibre.blank).clockless = (s.wave.headD Fibre.blank).clockless) (ht : ∀ k, (t.group k).tokens = (s.group k).tokens) :
    (t.readTokens i).l1 = (s.readTokens i).l1 := by
  have hg : (t.wave.headD Fibre.blank).groupId = (s.wave.headD Fibre.blank).groupId := (congrArg Fibre.groupId hf :)
  have hc : t.coreOf (t.wave.headD Fibre.blank) = s.coreOf (s.wave.headD Fibre.blank) := by
    unfold State.coreOf State.partn
    rw [hp]
    exact (congrArg (fun f : Fibre => (nth Partition.reset s.parts f.part).phys f.onCore) hf :)
  simp only [State.readTokens, hg, ht, apply_ite State.l1, State.selfInval, hl, hc]

/-- Of the L1 the issue changes what the read of its tokens changes. -/
theorem issuedBy_l1 (s : State) (i : Issue) : (s.issuedBy i).l1 = (s.readTokens i).l1 := by
  have hcur : ((s.markIssued i).passPoint i (s.activeSet i)).cur = s.cur := by rw [passPoint_frame, markIssued_frame]
  have hw : ((s.markIssued i).passPoint i (s.activeSet i)).wave = (s.issuedBy i).wave := by
    unfold State.wave
    rw [issuedBy_cur, hcur]
    exact List.map_congr_left fun u _ => (fibre_congr (readTokens_fibres _ i) u).symm
  refine readTokens_l1_congr ?_ ?_ (hw ▸ issuedBy_wave_head s i) fun k => ?_
  · rw [passPoint_frame, markIssued_frame]
  · rw [passPoint_frame, markIssued_frame]
  · rw [← issuedBy_tokens s i k]
    unfold State.group State.group? State.issuedBy
    rw [readTokens_groups]

end

/-- Settles O8: the issue's frame, fibre by fibre; what its clocks come to under a table follows from the ratio of the clocks in force. -/
theorem issueFrame : Obligations.IssueFrame := by
  intro s i
  refine ⟨?_, issuedBy_groups_map fun _ _ => rfl, fun u hu h => issuedBy_fibre_other h hu, fun u hu h => ?_⟩
  · rw [← issuedBy_l1]
    exact issuedBy_frame s i
  · have hf := issuedBy_fibre_wave (i := i) h hu
    have hr : ((s.issuedBy i).fibre u).readyAt = s.coreClock (s.coreOf (s.fibre u)) (i.e.stall.toNat + 1) := by rw [hf]; rfl
    refine ⟨hr, ⟨fun ht hc => ?_, fun ht hc h2 => ?_⟩, ?_, issuedBy_clockless s i u, ?_⟩
    · rw [hr, coreClock_nominal ht hc, Nat.add_assoc]
    · rw [hr, coreClock_topLost ht hc h2]
    · rw [hf]; rfl
    · rw [hf]

end Sys2Proof.Machine

namespace Sys2Proof.Machine

section

variable {s t : State} {part core engine id : Nat}

/-! ### Vertical ports (R57, R59) -/

/-- A port that has something left for an engine that is not backing off sends again. -/
def State.portAgain (t : State) (part core : Nat) : State :=
  if (t.vport part core).window.any (fun x => !(t.vport part core).waits x.1) then t.post (.verticalEntryArrival part core) else t

/-- What an engine's choice to refuse depends on has gone on: the TRU has no choice. -/
def State.afterChoice (s : State) (engine : Nat) : State := if engine = 0 then s else { s with free := s.free + 1 }

@[simp] theorem afterChoice_clock (s : State) (engine : Nat) : (s.afterChoice engine).clock = s.clock := by
  unfold State.afterChoice; split <;> rfl

/-- The oldest request whose engine is not backing off is taken into the engine, or refused. -/
theorem verticalArrival_of_first (h : (s.vport part core).window.find? (fun x => !(s.vport part core).waits x.1) = some (engine, id)) :
    s.verticalArrival part core = State.portAgain (if s.refuses part core engine id then (s.afterChoice engine).nackDown (s.vport part core) engine
      else ((s.afterChoice engine).setVport ((s.vport part core).take engine id)).intoEngine engine id) part core := by
  simp only [State.verticalArrival, h]
  rfl

/-- No element of a list changes where the engine named is another one. -/
theorem mapIf_other {α : Type} {a b : Nat} (h : a ≠ b) (p : α → Bool) (g : α → α) (l : List α) : mapIf (fun x => a == b && p x) g l = l := by
  simp only [mapIf, beq_false_of_ne h, Bool.false_and, Bool.false_eq_true, if_false, List.map_id']

/-- Engine 3 begins a copy's pre-walk; another one places the request that the number names. -/
theorem intoEngine_copy : t.intoEngine 3 id = t.post (.copyPrewalkDone id) := rfl

theorem intoEngine_placed (h : engine < 3) : t.intoEngine engine id = { t with
    rays := mapIf (fun (r : Ray) => engine == 0 && r.id == id) (fun r => { r with placed := true }) t.rays
    gathers := mapIf (fun (g : Gather) => engine == 1 && g.id == id) (fun g => { g with placed := true }) t.gathers
    beams := mapIf (fun (b : Beam) => engine == 2 && b.id == id) (fun b => { b with placed := true }) t.beams } := by
  match engine, h with
  | 0, _ => rw [mapIf_other (by decide : 0 ≠ 1), mapIf_other (by decide : 0 ≠ 2)]; rfl
  | 1, _ => rw [mapIf_other (by decide : 1 ≠ 0), mapIf_other (by decide : 1 ≠ 2)]; rfl
  | 2, _ => rw [mapIf_other (by decide : 2 ≠ 0), mapIf_other (by decide : 2 ≠ 1)]; rfl

/-- The TRU refuses a ray that still runs where its slots are full (R488). -/
theorem refuses_ray : s.refuses part core 0 id = true ↔ (s.rays.any fun r => r.id == id) = true ∧ 1024 ≤ s.raySlots part core := by
  simp only [State.refuses, if_true, Bool.and_eq_true, decide_eq_true_eq]
  rfl

/-- A back-off whose clock has come ends, and the port sends again (R57). -/
theorem execVerticalPortResend_due {k due : Nat} (h : (engine, k, some due) ∈ (s.vport part core).backoff) (hd : due ≤ s.clock) :
    execVerticalPortResend part core engine s = .next ((s.setVport { s.vport part core with
      backoff := (s.vport part core).backoff.map fun b => if b.1 = engine then (b.1, b.2.1, none) else b }).post (.verticalEntryArrival part core)) :=
  if_pos (List.any_eq_true.mpr ⟨_, h, by simpa using hd⟩)

/-! ### Rays (R310, R317) -/

variable {r : Ray}

section

variable (hr : s.rays.find? (fun x => x.id == id) = some r) (hg : s.rayRuns r = true)
  (ha : s.arenaReads (s.onBehalf r.uid r.tag r.eng) (s.traverseRay r).seen = (.data [] false, s))

include hr hg ha

/-- Where every node was read and the traversal shows no further candidate, the ray ends with its record. -/
theorem runRay_ends (hs : (s.traverseRay r).shown = none) :
    s.runRay id false = .next (s.endRay r ((s.traverseRay r).record r.gen)) := by
  simp only [State.runRay, hr, hg, Bool.not_true, Bool.false_eq_true, if_false, ha, hs]

/-- Where every node was read and the traversal shows a candidate, the candidate waits for RAYGET. -/
theorem runRay_presents {h : Hit} (hs : (s.traverseRay r).shown = some h) : s.runRay id true = .next (s.presentRay r h) := by
  simp only [State.runRay, hr, hg, Bool.not_true, Bool.false_eq_true, if_false, if_true, ha, hs]

end

/-- The record of a bound ray waits for RAYGET; that of another is written at once (R316, R317). -/
theorem endRay_bound {rec : List Word} (hb : r.bound = true) : s.endRay r rec =
    (s.updRay r.id fun x => { x with ready := some (rec, true) }).updFibre r.uid fun f => if f.wait == .ray then f.retry else f := if_pos hb

theorem endRay_unbound {rec : List Word} (hb : r.bound = false) : s.endRay r rec =
    (let t := (s.freeRay r).updFibre r.uid (fun f => if f.live then f.setRange r.dst (rec.map fun w => ⟨w, false⟩) else f)
     { t with pendV := t.pendV.filter fun x => !(x.1 == r.uid && r.dst ≤ x.2 && x.2 < r.dst + 8) }).retryPending r.part :=
  if_neg (Bool.eq_false_iff.mp hb)

/-! ### Beams (R324) -/

variable {b : Beam}

/-- A BEAM whose nodes are read goes on to its end. -/
theorem execBeamComplete_read {bad : Bool} (hb : s.beams.find? (fun x => x.id == id && x.placed && x.eng.wait == .none) = some b) (hg : b.got = none)
    (ha : s.arenaReads (s.onBehalf b.uid b.tag b.eng) b.reads = (.data [] bad, t)) :
    execBeamComplete id s = .next ((t.updBeam id fun x => { x with got := some !bad }).finishBeam { b with got := some !bad }) := by
  simp only [execBeamComplete, hb, hg, Option.isSome_none, Bool.false_eq_true, if_false, ha]

/-- A BEAM whose nodes were read before ends. -/
theorem execBeamComplete_again (hb : s.beams.find? (fun x => x.id == id && x.placed && x.eng.wait == .none) = some b) (hg : b.got.isSome = true) :
    execBeamComplete id s = .next (s.finishBeam b) := by
  simp only [execBeamComplete, hb, hg, if_true]

/-- The end of a BEAM whose entries find a way and whose reads were good: they land, its pin goes, and the token is written. -/
theorem finishBeam_good (hg : b.got = some true) (hk : s.allAcked b.uids = true) (hw : s.beamWays b = some t) :
    s.finishBeam b = (({ t.landBeam b with beams := (t.landBeam b).beams.filter fun x => x.id != b.id }).unpinGen b.part b.ctx b.gen).completeToken
      b.uids ⟨b.part, b.grp, b.repl⟩ b.token (BitVec.ofNat 64 b.hits) := by
  simp only [State.finishBeam, hk, Bool.not_true, Bool.false_eq_true, if_false, hw, hg, Option.some.injEq, Bool.true_eq_false]

/-- The entries of a BEAM whose reads were good are those of its traversals. -/
theorem entries_good (hg : b.got = some true) : b.entries = b.data := by
  simp only [Beam.entries, hg, Option.some.injEq, Bool.true_eq_false, if_false]

/-! ### Textures (R333) -/

/-- A texture request whose texels were read writes what they come to. -/
theorem execGatherResultReturn_read {g : Gather} {x : Tex} {xs : List ((Nat × Nat × Nat) × Option (List FV))}
    (hf : s.gathers.find? (fun y => y.id == id) = some g) (hr : s.gatherRuns g = true) (hb : g.bad = false) (hx : parseTex g.desc = some x)
    (hq : s.readTexels g x (((texPlan x (g.minor = 1) (g.mod.getLsbD 1) g.sampler g.coords).map fun p => p.reads (g.minor = 1)).getD []).eraseDups =
      (xs, none, t, none)) :
    execGatherResultReturn id s = .next ((({ t with
        gathers := t.gathers.filter fun y => y.id != id, pendV := t.pendV.filter fun (y : Nat × Nat) => !(y.1 == g.uid && g.dst ≤ y.2 && y.2 < g.dst + 4) }).updFibre g.uid fun f =>
      if f.live then f.setRange g.dst (texResult (g.minor = 1) (bits g.mod.toNat 2 2) (texPlan x (g.minor = 1) (g.mod.getLsbD 1) g.sampler g.coords)
        fun q => (xs.find? (fun (y : (Nat × Nat × Nat) × Option (List FV)) => y.1 == q)).bind fun y => y.2) else f).retryPending g.part) := by
  simp only [execGatherResultReturn, hf, hr, Bool.not_true, Bool.false_eq_true, if_false, hb, hx, hq]

end

/-- Settles O42, event by event. -/
theorem renderEvents : Obligations.RenderEvents := by
  refine ⟨fun s part core engine id => ?_, fun s part core engine k due h hd => execVerticalPortResend_due h hd,
    fun s id r hr hg ha => ⟨fun hs hb => ?_, fun hs hb => ?_, fun h hs => runRay_presents hr hg ha hs⟩,
    fun s t id b bad hb hg ha => execBeamComplete_read hb hg ha, fun s t id b hb hg hk hw => ?_,
    fun s t id g x xs hf hr hb hx hq => execGatherResultReturn_read hf hr hb hx hq⟩
  · intro p again hp he
    refine ⟨fun h0 => h0 ▸ refuses_ray, fun hn => ?_, fun hr => ⟨_, rfl, ?_⟩⟩
    · show Host.Outcome.next (s.verticalArrival part core) = _
      rw [verticalArrival_of_first hp, hn]
      refine congrArg (fun t => Host.Outcome.next (State.portAgain t part core)) ?_
      by_cases h3 : engine = 3
      · subst h3
        rfl
      · exact (intoEngine_placed (by omega)).trans (if_neg h3).symm
    · show Host.Outcome.next (s.verticalArrival part core) = _
      rw [verticalArrival_of_first hp, hr]
      refine congrArg (fun t => Host.Outcome.next (State.portAgain t part core)) ?_
      simp only [if_true, State.nackDown, afterChoice_clock]
      rfl
  · exact (runRay_ends hr hg ha hs).trans (congrArg _ (endRay_bound hb))
  · exact (runRay_ends hr hg ha hs).trans (congrArg _ (endRay_unbound hb))
  · show execBeamComplete id s = _
    rw [execBeamComplete_again hb (by rw [hg]; rfl), finishBeam_good hg hk hw, State.landBeam, entries_good hg]
    rfl

end Sys2Proof.Machine

namespace Sys2Proof.Machine

section

variable {s t : State} {part pipe stage : Nat}

/-! ### Template instances (R54) -/

/-- A pipeline with the oldest of a stage's pending instances taken, and its entry taken from the stage's queue (R52). -/
def Pipe.takeInstance (stage : Nat) (x : PendInst) (p : Pipe) : Pipe :=
  { p with
    pending := p.pending.eraseP fun x => x.stage == stage
    queues := match x.entry, (p.stages[stage]?).bind fun r => r.inq with
      | some _, some q => p.queues.modify q fun q => { q with entries := q.entries.drop 1 }
      | _, _ => p.queues }

/-- A stage with further pending instances tries again. -/
def State.instanceAgain (s : State) (part pipe stage : Nat) : State :=
  if (s.pipe part pipe).pending.any fun x => x.stage == stage then s.post (.templateInstanceStart part pipe stage) else s

section

variable {x : PendInst} (he : (s.pipe part pipe).ended = none) (hf : (s.pipe part pipe).pending.find? (fun x => x.stage == stage) = some x)

include he hf

/-- The oldest of a stage's pending instances starts where it finds room. -/
theorem startPending_starts (hs : s.startInstance (s.pipe part pipe) x = some t) :
    s.startPending part pipe stage = (t.updPipe part pipe (Pipe.takeInstance stage x)).instanceAgain part pipe stage := by
  simp only [State.startPending, he, Option.isSome_none, Bool.false_eq_true, if_false, hf, hs]
  rfl

/-- In a pipeline without a contract, pending instances that find no room stay pending. -/
theorem startPending_waits (hs : s.startInstance (s.pipe part pipe) x = none) (hc : (s.pipe part pipe).contract = none) :
    s.startPending part pipe stage = s := by
  simp only [State.startPending, he, Option.isSome_none, Bool.false_eq_true, if_false, hf, hs, hc, Bool.false_and]

end

/-! ### Queue ports (R56, R57) -/

variable {i : PortId} {e : PortEntry} {queue : Nat}

/-- A port with an entry left to send sends it. -/
def State.sendsMore (t : State) (i : PortId) : State := if (t.port i).next.isSome then t.post (.queueEntryArrival i) else t

/-- A port with nothing to send sends nothing. -/
theorem arrival_none (h : (s.port i).next = none) : s.arrival i = s := by
  simp only [State.arrival, h]

section

variable (h : (s.port i).next = some e)

include h

/-- What the arrival of an entry does: the pipeline has ended, the queue drops what the port sends, it is closed, it is full, or it takes the entry. -/
theorem arrival_some : s.arrival i = State.sendsMore (
    if (s.pipe i.part e.pipe).ended.isSome then s.setPort ((s.port i).sendFirst false)
    else if ((s.pipe i.part e.pipe).queue e.queue).dropping.contains i then s.nack i e false
    else if e.close then (s.setPort ((s.port i).sendFirst true)).post (.queueCloseArrival i.part e.pipe e.queue)
    else if ((s.pipe i.part e.pipe).queue e.queue).depth ≤ ((s.pipe i.part e.pipe).queue e.queue).entries.length then s.nack i e true
    else s.acceptEntry i e) i := by
  simp only [State.arrival, h]
  rfl

theorem arrival_ended (he : (s.pipe i.part e.pipe).ended ≠ none) : s.arrival i = (s.setPort ((s.port i).sendFirst false)).sendsMore i := by
  rw [arrival_some h, if_pos (Option.isSome_iff_ne_none.mpr he)]

variable (he : (s.pipe i.part e.pipe).ended = none)

include he

theorem arrival_dropped (hd : i ∈ ((s.pipe i.part e.pipe).queue e.queue).dropping) : s.arrival i = (s.nack i e false).sendsMore i := by
  rw [arrival_some h, if_neg (by simp [he]), if_pos (by simpa using hd)]

variable (hd : i ∉ ((s.pipe i.part e.pipe).queue e.queue).dropping)

include hd

theorem arrival_close (hc : e.close = true) :
    s.arrival i = ((s.setPort ((s.port i).sendFirst true)).post (.queueCloseArrival i.part e.pipe e.queue)).sendsMore i := by
  rw [arrival_some h, if_neg (by simp [he]), if_neg (by simpa using hd), if_pos hc]

variable (hc : e.close = false)

include hc

theorem arrival_full (hl : ((s.pipe i.part e.pipe).queue e.queue).depth ≤ ((s.pipe i.part e.pipe).queue e.queue).entries.length) :
    s.arrival i = (s.nack i e true).sendsMore i := by
  rw [arrival_some h, if_neg (by simp [he]), if_neg (by simpa using hd), if_neg (by simp [hc]), if_pos hl]

theorem arrival_accepted (hl : ((s.pipe i.part e.pipe).queue e.queue).entries.length < ((s.pipe i.part e.pipe).queue e.queue).depth) :
    s.arrival i = (s.acceptEntry i e).sendsMore i := by
  rw [arrival_some h, if_neg (by simp [he]), if_neg (by simpa using hd), if_neg (by simp [hc]), if_neg (by omega)]

end

/-- A NACK of an entry that the queue drops behind the first one is noted at the port's stages alone. -/
theorem nack_behind : s.nack i e false = (s.setPort ((s.port i).sendFirst true)).noteNack i := rfl

/-- An entry that a queue outside a launch accepts stands at its tail, and the port's back-off for the queue ends. -/
theorem acceptEntry_tail (hl : ((s.pipe i.part e.pipe).queue e.queue).launching = false) : s.acceptEntry i e =
    (s.setPort { (s.port i).sendFirst false with backoff := ((s.port i).sendFirst false).backoff.filter fun b => !(b.pipe == e.pipe && b.queue == e.queue) }).updQueue
      i.part e.pipe e.queue fun q => { q with entries := q.entries ++ [e.entry] } :=
  if_pos (show (!((s.pipe i.part e.pipe).queue e.queue).launching) = true by rw [hl]; rfl)

/-- A port whose back-off for a queue has run out sends everything for that queue again (R57). -/
theorem resend_due {b : Backoff} (hb : b ∈ (s.port i).backoff) (hp : b.pipe = pipe) (hq : b.queue = queue) (hd : b.due ≤ s.clock)
    (hi : i ∈ ((s.pipe i.part pipe).queue queue).dropping) : s.resend i pipe queue =
    ((s.setPort { s.port i with window := mapIf (fun e => e.pipe == pipe && e.queue == queue) (fun e => { e with sent := false }) (s.port i).window }).updQueue
      i.part pipe queue fun q => { q with dropping := q.dropping.filter fun x => !(x == i) }).post (.queueEntryArrival i) := by
  have hany : ((s.port i).backoff.any fun b => b.pipe == pipe && b.queue == queue && decide (b.due ≤ s.clock)) = true :=
    List.any_eq_true.mpr ⟨b, hb, by simp [hp, hq, hd]⟩
  have hc : ((s.pipe i.part pipe).queue queue).dropping.contains i = true := by simpa using hi
  simp only [State.resend, hany, hc, Bool.not_true, Bool.or_self, Bool.false_eq_true, if_false]

/-- A QCLOSE that some port has sent and the queue does not drop closes the queue (R198, R482). -/
theorem closeQueue_arrived (h : ∃ p ∈ s.ports, p.id.part = part ∧ p.id ∉ ((s.pipe part pipe).queue queue).dropping ∧
      ∃ e ∈ p.window, (e.pipe == pipe && e.queue == queue) = true ∧ e.close = true ∧ e.sent = true) : s.closeQueue part pipe queue =
    (((s.ports.filter fun (p : Port) => p.id.part == part).map fun (p : Port) => p.window.filter fun e => (e.pipe == pipe && e.queue == queue) && !e.close).foldl
      (fun (s : State) (g : List PortEntry) => s.closureRec part pipe queue g)
      (({ s with ports := mapIf (fun (p : Port) => p.id.part == part) (fun p => { p with
            window := p.window.filter (fun e => !(e.pipe == pipe && e.queue == queue)), backoff := p.backoff.filter fun b => !(b.pipe == pipe && b.queue == queue) }) s.ports }).updQueue
        part pipe queue fun q => { q with closed := true, dropping := [] })).checkPipe part pipe := by
  obtain ⟨p, hp, hpart, hdrop, e, he, hm, hc, hs⟩ := h
  have hany : (s.ports.any fun p => p.id.part == part && !((s.pipe part pipe).queue queue).dropping.contains p.id &&
      p.window.any fun e => (e.pipe == pipe && e.queue == queue) && e.close && e.sent) = true := by
    have hw : (p.window.any fun e => (e.pipe == pipe && e.queue == queue) && e.close && e.sent) = true :=
      List.any_eq_true.mpr ⟨e, he, by rw [hm, hc, hs]; rfl⟩
    exact List.any_eq_true.mpr ⟨p, hp, by simp [hpart, hdrop, hw]⟩
  simp only [State.closeQueue, hany, Bool.not_true, Bool.false_eq_true, if_false]

/-! ### Moving cores (R60) -/

theorem execStageCoreRebalance_runs (h : (s.pipe part pipe).ended = none) : execStageCoreRebalance part pipe s =
    .next (((s.updPipe part pipe Pipe.rebalance).retryInstances part).timer (s.clock + 2048) (.stageCoreRebalance part pipe)) :=
  if_neg (by simp [h])

theorem execStageCoreRebalance_ended (h : (s.pipe part pipe).ended ≠ none) : execStageCoreRebalance part pipe s = .next s :=
  if_pos (Option.isSome_iff_ne_none.mpr h)

/-! ### Sleep (R190) -/

/-- A fibre whose sleep has run out continues. -/
def Fibre.sleepEnds (clock : Nat) (f : Fibre) : Fibre :=
  match f.wait with
  | .sleep (some c) => if f.st = .sleeping ∧ c ≤ clock then f.continues else f
  | _ => f

@[simp] theorem sleepEnds_uid (clock : Nat) (f : Fibre) : (f.sleepEnds clock).uid = f.uid := by
  unfold Fibre.sleepEnds
  split
  · split
    · exact continues_uid f
    · rfl
  · rfl

theorem execSleepExpire_eq {u : Nat} : execSleepExpire u s = .next (s.updFibre u (Fibre.sleepEnds s.clock)) := rfl

variable {f : Fibre} {c clock : Nat}

theorem sleepEnds_due (hs : f.st = .sleeping) (hw : f.wait = .sleep (some c)) (hc : c ≤ clock) :
    f.sleepEnds clock = { f.advancePc f.ilen with st := .runnable, wait := .none } := by
  have hn : f.st ≠ .ended := by simp [hs]
  simp only [Fibre.sleepEnds, hw, hc, hs, and_self, if_true]
  exact if_neg hn

theorem sleepEnds_early (hw : f.wait = .sleep (some c)) (hc : clock < c) : f.sleepEnds clock = f := by
  have hn : ¬ c ≤ clock := by omega
  simp only [Fibre.sleepEnds, hw, hn, and_false, if_false]

theorem sleepEnds_untimed (hw : f.wait = .sleep none) : f.sleepEnds clock = f := by
  simp only [Fibre.sleepEnds, hw]

/-! ### Collections (R192) -/

theorem execRepackBudgetExpire_ends {id : Nat} {c : Collect}
    (h : s.collects.find? (fun (c : Collect) => c.id == id && c.plan.isEmpty && decide (c.due ≤ s.clock)) = some c) :
    execRepackBudgetExpire id s = .next (s.endCollect c) := by
  simp only [execRepackBudgetExpire, h]

theorem execRepackBudgetExpire_early {id : Nat} (h : ∀ c ∈ s.collects, c.id = id → s.clock < c.due) : execRepackBudgetExpire id s = .next s := by
  have hn : s.collects.find? (fun (c : Collect) => c.id == id && c.plan.isEmpty && decide (c.due ≤ s.clock)) = none :=
    List.find?_eq_none.mpr fun c hc he => by
      simp only [Bool.and_eq_true, beq_iff_eq, decide_eq_true_eq] at he
      have := h c hc he.1.1
      omega
  simp only [execRepackBudgetExpire, hn]

/-! ### Watchdogs (R484 to R487) -/

/-- The only element of a list that satisfies a predicate is the first. -/
theorem find_of_unique {α : Type} {p : α → Bool} {l : List α} {x : α} (hx : x ∈ l) (hp : p x = true) (hu : ∀ y ∈ l, p y = true → y = x) :
    l.find? p = some x := by
  obtain ⟨y, hy⟩ := Option.isSome_iff_exists.mp (List.find?_isSome.mpr ⟨x, hx, hp⟩)
  rw [hy, hu y (List.mem_of_find?_eq_some hy) (List.find?_some hy)]

variable {k : GroupId} {g : Group} {p : Watch → Bool} {w x : Watch}

/-- A watchdog that has expired makes the first expired one of its pipeline write its record. -/
theorem watchdogDue_expired (hg : s.group? k = some g) (hw : w ∈ s.watches g) (hp : p w = true) (hd : w.due ≤ s.watchClock k.part w.pipe)
    (hu : ∀ v ∈ s.watches g, p v = true → v = w) (hx : s.firstExpired k.part w.pipe = some x) : s.watchdogDue k p = s.watchdogExpires x := by
  have hf : (s.watches g).find? (fun w => p w && decide (w.due ≤ s.watchClock k.part w.pipe)) = some w :=
    find_of_unique hw (by simp [hp, hd]) fun v hv hpv => hu v hv (Bool.and_eq_true_iff.mp hpv).1
  simp only [State.watchdogDue, hg, Option.map_some, Option.bind_some, hf, hx]

/-- Watchdogs whose clocks have not come do nothing. -/
theorem watchdogDue_early (hg : s.group? k = some g) (h : ∀ w ∈ s.watches g, s.watchClock k.part w.pipe < w.due) : s.watchdogDue k p = s := by
  have hn : (s.watches g).find? (fun w => p w && decide (w.due ≤ s.watchClock k.part w.pipe)) = none :=
    List.find?_eq_none.mpr fun w hw he => by
      have hd := h w hw
      have := of_decide_eq_true (Bool.and_eq_true_iff.mp he).2
      omega
  simp only [State.watchdogDue, hg, Option.map_some, Option.bind_some, hn]

end

/-- Settles O49, event by event: each clause is a lemma above. -/
theorem executionEvents : Obligations.ExecutionEvents := by
  refine ⟨fun s t part pipe stage x he hf => ⟨fun hs => congrArg _ (startPending_starts he hf hs), fun hs hc => congrArg _ (startPending_waits he hf hs hc)⟩,
    fun s i e h => ⟨fun he => congrArg _ (arrival_ended h he), fun he hd hc => congrArg _ (arrival_close h he hd hc),
      fun he hd hc hl hn => ?_, fun he hd hc hl => congrArg _ (arrival_full h he hd hc hl), fun he hd => congrArg _ (arrival_dropped h he hd)⟩,
    fun s i h => congrArg _ (arrival_none h), fun s i pipe queue b hb hp hq hd hi => congrArg _ (resend_due hb hp hq hd hi),
    fun s part pipe queue h => congrArg _ (closeQueue_arrived h), fun s part pipe => ⟨execStageCoreRebalance_runs, execStageCoreRebalance_ended⟩,
    fun s u => ⟨_, execSleepExpire_eq, rfl, fun v hv => fibre_updFibre_other hv fun f hf => (sleepEnds_uid _ f).trans hf, fun hu hs => ?_⟩,
    fun s id => ⟨fun c => execRepackBudgetExpire_ends, execRepackBudgetExpire_early⟩,
    fun s i n g hg => ⟨fun w hw hk hn hd hu x hx => ?_, fun w hw hk hn hd hu x hx => ?_, fun h => ?_⟩⟩
  · exact congrArg _ ((arrival_accepted h he hd hc hl).trans (congrArg (fun t : State => t.sendsMore i) (acceptEntry_tail hn)))
  · rw [fibre_updFibre_same hu fun f hf => (sleepEnds_uid _ f).trans hf]
    exact ⟨fun c => sleepEnds_due hs, fun c => sleepEnds_early, sleepEnds_untimed⟩
  · refine congrArg _ (watchdogDue_expired hg hw (by simp [hk, hn]) hd (fun v hv hp => ?_) hx)
    simp only [Bool.and_eq_true, beq_iff_eq] at hp
    exact hu v hv hp.1 hp.2
  · refine congrArg _ (watchdogDue_expired hg hw (by simp [hk, hn]) hd (fun v hv hp => ?_) hx)
    simp only [Bool.and_eq_true, bne_iff_ne, beq_iff_eq] at hp
    exact hu v hv hp.1 hp.2
  · exact ⟨congrArg _ (watchdogDue_early hg h), congrArg _ (watchdogDue_early hg h)⟩

end Sys2Proof.Machine

namespace Sys2Proof.Machine

/-! ### The return of a saved gang (R407) -/

/-- A gang whose fibres are all saved and held by nothing, with a free slot and its image in the emergency area, returns whole. -/
theorem execGangRestore_emergency {s : State} {gang : GangId} {f : Fibre} {fs : List Fibre} {k : Nat} (hf : s.gangFibres gang = f :: fs)
    (h8 : 8 ≤ gang.slot) (ha : ((f :: fs).all fun g => g.saved && s.mayReturn g) = true) (hk : s.slotFor (f :: fs) = some k)
    (he : (s.partn f.part).emergency = some f.onCore) : execGangRestore gang s = .next (execGangRestore.back gang s k) := by
  have h : ¬ (gang.slot < 8 ∨ (!((f :: fs).all fun g => g.saved && s.mayReturn g)) = true) := by
    rw [ha]
    simpa using h8
  simp only [execGangRestore, hf, if_neg h, hk, he, if_true]
  split <;> rfl

/-- A live fibre, saved out of its slot, whose window is wider than physical storage, and whose number is that of another fibre. -/
def wideTwin : Fibre := { Fibre.blank with slot := 8, win := 40000, st := .runnable, saved := true }

/-- An ended fibre with a window of 16 words, before a saved one of the same number; the image of their core stands in the emergency area. -/
def twinState : State :=
  { State.reset.updPart 0 (fun p => { p with emergency := some 0 }) with fibres := [Fibre.blank, wideTwin] }

theorem twinState_gang : twinState.gangFibres wideTwin.gang = [wideTwin] := by decide +kernel
theorem twinState_mayReturn : (wideTwin.saved && twinState.mayReturn wideTwin) = true := by decide +kernel
theorem twinState_slot : twinState.slotFor [wideTwin] = some 0 := by decide +kernel
theorem twinState_emergency : (twinState.partn wideTwin.part).emergency = some wideTwin.onCore := by decide +kernel

/-- The model returns the saved fibre into the tier, by the width of its own window. -/
theorem twinState_restored : exec (.gangRestore wideTwin.gang) twinState = .next (execGangRestore.back wideTwin.gang twinState 0) :=
  execGangRestore_emergency twinState_gang (by decide) (by rw [List.all_cons, twinState_mayReturn]; rfl) twinState_slot twinState_emergency

theorem twinState_back_tiered : ((execGangRestore.back wideTwin.gang twinState 0).fibre 0).tiered = true := by decide +kernel

/-- Refutes O55: in the clause of a saved gang's return, whether a fibre returns into the tier is read off the first fibre of its number, and the
model reads it off the gang's own fibre. In a state with two fibres of one number, which the clause does not exclude, they differ: the first has a
window of 16 words, and the gang's own one of 40,000, which physical storage does not hold. -/
theorem not_intervalAndPreemption : ¬ Obligations.IntervalAndPreemption := by
  intro h
  obtain ⟨-, -, -, -, -, -, -, restore, -⟩ := h
  obtain ⟨-, returns⟩ := restore twinState wideTwin.gang
  have hall : ∀ f ∈ twinState.gangFibres wideTwin.gang, f.saved = true ∧ twinState.mayReturn f = true := by
    rw [twinState_gang]
    exact fun f hf => List.mem_singleton.mp hf ▸ Bool.and_eq_true_iff.mp twinState_mayReturn
  obtain ⟨back, -⟩ := returns wideTwin [] 0 twinState_gang (by decide) hall (twinState_gang ▸ twinState_slot)
  have heq := Host.Outcome.next.inj (twinState_restored.symm.trans (back (.inr twinState_emergency)))
  have htiered := congrArg (fun t : State => (t.fibre 0).tiered) heq
  rw [twinState_gang] at htiered
  exact absurd (twinState_back_tiered.symm.trans htiered) (by decide +kernel)

end Sys2Proof.Machine

/-! Proof of the statement of memory about what a store leaves where it lands: the words of an L1 (R77, R78, R80) and the home copy (R243). -/

namespace Sys2Proof.Machine

/-! ### The words of an L1 (R77) -/

section

variable {s : State} {w : L1Word} {c g k j : Nat}

/-- An L1 is looked up by word: the two low bits of the address do not matter. -/
theorem l1Word_congr (h : k / 4 = j / 4) : s.l1Word c g k = s.l1Word c g j := by
  simp only [State.l1Word, h]

/-- What a lookup finds is the word that was looked up. -/
theorem l1Word_some (h : s.l1Word c g k = some w) : w.core = c ∧ w.tag = g ∧ w.key = k / 4 * 4 := by
  have hw := List.find?_some h
  simpa [and_assoc] using hw

/-- A word that was put into an L1 is found there. -/
theorem l1Word_setL1_same (hc : w.core = c) (hg : w.tag = g) (hk : w.key = k / 4 * 4) : (s.setL1 w).l1Word c g k = some w :=
  List.find?_cons_of_pos (by simp [hc, hg, hk])

/-- A filter that keeps whatever is looked for does not change what is found. -/
theorem find?_filter_of_imp {α : Type} {p q : α → Bool} (h : ∀ x, q x = true → p x = true) (xs : List α) :
    (xs.filter p).find? q = xs.find? q := by
  rw [List.find?_filter]
  refine congrArg (List.find? · xs) (funext fun x => ?_)
  rw [Bool.eq_iff_iff, decide_eq_true_eq, and_iff_right_iff_imp]
  exact h x

/-- Putting a word into an L1 leaves every other word of every L1 alone. -/
theorem l1Word_setL1_other (h : w.core ≠ c ∨ w.tag ≠ g ∨ w.key ≠ k / 4 * 4) : (s.setL1 w).l1Word c g k = s.l1Word c g k := by
  have hne : ¬ (w.core == c && w.tag == g && w.key == k / 4 * 4) = true := by
    simp only [Bool.and_eq_true, beq_iff_eq]
    omega
  refine (List.find?_cons_of_neg (by exact hne)).trans (find?_filter_of_imp (fun x hx => ?_) s.l1)
  simp only [Bool.not_eq_true', Bool.and_eq_true, beq_iff_eq, ← Bool.not_eq_true] at hx ⊢
  omega

end

/-! ### The bytes of a stored word (R77, R78) -/

section

variable {o n i : Nat}

/-- The bytes of a word that a store of `n` bytes from byte `o` up takes. -/
def storeMask (o n : Nat) : BitVec 4 := ((1#4 <<< n) - 1#4) <<< o

theorem getLsbD_storeMask (h : o + n ≤ 4) (i : Nat) : (storeMask o n).getLsbD i = (decide (o ≤ i) && decide (i < o + n)) := by
  by_cases hi : i < 4
  · have small : ∀ o < 5, ∀ n < 5, o + n ≤ 4 → ∀ i < 4, (storeMask o n).getLsbD i = (decide (o ≤ i) && decide (i < o + n)) := by decide
    exact small o (by omega) n (by omega) h i hi
  · rw [BitVec.getLsbD_of_ge _ _ (by omega), decide_eq_false (show ¬ i < o + n by omega), Bool.and_false]

/-- A number put together from four bytes. -/
def joinBytes (b : Nat → Nat) : Nat := (List.range 4).foldl (fun acc i => acc + b i * 2 ^ (8 * i)) 0

theorem foldl_add_four (t : Nat → Nat) : (List.range 4).foldl (fun acc i => acc + t i) 0 = t 0 + t 1 + t 2 + t 3 := by
  simp [List.range_succ]

theorem joinBytes_eq (b : Nat → Nat) :
    joinBytes b = b 0 * 2 ^ (8 * 0) + b 1 * 2 ^ (8 * 1) + b 2 * 2 ^ (8 * 2) + b 3 * 2 ^ (8 * 3) := foldl_add_four _

/-- Each byte reads back from the word that was put together. -/
theorem extractLsb'_joinBytes {b : Nat → Nat} (hb : ∀ i, b i < 256) (hi : i < 4) :
    (BitVec.ofNat 32 (joinBytes b)).extractLsb' (8 * i) 8 = BitVec.ofNat 8 (b i) := by
  have h0 := hb 0
  have h1 := hb 1
  have h2 := hb 2
  have h3 := hb 3
  have hlt : joinBytes b < 2 ^ 32 := by rw [joinBytes_eq]; omega
  apply BitVec.eq_of_toNat_eq
  rw [BitVec.extractLsb'_toNat, BitVec.toNat_ofNat, BitVec.toNat_ofNat, Nat.mod_eq_of_lt hlt, Nat.shiftRight_eq_div_pow, joinBytes_eq]
  match i, hi with
  | 0, _ | 1, _ | 2, _ | 3, _ => omega

/-- A word with new data, of which the bytes of a mask have been stored under the grain of a page. -/
def L1Word.put (w : L1Word) (grain : Nat) (data : Word) (m : BitVec 4) : L1Word :=
  { w with data := data, valid := w.valid ||| m, dirty := w.dirty ||| m, rls := false, grain := grain }

section

variable {w : L1Word} {grain : Nat} {data : Word} {m : BitVec 4}

@[simp] theorem put_core : (w.put grain data m).core = w.core := rfl
@[simp] theorem put_tag : (w.put grain data m).tag = w.tag := rfl
@[simp] theorem put_key : (w.put grain data m).key = w.key := rfl
@[simp] theorem put_data : (w.put grain data m).data = data := rfl
@[simp] theorem put_valid : (w.put grain data m).valid = w.valid ||| m := rfl
@[simp] theorem put_dirty : (w.put grain data m).dirty = w.dirty ||| m := rfl
@[simp] theorem put_rls : (w.put grain data m).rls = false := rfl

end

/-- The data of a word after a store of `d` from byte `o` up. -/
def L1Word.storedData (w : L1Word) (o : Nat) (d : List Byte) : Word :=
  BitVec.ofNat 32 (joinBytes fun i =>
    if (storeMask o d.length).getLsbD i then (d.getD (i - o) 0).toNat else (w.data.extractLsb' (8 * i) 8).toNat)

/-- The word that a store of `d` from byte `o` up leaves. -/
def L1Word.stored (w : L1Word) (grain o : Nat) (d : List Byte) : L1Word := w.put grain (w.storedData o d) (storeMask o d.length)

variable {w : L1Word} {grain : Nat} {d : List Byte}

/-- The bytes of a word after a store: those of the store in its place, and the word's own elsewhere. -/
theorem storedData_byte (hi : i < 4) : (w.storedData o d).extractLsb' (8 * i) 8 =
    if (storeMask o d.length).getLsbD i then d.getD (i - o) 0 else w.data.extractLsb' (8 * i) 8 := by
  refine (extractLsb'_joinBytes (fun i => ?_) hi).trans ?_
  · split <;> exact BitVec.isLt _
  · split <;> rw [BitVec.ofNat_toNat, BitVec.setWidth_eq]

/-- The bytes that were stored are valid and dirty. -/
theorem stored_inside (h : o + d.length ≤ 4) (hi : i < d.length) : (w.stored grain o d).valid.getLsbD (o + i) = true ∧
    (w.stored grain o d).dirty.getLsbD (o + i) = true ∧ (w.stored grain o d).data.extractLsb' (8 * (o + i)) 8 = d.getD i 0 := by
  have hm : (storeMask o d.length).getLsbD (o + i) = true := by simp [getLsbD_storeMask h, hi]
  refine ⟨?_, ?_, ?_⟩
  · rw [L1Word.stored, put_valid, BitVec.getLsbD_or, hm, Bool.or_true]
  · rw [L1Word.stored, put_dirty, BitVec.getLsbD_or, hm, Bool.or_true]
  · rw [L1Word.stored, put_data, storedData_byte (by omega), if_pos hm, Nat.add_sub_cancel_left]

/-- The bytes beside the store are as they were. -/
theorem stored_outside (h : o + d.length ≤ 4) (hi : i < 4) (ho : i < o ∨ o + d.length ≤ i) :
    (w.stored grain o d).valid.getLsbD i = w.valid.getLsbD i ∧ (w.stored grain o d).dirty.getLsbD i = w.dirty.getLsbD i ∧
    (w.stored grain o d).data.extractLsb' (8 * i) 8 = w.data.extractLsb' (8 * i) 8 := by
  have hm : (storeMask o d.length).getLsbD i = false := by
    rw [getLsbD_storeMask h, Bool.and_eq_false_iff, decide_eq_false_iff_not, decide_eq_false_iff_not]
    omega
  refine ⟨?_, ?_, ?_⟩
  · rw [L1Word.stored, put_valid, BitVec.getLsbD_or, hm, Bool.or_false]
  · rw [L1Word.stored, put_dirty, BitVec.getLsbD_or, hm, Bool.or_false]
  · rw [L1Word.stored, put_data, storedData_byte hi, hm, if_neg Bool.false_ne_true]

end

/-! ### A store to a cached place (R77, R78, R80) -/

section

variable {s : State} {l : Loc} {d : List Byte} {uid part core f : Nat}

/-- The word of a core's L1 that a store to an unversioned place writes: the one that is there, or an invalid one. -/
def State.storeTarget (s : State) (core : Nat) (l : Loc) : L1Word :=
  (s.l1Word core 0 l.key).getD { core := core, tag := 0, key := l.key / 4 * 4, data := 0, valid := 0, dirty := 0, rls := false, poison := false,
                                 foreign := false, grain := l.grain }

theorem storeTarget_of_some {o : L1Word} (h : s.l1Word core 0 l.key = some o) : s.storeTarget core l = o := by
  rw [State.storeTarget, h, Option.getD_some]

theorem storeTarget_place : (s.storeTarget core l).core = core ∧ (s.storeTarget core l).tag = 0 ∧ (s.storeTarget core l).key = l.key / 4 * 4 := by
  cases h : s.l1Word core 0 l.key with
  | none => rw [State.storeTarget, h]; exact ⟨rfl, rfl, rfl⟩
  | some o => rw [storeTarget_of_some h]; exact l1Word_some h

/-- The word that a store to an unversioned place leaves in a core's L1. -/
def State.storedWord (s : State) (core : Nat) (l : Loc) (d : List Byte) : L1Word := (s.storeTarget core l).stored l.grain (l.key % 4) d

/-- The home copy is no version that a store would have to create (R118). -/
theorem createVersion_home : s.createVersion part 0 l = s := by simp [State.createVersion]

theorem markWritten_home {k n : Nat} : s.markWritten 0 k n = s := if_pos rfl

/-- A store to an unversioned place puts the stored word into the core's L1; besides that only the events to come and the fibre's stores in flight
change. -/
theorem cachedStore_eq (hv : l.vers = false) : ∃ as fs,
    s.cachedStore uid part core f l d = { s.setL1 (s.storedWord core l d) with agenda := as, fibres := fs } := by
  have haligned : s.l1Word core 0 (l.key / 4 * 4) = s.l1Word core 0 l.key := l1Word_congr (by omega)
  simp only [State.cachedStore, hv, Bool.false_eq_true, if_false, createVersion_home, markWritten_home, haligned]
  split
  · exact ⟨_, _, rfl⟩
  · split <;> exact ⟨_, _, rfl⟩

/-- The stored word stands at the place of the store. -/
theorem storedWord_place : (s.storedWord core l d).core = core ∧ (s.storedWord core l d).tag = 0 ∧ (s.storedWord core l d).key = l.key / 4 * 4 := by
  rw [State.storedWord, L1Word.stored, put_core, put_tag, put_key]
  exact storeTarget_place

/-- A store leaves in the core's L1 the stored word, which the core finds there. -/
theorem l1Word_stored_same : (s.setL1 (s.storedWord core l d)).l1Word core 0 l.key = some (s.storedWord core l d) := by
  obtain ⟨hc, hg, hk⟩ := storedWord_place (s := s) (core := core) (l := l) (d := d)
  exact l1Word_setL1_same hc hg hk

/-- A store leaves every other word of every L1 alone. -/
theorem l1Word_stored_other {c g k : Nat} (h : c ≠ core ∨ g ≠ 0 ∨ k / 4 ≠ l.key / 4) :
    (s.setL1 (s.storedWord core l d)).l1Word c g k = s.l1Word c g k := by
  obtain ⟨hc, hg, hk⟩ := storedWord_place (s := s) (core := core) (l := l) (d := d)
  refine l1Word_setL1_other ?_
  rw [hc, hg, hk]
  omega

/-- A load of bytes that are valid in the core's word of the home copy hits them. -/
theorem l1Hit_of_valid {w : L1Word} {n : Nat} (hc : l.cached = true) (hv : l.vers = false) (hn : l.key % 4 + n ≤ 4)
    (hw : s.l1Word core 0 l.key = some w) (hvalid : ∀ i, i < n → w.valid.getLsbD (l.key % 4 + i) = true) :
    s.l1Hit part core f l n false = some ((List.range n).map (fun i => w.data.extractLsb' (8 * (l.key % 4 + i)) 8), w.poison) := by
  have hcover : w.valid &&& storeMask (l.key % 4) n = storeMask (l.key % 4) n := by
    refine BitVec.eq_of_getLsbD_eq fun i _ => ?_
    rw [BitVec.getLsbD_and, getLsbD_storeMask hn, Bool.and_eq_right_iff_imp, Bool.and_eq_true, decide_eq_true_eq, decide_eq_true_eq]
    rintro ⟨h0, h1⟩
    have := hvalid (i - l.key % 4) (by omega)
    rwa [Nat.add_sub_cancel' h0] at this
  simp only [State.l1Hit, State.readCopy, hc, hv, hw, Bool.not_true, Bool.false_eq_true, if_false]
  exact if_pos hcover

/-- The stored bytes, one by one, are what was stored. -/
theorem storedWord_bytes (hn : l.key % 4 + d.length ≤ 4) :
    (List.range d.length).map (fun i => (s.storedWord core l d).data.extractLsb' (8 * (l.key % 4 + i)) 8) = d := by
  refine List.ext_getElem (by simp) fun i hi hd => ?_
  obtain ⟨-, -, hbyte⟩ := stored_inside (w := s.storeTarget core l) (grain := l.grain) hn hd
  rw [List.getElem_map, List.getElem_range]
  exact hbyte.trans (by rw [List.getD_eq_getElem?_getD, List.getElem?_eq_getElem hd, Option.getD_some])

end

/-! ### A store to a place that is not cached (R78, R243) -/

section

variable {s t : State} {l : Loc} {d : List Byte} {part f k : Nat}

theorem byte_congr (h : t.mem = s.mem) : t.byte k = s.byte k := by rw [State.byte, State.byte, h]

theorem bytes_congr (h : t.mem = s.mem) (n : Nat) : t.bytes k n = s.bytes k n := by
  induction n generalizing k with
  | zero => rfl
  | succ n ih => rw [State.bytes, State.bytes, byte_congr h, ih]

/-- The host's line states alone change where a line is touched (R109, R431). -/
theorem touchLine_frame (g : Nat) :
    s.touchLine g k = { s with hostLines := (s.touchLine g k).hostLines, hostHeld := (s.touchLine g k).hostHeld } := by
  unfold State.touchLine
  split
  · rfl
  · split
    · split
      · split <;> rfl
      · rfl
    · rfl

/-- What a write of bytes makes of memory depends on memory alone. -/
theorem setBytes_mem_congr (h : t.mem = s.mem) : (t.setBytes k d).mem = (s.setBytes k d).mem := by
  induction d generalizing s t k with
  | nil => exact h
  | cons b r ih => exact ih (congrArg (mapSet unwritten · k b) h)

/-- A block that no L1 has registered is recalled from none. -/
theorem recallBlock_unowned {g grain : Nat} (ho : s.owner g k grain = none) : s.recallBlock g k grain = s := by
  rw [State.recallBlock, ho]

/-- A write to the home copy of an unversioned place whose block no L1 has registered writes the bytes there; besides that only the host's line
states, the marks of memory errors and the L1s' clean copies of the sector change. -/
theorem homeWrite_eq (hv : l.vers = false) (ho : s.owner 0 l.key l.grain = none) : ∃ hl hh ps ws,
    s.homeWrite part f l d = { s with mem := (s.setBytes l.key d).mem, hostLines := hl, hostHeld := hh, poisoned := ps, l1 := ws } := by
  have hmem : ((s.touchLine 0 l.key).setBytes l.key d).mem = (s.setBytes l.key d).mem :=
    setBytes_mem_congr (by rw [touchLine_frame])
  have hcopy : copyKey 0 l.key = l.key := if_pos rfl
  simp only [State.homeWrite, State.homeWriteAs, hv, Bool.false_eq_true, if_false, createVersion_home, markWritten_home, recallBlock_unowned ho, hcopy]
  rw [setBytes_frame, hmem, touchLine_frame]
  exact ⟨_, _, _, _, rfl⟩

end

/-! ### Where a store lands -/

section

variable {s : State} {f : Fibre} {l : Loc} {d : List Byte}

theorem storeAt_cached (hp : isPeer l = false) (hc : l.cached = true) :
    s.storeAt f l d = s.cachedStore f.uid f.part (s.coreOf f) f.tag l d := by
  rw [State.storeAt, hp, hc, if_neg Bool.false_ne_true, if_pos rfl]

theorem storeAt_uncached (hp : isPeer l = false) (hc : l.cached = false) : s.storeAt f l d = s.homeWrite f.part f.tag l d := by
  rw [State.storeAt, hp, hc, if_neg Bool.false_ne_true, if_neg Bool.false_ne_true]

end

/-- Settles O57. A place that is not cached: the laws of memory for the bytes written at the home copy. A cached place: the one word that the store
puts into the core's L1, byte by byte. -/
theorem storeEffects : Obligations.StoreEffects := by
  refine ⟨fun s f l d hc hv hp ho hwf => ?_, fun s f l d hc hv hp _ hn => ?_⟩
  · obtain ⟨hl, hh, ps, ws, ht⟩ := homeWrite_eq (part := f.part) (f := f.tag) (d := d) hv ho
    rw [← storeAt_uncached hp hc] at ht
    have hmem : (s.storeAt f l d).mem = (s.setBytes l.key d).mem := by rw [ht]
    refine ⟨(bytes_congr hmem _).trans (bytes_setBytes_same hwf), fun a ha => (byte_congr hmem).trans (byte_setBytes_other hwf ha),
      hmem ▸ setBytes_wf hwf, ?_⟩
    rw [ht]
    exact ⟨rfl, rfl, rfl, rfl, rfl⟩
  · obtain ⟨as, fs, ht⟩ := cachedStore_eq (s := s) (uid := f.uid) (part := f.part) (core := s.coreOf f) (f := f.tag) (d := d) hv
    rw [storeAt_cached hp hc, ht]
    refine ⟨rfl, rfl, rfl, rfl, rfl, ⟨s.storedWord (s.coreOf f) l d, l1Word_stored_same, put_rls, fun i hi => ?_, fun b hb hbeside o hold => ?_⟩,
      ⟨(s.storedWord (s.coreOf f) l d).poison, ?_⟩, fun c g k h => l1Word_stored_other h⟩
    · obtain ⟨hvalid, hdirty, -⟩ := stored_inside (w := s.storeTarget (s.coreOf f) l) (grain := l.grain) hn hi
      exact ⟨hvalid, hdirty⟩
    · rw [State.storedWord, storeTarget_of_some hold]
      exact stored_outside hn hb hbeside
    · have hit := l1Hit_of_valid (s := s.setL1 (s.storedWord (s.coreOf f) l d)) (part := f.part) (f := f.tag) hc hv hn l1Word_stored_same
        fun i hi => (stored_inside hn hi).1
      rw [storedWord_bytes hn] at hit
      exact hit

end Sys2Proof.Machine

/-! Proof of the statement of ordering about the home slices towards the host and the peers, and about the links: CXL.mem (R109, R422), snoops and
completions (R107, R431, R472), peer writes (R110), the bond (R470), GDDR 7 (R464, R471) and the host link (R443, R472). -/

namespace Sys2Proof.Machine

/-! ### CXL.mem (R109, R422) -/

section

variable {s : State} {addr count : Nat} {data : List Byte}

/-- A read past the end of device memory, or not of whole words, is not served. -/
theorem execCxlMemRead_ignored (h : deviceSize < addr + 4 * count ∨ addr % 4 ≠ 0) : execCxlMemRead addr count s = .next s := if_pos h

section

variable (hend : addr + 4 * count ≤ deviceSize) (hword : addr % 4 = 0)

include hend hword

theorem cxlMemRead_inRange : ¬ (deviceSize < addr + 4 * count ∨ addr % 4 ≠ 0) := by omega

theorem execCxlMemRead_before_ready (hr : s.ready = false) :
    execCxlMemRead addr count s = .next { s with hostData := List.replicate count ⟨0, true⟩ } := by
  simp only [execCxlMemRead, if_neg (cxlMemRead_inRange hend hword), hr, Bool.not_false, if_true]

/-- After READY a read gives what the home slice serves, and the host holds its lines. -/
theorem execCxlMemRead_ready (hr : s.ready = true) : execCxlMemRead addr count s = .next { (s.serveHost (devKey addr) count).2 with
    hostData := (s.serveHost (devKey addr) count).1
    hostHeld := (deviceLines addr (4 * count)).foldl (fun l k => addOnce l k) (s.serveHost (devKey addr) count).2.hostHeld } := by
  simp only [execCxlMemRead, if_neg (cxlMemRead_inRange hend hword), hr, Bool.not_true, Bool.false_eq_true, if_false]

end

/-- A write before READY, or past the end of device memory, is discarded. -/
theorem execCxlMemWrite_discarded (h : s.ready = false ∨ deviceSize < addr + data.length) : execCxlMemWrite addr data s = .next s :=
  if_pos (h.symm.imp_right fun hr => by rw [hr, Bool.not_false])

theorem execCxlMemWrite_ready (hr : s.ready = true) (hend : addr + data.length ≤ deviceSize) :
    execCxlMemWrite addr data s = .next (s.hostStores (devKey addr) data (data.length / 32 + 2)) :=
  if_neg (not_or.mpr ⟨Nat.not_lt.mpr hend, by rw [hr]; exact Bool.false_ne_true⟩)

end

/-! ### Snoops of a host line (R107, R431) -/

section

variable {s : State} {line kind : Nat} {i : Instr} {h : HostLine}

/-- The home slice serves a line to a snoop; the data return to the host where the line is in M. -/
def State.snoopServed (s : State) (line : Nat) : State :=
  let d := s.serveHost (hostLineKey line) 32
  if d.2.hostLines.any (fun (x : HostLine) => x.line == line && x.mesi == 3) then { d.2 with hostData := d.1 } else d.2

/-- The event of a snoop: 0 SnpInv, 1 SnpData, 2 SnpCur. -/
theorem exec_snoop (hi : (kind = 0 ∧ i = .snpInv line) ∨ (kind = 1 ∧ i = .snpData line) ∨ (kind = 2 ∧ i = .snpCur line)) :
    exec i s = .next (s.snoop line kind) := by
  rcases hi with ⟨rfl, rfl⟩ | ⟨rfl, rfl⟩ | ⟨rfl, rfl⟩ <;> rfl

/-- A snoop of a line that the VAC knows nothing of. -/
theorem snoop_unknown (hl : ∀ h ∈ s.hostLines, h.line ≠ line) : s.snoop line kind = s := by
  have hn : s.hostLines.find? (fun (h : HostLine) => h.line == line) = none :=
    List.find?_eq_none.mpr fun h hm he => hl h hm (beq_iff_eq.mp he)
  simp only [State.snoop, hn]

section

variable (hf : s.hostLines.find? (fun (h : HostLine) => h.line == line) = some h)

include hf

/-- A snoop that meets a fill in flight waits for it. -/
theorem snoop_filling (hq : h.request = some 0 ∨ h.request = some 1) :
    s.snoop line kind = s.updHostLine line fun x => { x with snoops := x.snoops ++ [kind] } := by
  simp only [State.snoop, hf, if_pos hq]

section

variable (h0 : h.request ≠ some 0) (h1 : h.request ≠ some 1)

include h0 h1

/-- A snoop of a line in I. -/
theorem snoop_invalid (hm : h.mesi = 0) : s.snoop line kind = s := by
  simp only [State.snoop, hf, if_neg (not_or.mpr ⟨h0, h1⟩), if_pos hm]

/-- A snoop of a line that the VAC holds leaves it in I, in S, or as it was. -/
theorem snoop_held (hm : h.mesi ≠ 0) : s.snoop line kind =
    if kind = 0 then (s.snoopServed line).dropHostLine line
    else if kind = 1 then (s.snoopServed line).updHostLine line (fun x => { x with mesi := 1, backup := [] })
    else s.snoopServed line := by
  simp only [State.snoop, hf, if_neg (not_or.mpr ⟨h0, h1⟩), if_neg hm]
  match kind with
  | 0 => rfl
  | 1 => rfl
  | k + 2 => rw [if_neg (show k + 2 ≠ 0 by omega), if_neg (show k + 2 ≠ 1 by omega)]; rfl

end

end

end

/-! ### Completions of a host line (R107, R431, R472) -/

section

variable {s : State} {line req : Nat} {own grantE : Bool} {answer : HostAnswer} {h : HostLine}

/-- A completion of a line that no request is out for. -/
theorem execCxlCacheCompletion_unasked (hl : ∀ h ∈ s.hostLines, h.line = line → h.request = none) :
    execCxlCacheCompletion line own grantE answer s = .next s := by
  have hn : s.hostLines.find? (fun (h : HostLine) => h.line == line && h.request.isSome) = none :=
    List.find?_eq_none.mpr fun h hm he => by
      obtain ⟨hline, hsome⟩ := Bool.and_eq_true_iff.mp he
      rw [hl h hm (beq_iff_eq.mp hline)] at hsome
      exact Bool.false_ne_true hsome
  simp only [execCxlCacheCompletion, hn]

section

variable (hf : s.hostLines.find? (fun (h : HostLine) => h.line == line && h.request.isSome) = some h)

include hf

/-- The completion of a DirtyEvict ends the eviction. -/
theorem execCxlCacheCompletion_evicted (hq : h.request = some 2) : execCxlCacheCompletion line own grantE answer s = .next (s.loseHostLine line) := by
  simp only [execCxlCacheCompletion, hf, if_pos hq]

/-- The completion of a read takes in what the host has written, and installs the line. -/
theorem execCxlCacheCompletion_filled (hq : h.request = some (if own then 1 else 0)) : execCxlCacheCompletion line own grantE answer s =
    .next ((s.hostWrote line answer.data).fillHostLine h (if own || grantE then 2 else 1) (if answer.poisoned then h.request else none)) := by
  simp only [execCxlCacheCompletion, hf]
  rw [if_neg, if_neg]
  · cases own <;> simp [hq]
  · cases own <;> simp [hq]

end

/-- The request of code `req` for a line has been out for 10 ms. -/
def State.overdueLine (s : State) (req line : Nat) (h : HostLine) : Bool :=
  h.line == line && h.request == some req && decide (h.since + 10 * clocksPerMs ≤ s.clock)

/-- A read that has expired poisons the line. -/
theorem execCxlCompletionTimeout_read (hr : req ≤ 1) (hf : s.hostLines.find? (s.overdueLine req line) = some h) :
    execCxlCompletionTimeout req line s = .next (s.fillHostLine h (if req = 1 then 2 else 1) (some 5)) := by
  unfold State.overdueLine at hf
  simp only [execCxlCompletionTimeout, if_neg (show req ≠ 4 by omega), hf, if_neg (show req ≠ 2 by omega)]

/-- An eviction that has expired is discarded: the bytes from before the line was written stand again. -/
theorem execCxlCompletionTimeout_evict (hf : s.hostLines.find? (s.overdueLine 2 line) = some h) : execCxlCompletionTimeout 2 line s =
    .next (((s.setBytes (hostLineKey line) h.backup).loseHostLine line).report
      (((s.setBytes (hostLineKey line) h.backup).loseHostLine line).linkRec line none 2)) := by
  unfold State.overdueLine at hf
  simp only [execCxlCompletionTimeout, if_neg (show 2 ≠ 4 by decide), hf, if_true]

/-- A line that is not overdue. -/
theorem execCxlCompletionTimeout_early (hl : ∀ h ∈ s.hostLines, h.line = line → s.clock < h.since + 10 * clocksPerMs) (hr : req ≠ 4) :
    execCxlCompletionTimeout req line s = .next s := by
  have hn : s.hostLines.find? (s.overdueLine req line) = none := List.find?_eq_none.mpr fun h hm he => by
    simp only [State.overdueLine, Bool.and_eq_true, beq_iff_eq, decide_eq_true_eq] at he
    obtain ⟨⟨hline, -⟩, hlate⟩ := he
    exact Nat.not_lt.mpr hlate (hl h hm hline)
  unfold State.overdueLine at hn
  simp only [execCxlCompletionTimeout, if_neg hr, hn]

end

/-! ### Writes to a peer (R110, R472) -/

section

variable {s : State} {u line : Nat} {w : PeerWrite}

theorem execPeerWriteAck_none (h : ∀ w ∈ s.peerWrites, w.uid ≠ u) : execPeerWriteAck u s = .next s := by
  have hn : s.peerWrites.find? (fun (w : PeerWrite) => w.uid == u) = none := List.find?_eq_none.mpr fun w hm he => h w hm (beq_iff_eq.mp he)
  simp only [execPeerWriteAck, hn]

theorem execPeerWriteAck_some (hf : s.peerWrites.find? (fun (w : PeerWrite) => w.uid == u) = some w) :
    execPeerWriteAck u s = .next (s.peerDone w) := by
  simp only [execPeerWriteAck, hf]

/-- A write to a peer that has expired is over, and has not landed. -/
theorem execCxlCompletionTimeout_peer
    (hf : s.peerWrites.find? (fun (w : PeerWrite) => w.key / 128 == line && decide (w.since + 10 * clocksPerMs ≤ s.clock)) = some w) :
    execCxlCompletionTimeout 4 line s =
      .next (((s.peerDone w).setBytes w.key w.old).report (((s.peerDone w).setBytes w.key w.old).linkRec line (some w.uid) 4)) := by
  simp only [execCxlCompletionTimeout, if_true, hf]

end

/-! ### The bond (R470, R473) -/

section

variable {s : State} {core channel offset : Nat} {failing : List Nat} {resent : Bool}

/-- The lanes that failed a test, in ascending order. -/
def failedLanes (failing : List Nat) : List Nat := sortBy (fun n => n) (failing.foldl addOnce [])

/-- A failed lane takes a spare, with its record. -/
def State.swapLane (core channel o : Nat) (s : State) (lane : Nat) : State :=
  (s.report (s.vaultRec core
    { cause := 0x0103, addr := o, rung := 6
      detail := channel + lane * 2 ^ 8 + s.sparesUsed core channel * 2 ^ 16 + (if lane < 231 then lane / 33 else 0) * 2 ^ 24 })).useSpare core channel

/-- A burst that no swap mends: its record, and the marks of its sector where that lies in a vault. -/
def State.loseBurst (s : State) (core channel o : Nat) : State :=
  let u := s.report (s.vaultRec core { cause := 0x0101, addr := o, detail := vaultArray o * 2 ^ 8 + 2 ^ 12 + channel * 2 ^ 13 })
  if vaultArray o = 1 then u.markGranules (vltKey core (o - 2 ^ 20)) else u

section

variable (hc : core < 128) (hch : channel < 16) (ho : offset < 2 ^ 22)

include hc hch ho

theorem bond_inRange : ¬ (128 ≤ core ∨ 16 ≤ channel ∨ 2 ^ 22 ≤ offset) := by omega

/-- Where no lane failed, or the spares do not suffice, the burst is lost. -/
theorem execBondLaneTest_lost (h : failedLanes failing = [] ∨ 4 < (failedLanes failing).length + s.sparesUsed core channel) :
    execBondLaneTest core channel offset failing resent s = .next (s.loseBurst core channel (offset / 32 * 32)) := by
  have hswap : (!(failedLanes failing).isEmpty && decide ((failedLanes failing).length + s.sparesUsed core channel ≤ 4)) = false := by
    rcases h with h | h
    · rw [h]; rfl
    · rw [decide_eq_false (Nat.not_le.mpr h), Bool.and_false]
  unfold failedLanes at hswap
  simp only [execBondLaneTest, if_neg (bond_inRange hc hch ho), hswap, Bool.not_false, if_true, Bool.false_and, Bool.false_eq_true, if_false]
  rfl

/-- Where the spares suffice, every failed lane takes one, and the burst is lost only where its resend fails. -/
theorem execBondLaneTest_swapped (hne : failedLanes failing ≠ []) (hle : (failedLanes failing).length + s.sparesUsed core channel ≤ 4) :
    execBondLaneTest core channel offset failing resent s =
      .next (if resent then (failedLanes failing).foldl (State.swapLane core channel (offset / 32 * 32)) s
        else ((failedLanes failing).foldl (State.swapLane core channel (offset / 32 * 32)) s).loseBurst core channel (offset / 32 * 32)) := by
  have hswap : (!(failedLanes failing).isEmpty && decide ((failedLanes failing).length + s.sparesUsed core channel ≤ 4)) = true := by
    rw [decide_eq_true hle, Bool.and_true, Bool.not_eq_true', List.isEmpty_eq_false_iff]
    exact hne
  unfold failedLanes at hswap
  simp only [execBondLaneTest, if_neg (bond_inRange hc hch ho), hswap, Bool.not_true, Bool.true_and, Bool.false_eq_true, if_false]
  cases resent <;> rfl

end

end

/-! ### GDDR 7 (R464, R471) -/

section

variable {s : State} {pa sector resends : Nat} {isWrite : Bool}

/-- A poison list with room takes the marks of a sector. -/
theorem markHome_of_room (h : ((s.markGranules (devKey pa)).poisonList (vacSlice (devKey pa))).length ≤ 1024) :
    s.markHome pa = s.markGranules (devKey pa) := if_pos h

/-- Resends that pass leave a record alone. -/
theorem execGddr7Retrain_passed (h : 32 * sector < deviceSize) : execGddr7Retrain sector resends true isWrite s =
    .next (s.report { s.gddrRec (32 * sector) with
      detail := (s.gddrRec (32 * sector)).detail + max 5 (min resends 8) * 2 ^ 16 + 2 ^ 20, rung := 1 }) := by
  simp only [execGddr7Retrain, if_neg (Nat.not_le.mpr h), if_true]

/-- A burst that stays uncorrectable marks the home copy, with its record. -/
theorem execGddr7Retrain_failed (h : 32 * sector < deviceSize) : execGddr7Retrain sector resends false isWrite s =
    let t := s.report { s.gddrRec (32 * sector) with cause := 0x0105, detail := (s.gddrRec (32 * sector)).detail + 2 ^ 8 }
    .next ((if isWrite then t.dropClean 0 (devKey (32 * sector)) else t).markHome (32 * sector)) := by
  simp only [execGddr7Retrain, if_neg (Nat.not_le.mpr h), Bool.false_eq_true, if_false]

end

/-! ### The host link (R443, R472) -/

section

variable {s : State}

/-- The record of an error of the device stands in the device log alone. -/
theorem report_deviceError {r : Rec} (hc : r.cause = 0x01C0) (hp : r.part = none) : s.report r = s.devLog r := by
  have hclass : causeClass r.cause ≠ 0 := by rw [hc]; decide
  rw [State.report, if_pos hclass, State.log, hp]

theorem deviceError_eq (n : Nat) : s.deviceError n = (s.devLog { cause := 0x01C0, detail := n, rung := 5 }).stopDevice :=
  congrArg State.stopDevice (report_deviceError rfl rfl)

end

/-- Settles O51, event by event: each clause is a lemma above. How completions, snoops that meet a fill, time-outs and writes to a peer go on, and
DETAIL of their records, is the model's choice (notes/assumptions/59.md), as are the owner, beat and marks that the errors of the bond and of GDDR 7
report where no requester is served (60.md). -/
theorem coherenceEvents : Obligations.CoherenceEvents := by
  refine ⟨fun s addr count hend hword => ⟨execCxlMemRead_before_ready hend hword, execCxlMemRead_ready hend hword⟩,
    fun s addr count => execCxlMemRead_ignored,
    fun s addr data => ⟨execCxlMemWrite_discarded, execCxlMemWrite_ready⟩,
    fun s line => rfl,
    fun s line kind i hi => ?_,
    fun s line own grantE answer => ⟨execCxlCacheCompletion_unasked, fun h hf =>
      ⟨execCxlCacheCompletion_evicted hf, execCxlCacheCompletion_filled hf⟩⟩,
    fun s line => ⟨fun req h => execCxlCompletionTimeout_read, fun h => execCxlCompletionTimeout_evict, fun w => execCxlCompletionTimeout_peer,
      fun req => execCxlCompletionTimeout_early⟩,
    fun s u => ⟨execPeerWriteAck_none, fun w => execPeerWriteAck_some⟩,
    fun s core channel offset failing resent hc hch ho => ⟨execBondLaneTest_lost hc hch ho, execBondLaneTest_swapped hc hch ho⟩,
    fun s sector resends isWrite h => ⟨execGddr7Retrain_passed h, fun hroom =>
      (execGddr7Retrain_failed h).trans (congrArg _ (markHome_of_room hroom))⟩,
    fun s => ⟨({ s with linkLost := true } : State).deviceError 11, rfl, ?_⟩⟩
  · rw [exec_snoop hi]
    exact ⟨fun hl => congrArg _ (snoop_unknown hl), fun h hf => ⟨fun hq => congrArg _ (snoop_filling hf hq),
      fun h0 h1 hm => congrArg _ (snoop_invalid hf h0 h1 hm), fun h0 h1 hm => congrArg _ (snoop_held hf h0 h1 hm)⟩⟩
  · rw [deviceError_eq]
    exact ⟨rfl, rfl, rfl, rfl, rfl, rfl, List.mem_append_right _ (List.mem_singleton.mpr rfl), rfl, rfl⟩

end Sys2Proof.Machine

/-! Proof of the statement of futures about the events of tags (R125 to R129, R132, R134) and of sinks (R299). -/

namespace Sys2Proof.Machine

/-! ### The drain and the reclaim of a tag (R125) -/

section

variable {s : State} {t : Nat}

/-- A tag that is SQUASHED has drained: it is RECLAIMING, and its reclaim is due. -/
theorem execSquashDrainComplete_squashed (h : (s.tagRec t).state = tagSquashed) :
    execSquashDrainComplete t s = .next ((s.updTag t fun r => { r with state := tagReclaiming }).post (.tagReclaimComplete t)) :=
  if_neg fun hn => hn h

theorem execSquashDrainComplete_ignored (h : (s.tagRec t).state ≠ tagSquashed) : execSquashDrainComplete t s = .next s := if_pos h

/-- A tag that is RECLAIMING is FREE: its lines go, and the waits for it end. -/
theorem execTagReclaimComplete_reclaiming (h : (s.tagRec t).state = tagReclaiming) : execTagReclaimComplete t s =
    .next ((({ s with verLines := s.verLines.filter fun v => v.tag != t }).updTag t fun _ => TagRec.reset).tagEvent fun w => w == Wait.tagFree t) :=
  if_neg fun hn => hn h

theorem execTagReclaimComplete_ignored (h : (s.tagRec t).state ≠ tagReclaiming) : execTagReclaimComplete t s = .next s := if_pos h

/-! ### The commit point (R126 to R129, R134) -/

theorem execFutureCommitPoint_ready (hc : (s.tagRec t).state = tagCommitting) (hr : s.commitReady t = true) :
    execFutureCommitPoint t s = .next (s.commitPoint t) := if_pos ⟨hc, hr⟩

theorem execFutureCommitPoint_ignored (h : ¬((s.tagRec t).state = tagCommitting ∧ s.commitReady t = true)) :
    execFutureCommitPoint t s = .next s := if_neg h

end

/-! ### The slots of a sink (R299) -/

/-- A sink at its slot start: what was written while EN was 1 takes effect, and the pending record, where there is one, is current (R299). -/
def Sink.atSlot (x : Sink) : Sink :=
  { x.latch with current := match x.pending with | some r => some r | none => x.current, pending := none }

theorem Sink.atSlot_eq : Sink.atSlot = fun x : Sink =>
    { x.latch with current := if x.pending.isSome then x.pending else x.current, pending := none } := by
  funext x
  unfold Sink.atSlot
  cases x.pending <;> rfl

/-- What a slot start shows: the surface of the partition that owns the sink, whose contracts begin their periods, or nothing (R299, R400). -/
def State.showSlot (s : State) (k : Nat) : State :=
  match s.sinkOwner k with
  | some p => (s.showSurface p k).syncPeriods p k
  | none => s.updSink k fun x => { x with shown := none }

/-- The slot after this one: due one period later where EN still reads 1; otherwise the sink is black (R299, R399). -/
def State.scheduleSlot (s : State) (k : Nat) : State :=
  if (s.sink k).mode.getLsbD 63 then
    (s.updSink k fun x => { x with slotAt := s.clock + (s.sink k).period k }).timer (s.clock + (s.sink k).period k) (.sinkSlotStart k)
  else s.updSink k fun x => { x with shown := none }

section

variable {s : State} {k : Nat}

/-- A disabled sink starts no slot, nor does an enabled one before its clock. -/
theorem execSinkSlotStart_ignored (h : (s.sink k).mode.getLsbD 63 = false ∨ s.clock < (s.sink k).slotAt) : execSinkSlotStart k s = .next s := by
  refine if_pos (Or.inr (h.imp_left fun he => ?_))
  rw [he]
  rfl

theorem execSinkSlotStart_due (hk : k < 20) (he : (s.sink k).mode.getLsbD 63 = true) (hd : (s.sink k).slotAt ≤ s.clock) :
    execSinkSlotStart k s = .next (((s.updSink k Sink.atSlot).showSlot k).scheduleSlot k) := by
  have enabled : ¬(20 ≤ k ∨ (!(s.sink k).mode.getLsbD 63) = true ∨ s.clock < (s.sink k).slotAt) := by
    simp only [he, Bool.not_true, Bool.false_eq_true, false_or]
    omega
  exact (if_neg enabled).trans (apply_ite Host.Outcome.next _ _ _).symm

end

/-- Settles O47, event by event: each clause is a lemma above, and the clause of the commit point spells out `State.commitPoint`. That a merge takes no
way of the VAC, and which journals a commit awaits, are the model's choices (notes/assumptions/72.md, 83.md). -/
theorem futureEvents : Obligations.FutureEvents := by
  refine ⟨fun s t => ⟨execSquashDrainComplete_squashed, execSquashDrainComplete_ignored, execTagReclaimComplete_reclaiming,
      execTagReclaimComplete_ignored, execFutureCommitPoint_ignored, execFutureCommitPoint_ready⟩,
    fun s k hk => ⟨execSinkSlotStart_ignored, fun he hd => (execSinkSlotStart_due hk he hd).trans ?_⟩⟩
  rw [Sink.atSlot_eq]
  rfl

end Sys2Proof.Machine

/-! Proofs of the statements of encoding about the issue: words that are no instruction (R169), the shared checks and their order (R160, R165, R170,
R176), and the advance of the PC (R152, R187). -/

namespace Sys2Proof.Machine

section

variable {s : State}

/-! ### Words that are no instruction (R169) -/

/-- The first word of what is fetched is the word that the records of its traps report. -/
theorem fetched_curWord (s : State) (w0 : Word) (walks : List Nat) : (fetched s w0 walks).curWord = w0 := by
  unfold fetched
  dsimp only
  split <;> rfl

/-- The issue of words that decode to nothing traps, and holds the whole wave. -/
theorem issueWith_of_reject {ws : List Word} {w0 : Word} {walks : List Nat} {r : Reject}
    (hw : s.issueWords (s.wave.headD Fibre.blank) (s.wave.all fun g => g.repLive) = .ok (ws, w0, walks)) (hd : decode ws = .error r) :
    s.issueWith decode exec =
      .next ((fetched s w0 walks).trap ((fetched s w0 walks).cur.headD 0) (fetched s w0 walks).cur
        (fetched s w0 walks).illegal none (some (4 * lenWords w0))) := by
  simp only [State.issueWith, hw, hd]
  rfl

end

/-- Settles O3: a picked wave issues, and words that decode to nothing stop it. That ILLEGAL_OP holds every fibre of the wave, and that the lowest
lane leads its record, is the model's reading (notes/assumptions/8.md). -/
theorem stepRejectsWords : Obligations.StepRejectsWords := by
  intro s c ws w0 walks r hs hr hr' ha ht hp hw hd
  rw [step_of_pick hs hr hr' ha ht hp, issueWith_of_reject hw hd, State.illegal, fetched_curWord]
  rfl

section

variable {s : State} {i j : Issue}

/-! ### What two issues that present the same to the shared checks have in common -/

/-- The stall count and the scoreboard of an issue show in what it presents to the shared checks. -/
theorem markIssued_same (h : i.same j) : s.markIssued i = s.markIssued j := by
  obtain ⟨hmajor, hminor, he, -, -⟩ := h
  have hu : i.uses = j.uses := by rw [Issue.uses, Issue.uses, hmajor, hminor, he]
  have hm : i.marks = j.marks := by
    funext any f after
    rw [Issue.marks, Issue.marks, hmajor, he, hu]
  have hg : i.groupMarks = j.groupMarks := by
    funext after
    rw [Issue.groupMarks, Issue.groupMarks, hmajor, hu]
  simp only [State.markIssued, he, hm, hg]

end

/-- Settles O5: every instruction acts through the shared issue, which traps where a shared check fails. That the whole wave is held, and that the
lowest active lane leads the record, is the model's reading (notes/assumptions/8.md). -/
theorem sharedChecks : Obligations.SharedChecks := by
  intro x i s t hi ht
  obtain ⟨j, body, hj, hx⟩ := exec_issues hi s
  have hgate : s.gate j = .trap t := gate_same hj ▸ ht
  obtain ⟨-, -, he, hlen, -⟩ := hj
  rw [hx, issue_trap hgate, he, hlen]

/-- Settles O6: every instruction acts through the shared issue, which without an active fibre moves on. -/
theorem guardFalse : Obligations.GuardFalse := by
  intro x i s hi hgo ha
  obtain ⟨j, body, hj, hx⟩ := exec_issues hi s
  have hmark : s.markIssued j = s.markIssued i := (markIssued_same hj).symm
  have hgate : s.gate j = .go := gate_same hj ▸ hgo
  obtain ⟨-, -, he, hlen, -⟩ := hj
  have hactive : s.activeSet j = [] := by rw [State.activeSet, ← he]; exact ha
  rw [hx, issue_idle hgate hactive, hmark, hlen]

section

variable {s : State} {i : Issue}

/-! ### The shared checks in their order (R170) -/

/-- Every register that an instruction names lies in its file, in every fibre of the wave (R37, R160). -/
def inFile (s : State) (i : Issue) : Prop := ∀ f ∈ s.wave, usesInFile f.win i.uses = true

/-- A privileged instruction is a supervisor's in every fibre of the wave (R167). -/
def privHeld (s : State) (i : Issue) : Prop := i.priv = true → ∀ f ∈ s.wave, (s.pipeOf f).supervisor = true

/-- The writer that an instruction stands too close to in a fibre (R176). -/
def shortWriter (s : State) (i : Issue) (f : Fibre) : Option SbEntry :=
  (f.meets s.clock i.uses (predsOf i)).find? fun x => decide (x.dist < x.lat)

/-- A register outside its file traps ILLEGAL_OP. -/
theorem gate_outside (h : ∃ f ∈ s.wave, usesInFile f.win i.uses = false) : s.gate i = .trap s.illegal :=
  if_pos (by simpa using h)

theorem inFile_all (h : inFile s i) : ¬ (!(s.wave.all fun f => usesInFile f.win i.uses)) = true := by
  simpa [inFile] using h

/-- Then a privileged instruction of a fibre outside the supervisor's pipeline traps PRIV. -/
theorem gate_unprivileged (hf : inFile s i) (hp : i.priv = true) (h : ∃ f ∈ s.wave, (s.pipeOf f).supervisor = false) :
    s.gate i = .trap { cause := cPriv, detail := i.major * 256 + i.minor } := by
  refine (if_neg (inFile_all hf)).trans (if_pos ?_)
  simpa [hp, State.isSupervisor] using h

theorem privHeld_all (h : privHeld s i) : ¬ (i.priv && !(s.wave.all fun f => s.isSupervisor f)) = true := by
  simpa [privHeld, State.isSupervisor] using h

/-- Then a fibre in CHECK mode that reads too close to a writer traps STALL_SHORT. -/
theorem gate_short {x : SbEntry} (hf : inFile s i) (hp : privHeld s i)
    (h : (s.wave.filter fun f => s.checks f).findSome? (shortWriter s i) = some x) :
    s.gate i = .trap { cause := cStallShort, detail := x.pc.toNat } := by
  refine (if_neg (inFile_all hf)).trans ((if_neg (privHeld_all hp)).trans ?_)
  unfold shortWriter at h
  simp only [h]

/-- Where some fibre in CHECK mode meets a writer that is too close, the first such writer is found. -/
theorem findSome?_shortWriter (h : ∃ f ∈ s.wave, meetsShort s i f = true) :
    ∃ x, (s.wave.filter fun f => s.checks f).findSome? (shortWriter s i) = some x := by
  obtain ⟨f, hf, hm⟩ := h
  obtain ⟨hc, hx⟩ := Bool.and_eq_true_iff.mp hm
  rw [← Option.isSome_iff_exists, List.findSome?_isSome_iff]
  refine ⟨f, List.mem_filter.mpr ⟨hf, hc⟩, ?_⟩
  rw [shortWriter, List.find?_isSome]
  simpa using hx

/-- A fibre without outstanding results of fixed latency meets none. -/
theorem meets_of_sb_nil {f : Fibre} (h : f.sb = []) (clock : Nat) (us : List RegUse) (ps : List Nat) : f.meets clock us ps = [] := by
  rw [Fibre.meets, h, List.filter_nil]

/-- With no result outstanding an instruction that passes checks 2 and 3 goes on. -/
theorem gate_go (hf : inFile s i) (hp : privHeld s i) (h : nothingPending s) : s.gate i = .go := by
  obtain ⟨hw, hg⟩ := h
  have hsb : ∀ f ∈ s.wave, f.meets s.clock i.uses (predsOf i) = [] := fun f hf => meets_of_sb_nil (hw f hf).1 _ _ _
  have hshort : (s.wave.filter fun f => s.checks f).findSome? (shortWriter s i) = none := by
    refine List.findSome?_eq_none_iff.mpr fun f hf => ?_
    rw [shortWriter, hsb f (List.mem_filter.mp hf).1, List.find?_nil]
  have hgroup : (s.group (s.wave.headD Fibre.blank).groupId).meets s.clock i.uses = [] := by rw [Group.meets, hg, List.filter_nil]
  have hload : (s.wave.any fun f => s.meetsLoad f i.uses) = false := by
    refine List.any_eq_false.mpr fun f hf => Bool.eq_false_iff.mp (List.any_eq_false.mpr fun x hx => ?_)
    simp [(hw f hf).2 x hx]
  have hdue : (s.wave.flatMap fun f => (f.meets s.clock i.uses (predsOf i)).map fun x => x.done) = [] := by
    refine List.flatMap_eq_nil_iff.mpr fun f hf => ?_
    rw [hsb f hf, List.map_nil]
  refine (if_neg (inFile_all hf)).trans ((if_neg (privHeld_all hp)).trans ?_)
  unfold shortWriter at hshort
  simp only [hshort, hgroup, hload, hdue]
  rfl

end

/-- Settles O7, check by check in their order. -/
theorem gateOrder : Obligations.GateOrder := by
  refine fun s i => ⟨gate_outside, gate_unprivileged, fun hf hp h => ?_, gate_go⟩
  obtain ⟨x, hx⟩ := findSome?_shortWriter h
  obtain ⟨f, hf', hm⟩ := List.exists_of_findSome?_eq_some hx
  exact ⟨x.pc.toNat, gate_short hf hp hx, f, (List.mem_filter.mp hf').1, x, List.mem_of_find?_eq_some hm,
    of_decide_eq_true (List.find?_some hm :), rfl⟩

section

variable {s : State} {len : Nat} {stay : List Nat} {u : Nat} {f : Fibre}

/-! ### Moving past an instruction (R152, R187) -/

/-- A fibre that has been served where it stood, as it moves on. -/
def Fibre.cleared (f : Fibre) : Fibre := { f with agreed := false, served := false, pageFail := none }

/-- Outside a REP the PC advances by the instruction. -/
theorem advancePc_plain (h : f.repLive = false) : f.advancePc len = { f.cleared with pc := f.pc + BitVec.ofNat 64 len } :=
  if_neg (Bool.eq_false_iff.mp h)

/-- Within a REP the next repeat comes. -/
theorem advancePc_repeat (h : f.repLive = true) (hn : 1 < f.repcnt) : f.advancePc len = { f.cleared with repcnt := f.repcnt - 1 } :=
  (if_pos h).trans (if_pos hn)

/-- Past the last repeat the PC advances by the REP and its instruction. -/
theorem advancePc_last (h : f.repLive = true) (hn : f.repcnt ≤ 1) : f.advancePc len =
    { f.cleared with repcnt := 0, repLive := false, pc := f.pc + BitVec.ofNat 64 (4 + f.repLen) } :=
  (if_pos h).trans (if_neg (Nat.not_lt.mpr hn))

/-- A fibre of the wave moves on, unless the effect has dealt with its PC. -/
theorem advanceCur_moves (h : s.waveFound) (hu : u ∈ s.cur) (hs : u ∉ stay) : (s.advanceCur len stay).fibre u = (s.fibre u).advancePc len := by
  rw [State.advanceCur, fibre_updAll (h u hu) fun f => advancePc_uid f len, if_pos (by simp [hu, hs])]

theorem advanceCur_stays (h : u ∉ s.cur ∨ u ∈ stay) : (s.advanceCur len stay).fibre u = s.fibre u := by
  refine fibre_updAll_other (fun hm => ?_) fun f => advancePc_uid f len
  obtain ⟨hu, hs⟩ := List.mem_filter.mp hm
  have hs' : u ∉ stay := by simpa using hs
  exact h.elim (· hu) hs'

end

/-- Settles O26, fibre by fibre. -/
theorem waveAdvance : Obligations.WaveAdvance := by
  refine fun s len stay h => ⟨rfl, fun u => advanceCur_stays, fun u hu hs => ?_⟩
  rw [advanceCur_moves h hu hs]
  exact ⟨advancePc_plain, advancePc_repeat, advancePc_last⟩

end Sys2Proof.Machine

/-! Proofs of the statements of encoding about words: what the encoder packs is what the decoder reads, and the other way round (R152 to R169). -/

namespace Sys2Proof

section

variable {w w1 w2 : Word} {lit : Option DWord}

/-! ### Packing what has been unpacked (R152, R155, R157 to R159) -/

/-- A flag is a field of one bit. -/
theorem ofBool_getLsbD (w : Word) (n : Nat) : BitVec.ofBool (w.getLsbD n) = w.extractLsb' n 1 := by
  ext i hi
  obtain rfl : i = 0 := by omega
  simp

theorem code_ofCode (c : BitVec 4) : (OpType.ofCode c).code = c := by
  revert c
  decide

theorem extractLsb'_len (w : Word) : w.extractLsb' 30 2 = BitVec.ofNat 2 (lenField w) := by
  rw [lenField, BitVec.ofNat_toNat, BitVec.setWidth_eq]

theorem extractLsb'_major (w : Word) : w.extractLsb' 24 6 = BitVec.ofNat 6 (majorField w) := by
  rw [majorField, BitVec.ofNat_toNat, BitVec.setWidth_eq]

theorem packBase_unpackBase (w : Word) :
    packBase (w.extractLsb' 30 2) (w.extractLsb' 24 6) (w.extractLsb' 14 3) (unpackBase w) = w := by
  simp (disch := decide) only [packBase, unpackBase, ofBool_getLsbD, BitVec.extractLsb'_append_extractLsb'_eq_extractLsb']
  exact BitVec.extractLsb'_eq_self

theorem packExt0_unpackExt (w w1 w2 : Word) (lit : Option DWord) :
    packExt0 (w.extractLsb' 30 2) (w.extractLsb' 24 6) (w.extractLsb' 10 6) (unpackExt w w1 w2 lit) = w := by
  simp (disch := decide) only [packExt0, unpackExt, ofBool_getLsbD, BitVec.extractLsb'_append_extractLsb'_eq_extractLsb']
  exact BitVec.extractLsb'_eq_self

theorem packExt1_unpackExt : packExt1 (unpackExt w w1 w2 lit) = w1 := by
  simp (disch := decide) only [packExt1, unpackExt, ofBool_getLsbD, BitVec.extractLsb'_append_extractLsb'_eq_extractLsb']
  exact BitVec.extractLsb'_eq_self

theorem packExt2_unpackExt : packExt2 (unpackExt w w1 w2 lit) = w2 := by
  simp (disch := decide) only [packExt2, unpackExt, code_ofCode, ofBool_getLsbD, BitVec.extractLsb'_append_extractLsb'_eq_extractLsb']
  exact BitVec.extractLsb'_eq_self

theorem packBranch_unpackBranch (h : majorField w = 1) :
    packBranch (w.extractLsb' 30 2) (w.getLsbD 16) (unpackBranch w) = w := by
  have hm : 1#6 = w.extractLsb' 24 6 := by rw [extractLsb'_major, h]
  simp (disch := decide) only [packBranch, unpackBranch, hm, ofBool_getLsbD, BitVec.extractLsb'_append_extractLsb'_eq_extractLsb']
  exact BitVec.extractLsb'_eq_self

/-- LEN and MAJOR of a word of major 0x00 under LEN 00. -/
theorem extractLsb'_zero (hm : majorField w = 0) (hl : lenField w = 0) : w.extractLsb' 24 8 = 0#8 := by
  rw [← BitVec.extractLsb'_append_extractLsb'_eq_extractLsb' (start₂ := 30) (len₂ := 2) (len₁ := 6) rfl, extractLsb'_len, extractLsb'_major, hm, hl]
  rfl

theorem packNop_extractLsb' (h : w.extractLsb' 24 8 = 0#8) (h0 : w.extractLsb' 0 21 = 0#21) : packNop (w.extractLsb' 21 3) = w := by
  rw [packNop, ← h, ← h0]
  simp (disch := decide) only [BitVec.extractLsb'_append_extractLsb'_eq_extractLsb']
  exact BitVec.extractLsb'_eq_self

theorem packRep_unpackRep (h : w.extractLsb' 24 8 = 0#8) (hs : w.extractLsb' 17 4 = 1#4) (h0 : w.extractLsb' 0 7 = 0#7) :
    packRep (unpackRep w) = w := by
  rw [packRep, ← h, ← hs, ← h0]
  simp (disch := decide) only [unpackRep, ofBool_getLsbD, BitVec.extractLsb'_append_extractLsb'_eq_extractLsb']
  exact BitVec.extractLsb'_eq_self

/-- A literal's words are packed as they were read. -/
theorem litWords_litOf (lo hi : Word) : litWords (litOf lo hi) = [lo, hi] := by
  rw [litWords, litOf, BitVec.extractLsb'_append_eq_of_add_le (by omega), BitVec.extractLsb'_append_eq_of_le (by omega)]
  simp

/-! ### Reading what has been packed: NOP and REP (R158) -/

theorem major_packNop (n : BitVec 3) : majorField (packNop n) = 0 := by
  unfold majorField packNop
  repeat rw [BitVec.extractLsb'_append_eq_of_le (by omega)]
  simp

theorem len_packNop (n : BitVec 3) : lenField (packNop n) = 0 := by
  unfold lenField packNop
  repeat rw [BitVec.extractLsb'_append_eq_of_le (by omega)]
  simp

theorem decodeZero_packNop (n : BitVec 3) : decodeZero (packNop n) = .ok (.nop n) := by
  have hsub : (packNop n).extractLsb' 17 4 = 0#4 := by
    rw [packNop, BitVec.extractLsb'_append_eq_of_add_le (by omega)]; simp
  have hrest : (packNop n).extractLsb' 0 17 = 0 := by
    rw [packNop, BitVec.extractLsb'_append_eq_of_add_le (by omega)]; simp
  have hstall : (packNop n).extractLsb' 21 3 = n := by
    rw [packNop, BitVec.extractLsb'_append_eq_of_le (by omega), BitVec.extractLsb'_append_eq_of_add_le (by omega)]; simp
  simp [decodeZero, len_packNop, hsub, hrest, hstall]

theorem major_packRep (r : RepWord) : majorField (packRep r) = 0 := by
  unfold majorField packRep
  repeat rw [BitVec.extractLsb'_append_eq_of_le (by omega)]
  simp

theorem len_packRep (r : RepWord) : lenField (packRep r) = 0 := by
  unfold lenField packRep
  repeat rw [BitVec.extractLsb'_append_eq_of_le (by omega)]
  simp

theorem unpack_packRep (r : RepWord) : unpackRep (packRep r) = r := by
  have hstall : (packRep r).extractLsb' 21 3 = r.stall := by
    unfold packRep
    repeat rw [BitVec.extractLsb'_append_eq_of_le (by omega)]
    rw [BitVec.extractLsb'_append_eq_of_add_le (by omega)]; simp
  have hcnt : (packRep r).extractLsb' 11 6 = r.cnt := by
    unfold packRep
    repeat rw [BitVec.extractLsb'_append_eq_of_le (by omega)]
    rw [BitVec.extractLsb'_append_eq_of_add_le (by omega)]; simp
  have hmd : (packRep r).getLsbD 10 = r.md := by
    simp only [packRep, BitVec.getLsbD_append]; simp
  have hma : (packRep r).getLsbD 9 = r.ma := by
    simp only [packRep, BitVec.getLsbD_append]; simp
  have hmb : (packRep r).getLsbD 8 = r.mb := by
    simp only [packRep, BitVec.getLsbD_append]; simp
  have hmc : (packRep r).getLsbD 7 = r.mc := by
    simp only [packRep, BitVec.getLsbD_append]; simp
  rw [unpackRep, hstall, hcnt, hmd, hma, hmb, hmc]

theorem decodeZero_packRep (r : RepWord) : decodeZero (packRep r) = .ok (.rep r) := by
  have hsub : (packRep r).extractLsb' 17 4 = 1#4 := by
    unfold packRep
    repeat rw [BitVec.extractLsb'_append_eq_of_le (by omega)]
    rw [BitVec.extractLsb'_append_eq_of_add_le (by omega)]; simp
  have hrest : (packRep r).extractLsb' 0 7 = 0 := by
    rw [packRep, BitVec.extractLsb'_append_eq_of_add_le (by omega)]; simp
  simp [decodeZero, len_packRep, hsub, hrest, unpack_packRep]

end

/-! ### The branches of the decoder (R152) -/

section

variable {w w1 w2 lo hi : Word} {rest : List Word}

theorem decode_zero (hm : majorField w = 0) : decode (w :: rest) = (decodeZero w).map (·, rest) := if_pos hm

theorem decode_len0 (hm : majorField w ≠ 0) (hl : lenField w = 0) : decode (w :: rest) = (decodeBase w none).map (·, rest) := by
  simp only [decode, hm, hl, if_false]

theorem decode_len1 (hm : majorField w ≠ 0) (hl : lenField w = 1) :
    decode (w :: w1 :: w2 :: rest) = (decodeExt w w1 w2 none).map (·, rest) := by
  simp only [decode, hm, hl, if_false]

theorem decode_len2 (hm : majorField w ≠ 0) (hl : lenField w = 2) :
    decode (w :: lo :: hi :: rest) = (decodeBase w (some (litOf lo hi))).map (·, rest) := by
  simp only [decode, hm, hl, if_false]

theorem decode_len3 (hm : majorField w ≠ 0) (hl : lenField w = 3) :
    decode (w :: w1 :: w2 :: lo :: hi :: rest) = (decodeExt w w1 w2 (some (litOf lo hi))).map (·, rest) := by
  simp only [decode, hm, hl, if_false]

end

/-- The decoder keeps an instruction just where it is well-formed. -/
theorem checked_eq_ok {o : Option Instr} {x : Instr} : checked o = .ok x ↔ o = some x ∧ x.wf = true := by
  cases o with
  | none => exact ⟨nofun, nofun⟩
  | some i =>
    have hi : checked (some i) = .ok x ↔ i = x ∧ i.check = none := by
      dsimp only [checked]
      cases hc : i.check <;> simp
    simp only [hi, Option.some.injEq, Instr.wf, Option.isNone_iff_eq_none]
    exact and_congr_right fun h => h ▸ Iff.rfl

/-- BRA or CALL as a branch word of layout B1 (R157). -/
def branchOf (link : Bool) (b : BaseBranch) : Instr := if link then .callBase b else .braBase b

/-- BRA or CALL in a longer form. -/
def longBranchOf (link : Bool) (x : BranchForm) : Instr := if link then .callExt x else .braExt x

section

variable {ma mi : BitVec 6} {mi3 : BitVec 3} {x : Instr} {e : Ext} {b : Base} {br : BaseBranch} {link : Bool} {lit : DWord} {rest : List Word}

/-! ### Decoding an encoded instruction, by layouts -/

theorem decode_packNop (n : BitVec 3) : decode (packNop n :: rest) = .ok (.nop n, rest) := by
  rw [decode_zero (major_packNop n), decodeZero_packNop]
  rfl

theorem decode_packRep (r : RepWord) : decode (packRep r :: rest) = .ok (.rep r, rest) := by
  rw [decode_zero (major_packRep r), decodeZero_packRep]
  rfl

/-- An extended form decodes to what the opcode map has for it (R159, R167). -/
theorem decode_encodeExt (ho : ofExt ma.toNat mi.toNat e = some x) (hw : x.wf = true) : decode (encodeExt ma mi e ++ rest) = .ok (x, rest) := by
  have hm : ma.toNat ≠ 0 := by
    intro h
    rw [h] at ho
    cases ho
  unfold encodeExt
  cases hl : e.lit with
  | none =>
    refine (decode_len1 (by rwa [major_packExt0]) (by rw [len_packExt0]; rfl)).trans ?_
    have he : { e with lit := none } = e := by rw [← hl]
    rw [decodeExt, major_packExt0, minor_packExt0, unpack_packExt, he, checked_eq_ok.mpr ⟨ho, hw⟩]
    rfl
  | some l =>
    refine (decode_len3 (by rwa [major_packExt0]) (by rw [len_packExt0]; rfl)).trans ?_
    have he : { e with lit := some l } = e := by rw [← hl]
    rw [decodeExt, major_packExt0, minor_packExt0, unpack_packExt, litOf_litWords, he, checked_eq_ok.mpr ⟨ho, hw⟩]
    rfl

/-- No base word of layout B0 has major 0x00 or 0x01 (R155, R157). -/
theorem major_of_hasBase {major minor : Nat} (h : hasBase major minor = true) : major ≠ 0 ∧ major ≠ 1 := by
  constructor <;> (rintro rfl; cases h)

theorem decodeBase_word {w : Word} (hb : hasBase (majorField w) (w.extractLsb' 14 3).toNat = true) :
    decodeBase w none = checked (ofBase (majorField w) (w.extractLsb' 14 3).toNat (unpackBase w)) := by
  obtain ⟨-, h1⟩ := major_of_hasBase hb
  simp only [decodeBase, h1, hb, if_false, Bool.not_true, Bool.false_eq_true]

theorem decodeBase_literal {w : Word} (hb : hasBase (majorField w) (w.extractLsb' 14 3).toNat = true)
    (hs : baseSources (majorField w) (w.extractLsb' 14 3).toNat ≠ 0) :
    decodeBase w (some lit) = checked (ofBaseLit (majorField w) (w.extractLsb' 14 3).toNat (unpackBase w) lit) := by
  obtain ⟨-, h1⟩ := major_of_hasBase hb
  simp only [decodeBase, h1, hb, hs, if_false, Bool.not_true, Bool.false_eq_true]

/-- A base word decodes to what the opcode map has for it (R155, R167). -/
theorem decode_packBase (hb : hasBase ma.toNat mi3.toNat = true) (ho : ofBase ma.toNat mi3.toNat b = some x) (hw : x.wf = true) :
    decode (packBase 0 ma mi3 b :: rest) = .ok (x, rest) := by
  obtain ⟨h0, -⟩ := major_of_hasBase hb
  rw [decode_len0 (by rwa [major_packBase]) (by rw [len_packBase]; rfl),
    decodeBase_word (by rwa [major_packBase, minor_packBase]), major_packBase, minor_packBase, unpack_packBase, checked_eq_ok.mpr ⟨ho, hw⟩]
  rfl

/-- A base word with a literal decodes to what the opcode map has for it (R156, R167). -/
theorem decode_packBase_litWords (hb : hasBase ma.toNat mi3.toNat = true) (hs : baseSources ma.toNat mi3.toNat ≠ 0)
    (ho : ofBaseLit ma.toNat mi3.toNat b lit = some x) (hw : x.wf = true) :
    decode (packBase 2 ma mi3 b :: litWords lit ++ rest) = .ok (x, rest) := by
  obtain ⟨h0, -⟩ := major_of_hasBase hb
  refine (decode_len2 (by rwa [major_packBase]) (by rw [len_packBase]; rfl)).trans ?_
  rw [litOf_litWords, decodeBase_literal (by rwa [major_packBase, minor_packBase]) (by rwa [major_packBase, minor_packBase]),
    major_packBase, minor_packBase, unpack_packBase, checked_eq_ok.mpr ⟨ho, hw⟩]
  rfl

/-- A longer form, given by a constructor `c`, decodes in both of its layouts. -/
theorem decode_encodeX {c : XForm → Instr} {x : XForm} (he : ∀ e, ofExt ma.toNat mi.toNat e = some (c (.ext e)))
    (hb : hasBase ma.toNat (mi.setWidth 3).toNat = true) (hs : baseSources ma.toNat (mi.setWidth 3).toNat ≠ 0)
    (hl : ∀ b lit, ofBaseLit ma.toNat (mi.setWidth 3).toNat b lit = some (c (.baseLit b lit))) (hw : (c x).wf = true) :
    decode (encodeX ma mi x ++ rest) = .ok (c x, rest) := by
  cases x with
  | ext e => exact decode_encodeExt (he e) hw
  | baseLit b lit => exact decode_packBase_litWords hb hs (hl b lit) hw

theorem decodeBase_branch {w : Word} (hm : majorField w = 1) : decodeBase w none = .ok (branchOf (w.getLsbD 16) (unpackBranch w)) := by
  simp only [decodeBase, hm, if_true]
  cases w.getLsbD 16 <;> rfl

theorem decodeBase_branchLiteral {w : Word} (hm : majorField w = 1) :
    decodeBase w (some lit) = checked (some (longBranchOf (w.getLsbD 16) (.baseLit (unpackBranch w) lit))) := by
  simp only [decodeBase, hm, if_true]
  cases w.getLsbD 16 <;> rfl

/-- A branch word decodes to BRA or CALL by its bit L. -/
theorem decode_packBranch : decode (packBranch 0 link br :: rest) = .ok (branchOf link br, rest) := by
  have hm : majorField (packBranch 0 link br) = 1 := major_packBranch 0 br link
  rw [decode_len0 (by omega) (by rw [len_packBranch]; rfl), decodeBase_branch hm, link_packBranch, unpack_packBranch]
  rfl

/-- A longer form of BRA or CALL decodes in both of its layouts. -/
theorem decode_encodeBranch {x : BranchForm} (hw : (longBranchOf link x).wf = true) :
    decode (encodeBranch link x ++ rest) = .ok (longBranchOf link x, rest) := by
  cases x with
  | ext e =>
    refine decode_encodeExt ?_ hw
    cases link <;> rfl
  | baseLit b lit =>
    have hm : majorField (packBranch 2 link b) = 1 := major_packBranch 2 b link
    refine (decode_len2 (by omega) (by rw [len_packBranch]; rfl)).trans ?_
    rw [litOf_litWords, decodeBase_branchLiteral hm, link_packBranch, unpack_packBranch, checked_eq_ok.mpr ⟨rfl, hw⟩]
    rfl

/-- Where one of an instruction's checks is on a field of its own, a well-formed instruction has passed it. -/
theorem of_wf_ite {p : Prop} [Decidable p] {o : Option Reject} {r : Reject} (h : (if p then o else some r).isNone = true) : p := by
  refine Decidable.byContradiction fun hp => ?_
  rw [if_neg hp] at h
  cases h

end

/-- Decoding an encoded instruction gives it back: constructor by constructor, by the layouts of its words. The constructors that share MAJOR and
MINOR are told apart by the mode that their check asks for; an event has no words. -/
theorem decode_encode {x : Instr} {rest : List Word} (hx : x.issue?.isSome = true) (hw : x.wf = true) :
    decode (encode x ++ rest) = .ok (x, rest) := by
  cases x with
  | nop n => exact decode_packNop n
  | rep r => exact decode_packRep r
  | braBase b => exact decode_packBranch (link := false)
  | callBase b => exact decode_packBranch (link := true)
  | braExt x => exact decode_encodeBranch (link := false) hw
  | callExt x => exact decode_encodeBranch (link := true) hw
  | fendBase b | yieldBase b | iaddBase b | isubBase b | iminBase b | imaxBase b | iabsBase b | inegBase b | movBase b | imulBase b | imulhBase b
  | andBase b | orBase b | xorBase b | notBase b | shlBase b | shrBase b | sarBase b | rolBase b | clzBase b | ctzBase b | ffsBase b | popcBase b
  | brevBase b | saddBase b | ssubBase b | smulBase b | sminBase b | smaxBase b | smovBase b | sandBase b | sorBase b | sxorBase b | sshlBase b
  | sshrBase b | ssarBase b | faddBase b | fsubBase b | fmulBase b | fminBase b | fmaxBase b | hadd2Base b | hmul2Base b | hmin2Base b | hmax2Base b
  | rcpBase b | rsqBase b | sqrtBase b | ex2Base b | lg2Base b | sinBase b | cosBase b | tanhBase b => exact decode_packBase (by decide) rfl hw
  | iaddExt x | isubExt x | iminExt x | imaxExt x | iabsExt x | inegExt x | movExt x | imulExt x | imulhExt x | andExt x | orExt x | xorExt x
  | notExt x | shlExt x | shrExt x | sarExt x | rolExt x | clzExt x | ctzExt x | ffsExt x | popcExt x | brevExt x | saddExt x | ssubExt x | smulExt x
  | sminExt x | smaxExt x | smovExt x | sandExt x | sorExt x | sxorExt x | sshlExt x | sshrExt x | ssarExt x | faddExt x | fsubExt x | fmulExt x
  | fminExt x | fmaxExt x | hadd2Ext x | hmul2Ext x | hmin2Ext x | hmax2Ext x | rcpExt x | rsqExt x | sqrtExt x | ex2Ext x | lg2Ext x | sinExt x
  | cosExt x | tanhExt x =>
    exact decode_encodeX (fun _ => rfl) (by decide) (by decide) (fun _ _ => rfl) hw
  | eretRetry e | eretSkip e | eretEnd e | preqSave e | preqResume e | preqStat e | migrReq e | migrStat e | tlbinv e | tlbinvAll e | futWaitDone e
  | futWaitFree e | trace e | traceAh e =>
    have hmode := of_wf_ite hw
    exact decode_encodeExt (by simp [ofExt, ofExt06, ofExt2C, ofExt30, ofExt37, hmode]) hw
  | brx e | callx e | ret e | fendExt e | yieldExt e | yieldp e | sleep e | wake e | spawn e | repack e | gnew e | gjoin e | gleave e | gfree e
  | gbar e | garrive e | gwait e | cvset e | cvsign e | cvwait e | qpush e | qpop e | qpeek e | qclose e | launch e | lwait e | getsr e | setsr e
  | trap e | syscall e | bkpt e | halt e | tfence e | movi e | iadd3 e | lea e | sel e | isetp e | imad e | imadw e | dp4 e | blut e | fshl e | bfe e
  | bfi e | prmt e | smad e | smovi e | ssetp e | ssel e | slea e | sld e | sst e | shfl e | vote e | ballot e | matchLanes e | rdlane e | wrlane e
  | reduce e | scan e | ffma e | fsetp e | fclass e | frnd e | fscale e | hfma2 e | fdot2 e | fcvt e | f2i e | i2f e | fpack e | ld e | ldp e | st e
  | mst e | rst e | pagereq e | prefetch e | atomAdd e | atomMin e | atomMax e | atomAnd e | atomOr e | atomXor e | atomExch e | cas e | redAdd e
  | redMin e | redMax e | redAnd e | redOr e | redXor e | fence e | cpfence e | cpy e | cpyt e | lease e | lrel e | txbinit e | txbexp e | txbarr e
  | txbwait e | cinv e | cwb e | mma e | mmas e | tmma e | mzero e | mslot e | mstat e | futSplit e | futEnter e | futCommit e | futSquash e
  | futStat e | flip e | ickpt e | rayget e | hitacc e | hitrej e | hitend e | beam e | tex e | texg e | texq e | atlreq e | atlmap e | bldBuild e
  | bldRefit e | bldRebal e | bldPub e | bldPin e | bldUnpin e | bldGen e | bldQual e | sigrd e | sigchk e =>
    exact decode_encodeExt rfl hw
  | _ => cases hx

/-- Settles O10, instruction by instruction. -/
theorem decodeEncode : Obligations.DecodeEncode := fun _ _ => decode_encode

/-! ### What the opcode map leads to (R167) -/

/-- The words of an instruction, which is well-formed and no event. -/
def hasWords (x : Instr) (ws : List Word) : Prop := ws = encode x ∧ x.wf = true ∧ x.issue?.isSome = true

section

variable {major minor : Nat} {e : Ext} {b : Base} {lit : DWord} {x : Instr}

/-- Row by row of the opcode map: an extended form is encoded under the MAJOR and MINOR it was found by. -/
theorem ofExt_encode (h : ofExt major minor e = some x) :
    encodeExt (BitVec.ofNat 6 major) (BitVec.ofNat 6 minor) e = encode x ∧ x.issue?.isSome = true := by
  simp only [ofExt, ofExt01, ofExt02, ofExt03, ofExt04, ofExt05, ofExt06, ofExt08, ofExt09, ofExt0A, ofExt0B, ofExt0C, ofExt10, ofExt11, ofExt12,
    ofExt14, ofExt15, ofExt18, ofExt19, ofExt1E, ofExt1F, ofExt20, ofExt21, ofExt22, ofExt23, ofExt24, ofExt25, ofExt26, ofExt27, ofExt28, ofExt29,
    ofExt2C, ofExt2D, ofExt30, ofExt31, ofExt32, ofExt34, ofExt36, ofExt37] at h
  repeat' split at h
  all_goals cases h <;> exact ⟨rfl, rfl⟩

/-- Row by row of the minors with a base word. -/
theorem ofBase_encode (h : ofBase major minor b = some x) :
    [packBase 0 (BitVec.ofNat 6 major) (BitVec.ofNat 3 minor) b] = encode x ∧ x.issue?.isSome = true := by
  simp only [ofBase, ofBase02, ofBase08, ofBase09, ofBase0A, ofBase0B, ofBase0C, ofBase10, ofBase11, ofBase18, ofBase19, ofBase1E] at h
  repeat' split at h
  all_goals cases h <;> exact ⟨rfl, rfl⟩

theorem ofBaseLit_encode (h : ofBaseLit major minor b lit = some x) :
    packBase 2 (BitVec.ofNat 6 major) (BitVec.ofNat 3 minor) b :: litWords lit = encode x ∧ x.issue?.isSome = true := by
  simp only [ofBaseLit, ofBaseLit08, ofBaseLit09, ofBaseLit0A, ofBaseLit0B, ofBaseLit0C, ofBaseLit10, ofBaseLit11, ofBaseLit18, ofBaseLit19,
    ofBaseLit1E] at h
  repeat' split at h
  all_goals cases h <;> exact ⟨rfl, rfl⟩

end

section

variable {w w1 w2 lo hi : Word} {lit : Option DWord} {ws rest : List Word} {x : Instr}

/-! ### The words of what is decoded, by layouts -/

/-- NOP and REP, whose SUB, reserved bits and LEN are all checked (R158). -/
theorem decodeZero_words (hm : majorField w = 0) (h : decodeZero w = .ok x) : hasWords x [w] := by
  unfold decodeZero at h
  split at h
  · cases h
  next hl =>
    have h8 := extractLsb'_zero hm (Decidable.not_not.mp hl)
    have hsub (n : Nat) : (w.extractLsb' 17 4).toNat = n → w.extractLsb' 17 4 = BitVec.ofNat 4 n := by
      rintro rfl
      rw [BitVec.ofNat_toNat, BitVec.setWidth_eq]
    split at h
    next hs =>
      split at h
      next h0 =>
        cases h
        refine ⟨congrArg (· :: []) (packNop_extractLsb' h8 ?_).symm, rfl, rfl⟩
        rw [← BitVec.extractLsb'_append_extractLsb'_eq_extractLsb' (start₂ := 17) (len₂ := 4) (len₁ := 17) rfl, hsub 0 hs, h0]
        rfl
      · cases h
    next hs =>
      split at h
      next h0 =>
        cases h
        exact ⟨congrArg (· :: []) (packRep_unpackRep h8 (hsub 1 hs) h0).symm, rfl, rfl⟩
      · cases h
    · cases h

/-- A base word that decodes outside layout B1 is one of a minor that has a base word. -/
theorem hasBase_of_decodeBase (hm : majorField w ≠ 1) (h : decodeBase w lit = .ok x) :
    hasBase (majorField w) (w.extractLsb' 14 3).toNat = true := by
  refine Decidable.byContradiction fun hb => ?_
  simp only [decodeBase, hm, Bool.eq_false_iff.mpr hb, if_false, Bool.not_false, if_true] at h
  cases h

/-- With a literal, moreover, it has a source that the literal stands for (R156). -/
theorem baseSources_of_decodeBase {l : DWord} (hm : majorField w ≠ 1) (h : decodeBase w (some l) = .ok x) :
    baseSources (majorField w) (w.extractLsb' 14 3).toNat ≠ 0 := by
  intro hs
  simp only [decodeBase, hm, hasBase_of_decodeBase hm h, hs, if_false, if_true] at h
  cases h

/-- The fields of a base word, packed again. -/
theorem packBase_fields {n : Nat} (hl : lenField w = n) :
    packBase (BitVec.ofNat 2 n) (BitVec.ofNat 6 (majorField w)) (BitVec.ofNat 3 (w.extractLsb' 14 3).toNat) (unpackBase w) = w := by
  rw [← hl, ← extractLsb'_len, ← extractLsb'_major, BitVec.ofNat_toNat, BitVec.setWidth_eq, packBase_unpackBase]

/-- The fields of a branch word, packed again. -/
theorem packBranch_fields {n : Nat} (hm : majorField w = 1) (hl : lenField w = n) :
    packBranch (BitVec.ofNat 2 n) (w.getLsbD 16) (unpackBranch w) = w := by
  rw [← hl, ← extractLsb'_len, packBranch_unpackBranch hm]

/-- The fields of the first word of an extended form, packed again. -/
theorem packExt0_fields {n : Nat} (hl : lenField w = n) :
    packExt0 (BitVec.ofNat 2 n) (BitVec.ofNat 6 (majorField w)) (BitVec.ofNat 6 (w.extractLsb' 10 6).toNat) (unpackExt w w1 w2 lit) = w := by
  rw [← hl, ← extractLsb'_len, ← extractLsb'_major, BitVec.ofNat_toNat, BitVec.setWidth_eq, packExt0_unpackExt]

theorem encodeExt_of_none {ma mi : BitVec 6} {e : Ext} (h : e.lit = none) :
    encodeExt ma mi e = [packExt0 (BitVec.ofNat 2 1) ma mi e, packExt1 e, packExt2 e] := by
  rw [encodeExt, h]
  rfl

theorem encodeExt_of_some {ma mi : BitVec 6} {e : Ext} {l : DWord} (h : e.lit = some l) :
    encodeExt ma mi e = [packExt0 (BitVec.ofNat 2 3) ma mi e, packExt1 e, packExt2 e] ++ litWords l := by
  rw [encodeExt, h]
  rfl

theorem encode_branchOf (link : Bool) (b : BaseBranch) : encode (branchOf link b) = [packBranch 0 link b] := by cases link <;> rfl
theorem wf_branchOf (link : Bool) (b : BaseBranch) : (branchOf link b).wf = true := by cases link <;> rfl
theorem issue_branchOf (link : Bool) (b : BaseBranch) : (branchOf link b).issue?.isSome = true := by cases link <;> rfl
theorem encode_longBranchOf (link : Bool) (x : BranchForm) : encode (longBranchOf link x) = encodeBranch link x := by cases link <;> rfl
theorem issue_longBranchOf (link : Bool) (x : BranchForm) : (longBranchOf link x).issue?.isSome = true := by
  cases link <;> cases x <;> rfl

/-- A base word (R155, R157). -/
theorem decodeBase_words (hl : lenField w = 0) (h : decodeBase w none = .ok x) : hasWords x [w] := by
  by_cases hm : majorField w = 1
  · rw [decodeBase_branch hm] at h
    cases h
    exact ⟨(congrArg (· :: []) (packBranch_fields hm hl).symm).trans (encode_branchOf _ _).symm, wf_branchOf _ _, issue_branchOf _ _⟩
  · rw [decodeBase_word (hasBase_of_decodeBase hm h)] at h
    obtain ⟨ho, hw⟩ := checked_eq_ok.mp h
    obtain ⟨he, hissue⟩ := ofBase_encode ho
    exact ⟨(congrArg (· :: []) (packBase_fields hl).symm).trans he, hw, hissue⟩

/-- A base word with its literal (R156, R157). -/
theorem decodeBase_literal_words (hl : lenField w = 2) (h : decodeBase w (some (litOf lo hi)) = .ok x) : hasWords x [w, lo, hi] := by
  by_cases hm : majorField w = 1
  · rw [decodeBase_branchLiteral hm] at h
    obtain ⟨ho, hw⟩ := checked_eq_ok.mp h
    cases ho
    refine ⟨?_, hw, issue_longBranchOf _ _⟩
    rw [encode_longBranchOf, encodeBranch, litWords_litOf]
    exact congrArg (· :: [lo, hi]) (packBranch_fields hm hl).symm
  · rw [decodeBase_literal (hasBase_of_decodeBase hm h) (baseSources_of_decodeBase hm h)] at h
    obtain ⟨ho, hw⟩ := checked_eq_ok.mp h
    obtain ⟨he, hissue⟩ := ofBaseLit_encode ho
    rw [litWords_litOf] at he
    exact ⟨(congrArg (· :: [lo, hi]) (packBase_fields hl).symm).trans he, hw, hissue⟩

/-- An extended form (R159). -/
theorem decodeExt_words (hl : lenField w = 1) (h : decodeExt w w1 w2 none = .ok x) : hasWords x [w, w1, w2] := by
  obtain ⟨ho, hw⟩ := checked_eq_ok.mp h
  obtain ⟨he, hissue⟩ := ofExt_encode ho
  refine ⟨.trans ?_ he, hw, hissue⟩
  rw [encodeExt_of_none rfl, packExt0_fields (n := 1) hl, packExt1_unpackExt, packExt2_unpackExt]

/-- An extended form with its literal (R159, R166). -/
theorem decodeExt_literal_words (hl : lenField w = 3) (h : decodeExt w w1 w2 (some (litOf lo hi)) = .ok x) : hasWords x [w, w1, w2, lo, hi] := by
  obtain ⟨ho, hw⟩ := checked_eq_ok.mp h
  obtain ⟨he, hissue⟩ := ofExt_encode ho
  refine ⟨.trans ?_ he, hw, hissue⟩
  rw [encodeExt_of_some rfl, packExt0_fields (n := 3) hl, packExt1_unpackExt, packExt2_unpackExt, litWords_litOf]
  rfl

/-- An answer with the words that follow is the answer. -/
theorem map_eq_ok {r : Except Reject Instr} (h : r.map (·, ws) = .ok (x, rest)) : r = .ok x ∧ ws = rest := by
  cases r with
  | error e => cases h
  | ok y => cases h; exact ⟨rfl, rfl⟩

/-- Whatever is decoded stands at the head of the words, and is encoded as it stood there. -/
theorem decode_words (h : decode ws = .ok (x, rest)) : ∃ us, ws = us ++ rest ∧ hasWords x us := by
  unfold decode at h
  split at h
  · cases h
  next w r0 =>
    split at h
    next hm =>
      obtain ⟨hx, rfl⟩ := map_eq_ok h
      exact ⟨[w], rfl, decodeZero_words hm hx⟩
    next hm =>
      split at h
      next hl =>
        obtain ⟨hx, rfl⟩ := map_eq_ok h
        exact ⟨[w], rfl, decodeBase_words hl hx⟩
      next lo hi r hl =>
        obtain ⟨hx, rfl⟩ := map_eq_ok h
        exact ⟨[w, lo, hi], rfl, decodeBase_literal_words hl hx⟩
      next w1 w2 r hl =>
        obtain ⟨hx, rfl⟩ := map_eq_ok h
        exact ⟨[w, w1, w2], rfl, decodeExt_words hl hx⟩
      next w1 w2 lo hi r hl =>
        obtain ⟨hx, rfl⟩ := map_eq_ok h
        exact ⟨[w, w1, w2, lo, hi], rfl, decodeExt_literal_words hl hx⟩
      · cases h

end

/-- Settles O11: the words that are read are those of the instruction, by the layout that LEN and MAJOR select. -/
theorem encodeDecode : Obligations.EncodeDecode := by
  intro ws x rest h
  obtain ⟨us, rfl, rfl, hw, hissue⟩ := decode_words h
  exact ⟨rfl, hw, hissue⟩

/-- Settles O9: each of the instructions is well-formed and encodes to the words it is given for, so these decode to it. -/
theorem decodeWorkedWords : Obligations.DecodeWorkedWords := by
  have hwords : ∀ y ∈ workedWords, encode y.2 = y.1 ∧ y.2.wf = true ∧ y.2.issue?.isSome = true := by decide +kernel
  intro y hy
  obtain ⟨he, hw, hissue⟩ := hwords y hy
  refine ⟨?_, he⟩
  rw [← he, ← List.append_nil (encode y.2)]
  exact decodeEncode y.2 [] hissue hw

end Sys2Proof

/-! Proofs of the statements of flow: the taking of a trap (R202, R437, R441, R445), the instructions of majors 0x00 to 0x06 (R182 to R206), and
the return from a trap (R203, R448). -/

namespace Sys2Proof.Machine

section

variable {s t u : State} {p : Nat} {r : Rec}

/-! ### What the write of a record to a log changes (R437) -/

/-- `t` follows `s` by writes of the hardware to memory on behalf of a partition's log, and by what the partition keeps of its log: besides
memory, the caches over it, the partitions and the errors to come nothing changes. -/
def LogWrites (s t : State) : Prop :=
  t = { s with mem := t.mem, l1 := t.l1, registry := t.registry, hostLines := t.hostLines, hostHeld := t.hostHeld, poisoned := t.poisoned
               parts := t.parts, errors := t.errors }

theorem LogWrites.refl (s : State) : LogWrites s s := rfl

theorem LogWrites.trans (h : LogWrites s t) (k : LogWrites t u) : LogWrites s u := by
  unfold LogWrites at *
  rw [k, h]

theorem LogWrites.foldl {α : Type} {g : State → α → State} (l : List α) (h : ∀ t x, LogWrites t (g t x)) (s : State) :
    LogWrites s (l.foldl g s) := by
  induction l generalizing s with
  | nil => exact .refl s
  | cons x l ih => exact (h s x).trans (ih _)

theorem logWrites_updPart {g : Partition → Partition} : LogWrites s (s.updPart p g) := rfl

theorem logWrites_flushWord (w : L1Word) : LogWrites s (s.flushWord w) := by
  rw [(flushWord_frame s w).1]
  rfl

theorem logWrites_writeBack (q : L1Word → Bool) : LogWrites s (s.writeBack q) := by
  refine LogWrites.trans (LogWrites.foldl s.l1 (fun t w => ?_) s) rfl
  split
  · exact logWrites_flushWord w
  · exact .refl t

theorem logWrites_recallBlock (tag k grain : Nat) : LogWrites s (s.recallBlock tag k grain) := by
  rw [State.recallBlock]
  split
  · exact .refl s
  · exact LogWrites.trans (logWrites_writeBack _) rfl

theorem logWrites_touchLine (tag k : Nat) : LogWrites s (s.touchLine tag k) := by
  rw [touchLine_frame]
  rfl

theorem logWrites_setBytes (k : Nat) (d : List Byte) : LogWrites s (s.setBytes k d) := by
  rw [setBytes_frame]
  rfl

/-- A write to the home copy of a place that is not VERSIONED. -/
theorem logWrites_homeWrite {part f : Nat} {l : Loc} {d : List Byte} (hv : l.vers = false) : LogWrites s (s.homeWrite part f l d) := by
  simp only [State.homeWrite, State.homeWriteAs, hv, Bool.false_eq_true, if_false, createVersion_home, markWritten_home]
  exact (logWrites_recallBlock ..).trans ((logWrites_touchLine ..).trans ((logWrites_setBytes ..).trans rfl))

theorem logWrites_devWrite (pa : Nat) (d : List Byte) : LogWrites s (s.devWrite pa d) :=
  LogWrites.foldl _ (fun _ _ => logWrites_homeWrite rfl) s

theorem logWrites_logPut (seq x : Nat) : LogWrites s (s.logPut p seq x) := by
  rw [State.logPut]
  split
  · exact .refl s
  · exact logWrites_devWrite ..

theorem logWrites_partLog : LogWrites s (s.partLog p r) := by
  rw [State.partLog]
  split
  · exact .refl s
  · exact (LogWrites.foldl _ (fun _ _ => logWrites_logPut ..) s).trans (logWrites_updPart.trans (logWrites_devWrite ..))

/-- The state in which the write of a record to a partition's log has been skipped: the error is over, and HEAD has advanced all the same. -/
def State.logSkipped (s : State) (p : Nat) (g : Bool) (r : Rec) : State :=
  let h := (s.partn p).logHead + (r.all s.clock 0).length
  (({ s with errors := s.errors.filter fun x => x.1 != MemError.logWrite p g } : State).updPart p fun q => { q with logHead := h }).devWrite
    (s.partn p).logBase (leBytes 8 h)

/-- The record that names the log's address, where a write to it failed. -/
def State.logFailure (s : State) (p : Nat) (g : Bool) : Rec :=
  let q := s.partn p
  let a := q.logBase + 64 * (1 + q.logHead % 2 ^ q.logSize?.getD 0)
  { cause := if g then 0x0105 else 0x0101, addr := a, detail := if g then gddrController a else 2 * 2 ^ 8, part := some p
    pcore := vacSlice (devKey a) }

theorem logWrites_logSkipped {g : Bool} : LogWrites s (s.logSkipped p g r) :=
  LogWrites.trans (t := ({ s with errors := s.errors.filter fun x => x.1 != MemError.logWrite p g } : State).updPart p
    fun q => { q with logHead := (s.partn p).logHead + (r.all s.clock 0).length }) rfl (logWrites_devWrite ..)

/-- A record goes into the partition log and into the device log. -/
theorem logBoth_sound (h : s.logError p = none) : s.logBoth p r = (s.partLog p r).devLog r := by
  rw [State.logBoth, h]

/-- Where the write to the partition log fails, a second record follows. -/
theorem logBoth_failed {g : Bool} (h : s.logError p = some g) :
    s.logBoth p r = (((s.logSkipped p g r).devLog r).partLog p (s.logFailure p g)).devLog (s.logFailure p g) := by
  simp only [State.logBoth, h, State.logSkipped, State.logFailure]

/-! ### The device log (R437) -/

/-- The entry of the device log that a record makes. -/
def State.dlogEntry (s : State) (r : Rec) : Nat × BitVec 512 := (s.dlogHead, BitVec.ofNat 512 (r.bits s.clock s.dlogHead))

/-- A record without continuations becomes one entry of the ring of 4,096. -/
theorem devLog_eq (hr : r.cont = []) :
    s.devLog r = { s with dlog := (s.dlog ++ [s.dlogEntry r]).filter (fun (k, _) => s.dlogHead + 1 ≤ k + 4096), dlogHead := s.dlogHead + 1 } := by
  have hall : ∀ clock seq, r.all clock seq = [r.bits clock seq] := fun _ _ => by rw [Rec.all, hr]; rfl
  rw [State.devLog, hall]
  rfl

theorem devLog_head (hr : r.cont = []) : (s.devLog r).dlogHead = s.dlogHead + 1 := by
  rw [devLog_eq hr]

/-- An entry stays in the ring until 4,096 newer ones are there. -/
theorem devLog_mem_of_recent {x : Nat × BitVec 512} (hr : r.cont = []) (hx : x ∈ s.dlog ∨ x = s.dlogEntry r)
    (hrecent : s.dlogHead + 1 ≤ x.1 + 4096) : x ∈ (s.devLog r).dlog := by
  rw [devLog_eq hr]
  exact List.mem_filter.mpr ⟨by simpa using hx, decide_eq_true hrecent⟩

/-- The newest record stands in the device log. -/
theorem devLog_mem (hr : r.cont = []) : s.dlogEntry r ∈ (s.devLog r).dlog :=
  devLog_mem_of_recent hr (.inr rfl) (by rw [State.dlogEntry]; omega)

/-- What has been recorded of a trap: `t` follows `s` by one record more in the device log, or by two. -/
structure Records (s t : State) (r : Rec) (n : Nat) : Prop where
  fibres : t.fibres = s.fibres
  groups : t.groups = s.groups
  pipes : t.pipes = s.pipes
  head : t.dlogHead = s.dlogHead + n
  entry : s.dlogEntry r ∈ t.dlog

/-- What the writes to a partition's log leave alone. -/
theorem LogWrites.keeps (h : LogWrites s t) : t.fibres = s.fibres ∧ t.groups = s.groups ∧ t.pipes = s.pipes ∧ t.clock = s.clock ∧
    t.dlogHead = s.dlogHead ∧ t.dlog = s.dlog := by
  rw [show t = _ from h]
  exact ⟨rfl, rfl, rfl, rfl, rfl, rfl⟩

/-- The record goes into the device log once the partition's log is written. -/
theorem LogWrites.records_devLog (h : LogWrites s t) (hr : r.cont = []) : Records s (t.devLog r) r 1 := by
  obtain ⟨hfibres, hgroups, hpipes, hclock, hhead, -⟩ := h.keeps
  have hentry : t.dlogEntry r = s.dlogEntry r := by rw [State.dlogEntry, State.dlogEntry, hclock, hhead]
  exact ⟨hfibres, hgroups, hpipes, hhead ▸ devLog_head hr, hentry ▸ devLog_mem hr⟩

/-- A further record leaves the one recorded in the ring. -/
theorem Records.devLog {r2 : Rec} {n : Nat} (h : Records s t r n) (hn : n < 4096) (k : LogWrites t u) (hr : r2.cont = []) :
    Records s (u.devLog r2) r (n + 1) := by
  obtain ⟨hfibres, hgroups, hpipes, -, hhead, hlog⟩ := k.keeps
  have hhead' : u.dlogHead = s.dlogHead + n := hhead.trans h.head
  refine ⟨hfibres.trans h.fibres, hgroups.trans h.groups, hpipes.trans h.pipes, ?_, devLog_mem_of_recent hr (.inl (hlog ▸ h.entry)) ?_⟩
  · rw [devLog_head hr, hhead', Nat.add_assoc]
  · rw [hhead', State.dlogEntry]
    omega

/-- A record that is not merged (R440) stands in the device log; the log's HEAD advances by two where the partition log's write fails. -/
theorem report_records (hclass : causeClass r.cause ≠ 0) (hpart : r.part = some p) (hcont : r.cont = []) :
    Records s (s.report r) r (if (s.logError p).isSome then 2 else 1) := by
  rw [State.report, if_pos hclass, State.log, hpart]
  dsimp only
  cases he : s.logError p with
  | none =>
    rw [logBoth_sound he]
    exact logWrites_partLog.records_devLog hcont
  | some g =>
    rw [logBoth_failed he]
    exact (logWrites_logSkipped.records_devLog hcont).devLog (by decide) logWrites_partLog rfl

/-! ### Delivery (R441) -/

/-- A sleeping fibre of a partition's supervisor pipeline. -/
def State.sleeper (s : State) (p : Nat) (f : Fibre) : Bool := f.part == p && f.st == .sleeping && (s.pipeOf f).supervisor

theorem wakeSupervisor_eq (s : State) (p : Nat) : s.wakeSupervisor p =
    if s.fibres.any (s.sleeper p) then { s with fibres := mapIf (s.sleeper p) Fibre.continues s.fibres }
    else s.updPart p fun q => { q with errorWake := true } := rfl

/-- The delivery of a record raises an event to the host or holds the wake, or it wakes the supervisor's sleepers. -/
theorem deliver_cases (s : State) (p pipe seq : Nat) (uid : Option Nat) :
    (∃ ps as, s.deliver p pipe seq uid = { s with parts := ps, agenda := as }) ∨
    s.deliver p pipe seq uid = { s with fibres := mapIf (s.sleeper p) Fibre.continues s.fibres } := by
  have hwake : (∃ ps as, s.wakeSupervisor p = { s with parts := ps, agenda := as }) ∨
      s.wakeSupervisor p = { s with fibres := mapIf (s.sleeper p) Fibre.continues s.fibres } := by
    rw [wakeSupervisor_eq]
    split
    · exact .inr rfl
    · exact .inl ⟨_, _, rfl⟩
  unfold State.deliver
  split
  · split
    · exact .inl ⟨_, _, rfl⟩
    · exact hwake
  · split
    · exact .inl ⟨_, _, rfl⟩
    · exact hwake

/-- Delivery leaves the groups, the pipelines and the device log as they are. -/
theorem deliver_keeps (s : State) (p pipe seq : Nat) (uid : Option Nat) :
    let t := s.deliver p pipe seq uid
    t.groups = s.groups ∧ t.pipes = s.pipes ∧ t.dlogHead = s.dlogHead ∧ t.dlog = s.dlog := by
  rcases deliver_cases s p pipe seq uid with ⟨ps, as, h⟩ | h <;> rw [h] <;> exact ⟨rfl, rfl, rfl, rfl⟩

/-- Delivery leaves every fibre's registers as they are. -/
theorem deliver_sameRegs (s : State) (p pipe seq : Nat) (uid : Option Nat) (u : Nat) : ((s.deliver p pipe seq uid).fibre u).sameRegs (s.fibre u) := by
  rcases deliver_cases s p pipe seq uid with ⟨ps, as, h⟩ | h
  · rw [h]
    exact sameRegs_refl _
  · rw [h]
    exact find_mapIf_same continues_uid (fun f => (continues_same f).1) u s.fibres

/-- Delivery leaves a fibre that does not sleep as it is. -/
theorem deliver_fibre_awake {s : State} {p pipe seq u : Nat} {uid : Option Nat} (hu : ∃ f ∈ s.fibres, f.uid = u)
    (hawake : (s.fibre u).st ≠ .sleeping) : (s.deliver p pipe seq uid).fibre u = s.fibre u := by
  rcases deliver_cases s p pipe seq uid with ⟨ps, as, h⟩ | h
  · rw [h]
    rfl
  · rw [h, fibre_mapIf hu fun f _ => continues_uid f, if_neg]
    simp [State.sleeper, hawake]

/-! ### The hold of a trap (R202, R445) -/

@[simp] theorem holdAt_uid (f : Fibre) (cause : Nat) (answer len : Option Nat) (dbg : Bool) : (f.holdAt cause answer len dbg).uid = f.uid := rfl

/-- A held fibre waits: it does not sleep. -/
theorem holdAt_st_ne_sleeping {f : Fibre} {cause : Nat} {answer len : Option Nat} {dbg : Bool} :
    (f.holdAt cause answer len dbg).st ≠ .sleeping := by
  show (if f.boundRay.isSome then FState.parkedHit else .waitMemory) ≠ .sleeping
  split <;> exact nofun

variable {lead v : Nat} {held : List Nat} {x : Trap} {answer len : Option Nat}

/-- The state in which a trap stands in the logs, its fibres are held, and its record awaits an answer. -/
def State.heldFor (s : State) (lead : Nat) (held : List Nat) (x : Trap) (answer len : Option Nat) : State :=
  ((s.report (s.trapRec (s.fibre lead) x)).updAll held fun f => f.holdAt x.cause answer len false).await (s.fibre lead) held
    (s.partn (s.fibre lead).part).logHead x.cause none

/-- A trap is delivered once its fibres are held. -/
theorem trap_eq : s.trap lead held x answer len =
    (s.heldFor lead held x answer len).deliver (s.fibre lead).part (s.fibre lead).pipe (s.partn (s.fibre lead).part).logHead (some lead) := rfl

/-- Holding the fibres changes nothing of the groups, the pipelines and the device log. -/
theorem heldFor_keeps : (s.heldFor lead held x answer len).groups = (s.report (s.trapRec (s.fibre lead) x)).groups ∧
    (s.heldFor lead held x answer len).pipes = (s.report (s.trapRec (s.fibre lead) x)).pipes ∧
    (s.heldFor lead held x answer len).dlogHead = (s.report (s.trapRec (s.fibre lead) x)).dlogHead ∧
    (s.heldFor lead held x answer len).dlog = (s.report (s.trapRec (s.fibre lead) x)).dlog := by
  unfold State.heldFor
  generalize s.report (s.trapRec (s.fibre lead) x) = t
  exact ⟨rfl, rfl, rfl, rfl⟩

section

variable (hclass : causeClass x.cause ≠ 0)

include hclass

/-- The record of a precise trap. -/
theorem trapRec_records : Records s (s.report (s.trapRec (s.fibre lead) x)) (s.trapRec (s.fibre lead) x)
    (if (s.logError (s.fibre lead).part).isSome then 2 else 1) :=
  report_records hclass rfl rfl

theorem heldFor_has (hv : ∃ f ∈ s.fibres, f.uid = v) : ∃ f ∈ (s.heldFor lead held x answer len).fibres, f.uid = v := by
  rw [← (trapRec_records hclass (lead := lead)).fibres] at hv
  exact has_mapIf (p := fun f => held.contains f.uid) (g := fun f => f.holdAt x.cause answer len false) hv fun _ _ => holdAt_uid ..

/-- Each fibre named is held. -/
theorem heldFor_fibre_mem (hv : ∃ f ∈ s.fibres, f.uid = v) (hm : v ∈ held) :
    (s.heldFor lead held x answer len).fibre v = (s.fibre v).holdAt x.cause answer len false := by
  have hsame : (s.report (s.trapRec (s.fibre lead) x)).fibre v = s.fibre v := fibre_congr (trapRec_records hclass).fibres v
  rw [← (trapRec_records hclass (lead := lead)).fibres] at hv
  have := fibre_updAll (us := held) (g := fun f => f.holdAt x.cause answer len false) hv fun _ => holdAt_uid ..
  rw [if_pos (List.contains_iff_mem.mpr hm), hsame] at this
  exact this

/-- The other fibres are as they were. -/
theorem heldFor_fibre_not_mem (hm : v ∉ held) : (s.heldFor lead held x answer len).fibre v = s.fibre v :=
  (fibre_updAll_other (g := fun f => f.holdAt x.cause answer len false) hm fun _ => holdAt_uid ..).trans
    (fibre_congr (trapRec_records hclass).fibres v)

/-- The fibre of a trap, once it has been delivered: held, since delivery wakes only sleepers. -/
theorem trap_fibre_mem (hv : ∃ f ∈ s.fibres, f.uid = v) (hm : v ∈ held) :
    (s.trap lead held x answer len).fibre v = (s.fibre v).holdAt x.cause answer len false := by
  have hheld := heldFor_fibre_mem hclass (lead := lead) (answer := answer) (len := len) hv hm
  rw [trap_eq, deliver_fibre_awake (heldFor_has hclass hv) (hheld ▸ holdAt_st_ne_sleeping), hheld]

/-- Another fibre keeps its registers, though the trap's delivery may end its SLEEP. -/
theorem trap_fibre_not_mem (hm : v ∉ held) : ((s.trap lead held x answer len).fibre v).sameRegs (s.fibre v) := by
  rw [trap_eq]
  have hsame := deliver_sameRegs (s.heldFor lead held x answer len) (s.fibre lead).part (s.fibre lead).pipe
    (s.partn (s.fibre lead).part).logHead (some lead) v
  rw [heldFor_fibre_not_mem hclass hm] at hsame
  exact hsame

end

/-- What a trap's record leaves: one or two entries of the device log, among them its own, with groups and pipelines as they were. -/
theorem trap_records (hclass : causeClass x.cause ≠ 0) :
    (s.trap lead held x answer len).groups = s.groups ∧ (s.trap lead held x answer len).pipes = s.pipes ∧
    (s.trap lead held x answer len).dlogHead = s.dlogHead + (if (s.logError (s.fibre lead).part).isSome then 2 else 1) ∧
    s.dlogEntry (s.trapRec (s.fibre lead) x) ∈ (s.trap lead held x answer len).dlog := by
  obtain ⟨hgroups, hpipes, hhead, hlog⟩ := deliver_keeps (s.heldFor lead held x answer len) (s.fibre lead).part (s.fibre lead).pipe
    (s.partn (s.fibre lead).part).logHead (some lead)
  obtain ⟨kgroups, kpipes, khead, klog⟩ := heldFor_keeps (s := s) (lead := lead) (held := held) (x := x) (answer := answer) (len := len)
  have hrec := trapRec_records (s := s) (lead := lead) hclass
  rw [trap_eq, hgroups, hpipes, hhead, hlog, kgroups, kpipes, khead, klog]
  exact ⟨hrec.groups, hrec.pipes, hrec.head, hrec.entry⟩

end

/-- Settles O14: the record stands in the logs, the fibres are held, and the delivery leaves both as they are. -/
theorem takeTrap : Obligations.TakeTrap := by
  intro s lead held x answer len hclass
  obtain ⟨hgroups, hpipes, hhead, hentry⟩ := trap_records (s := s) (lead := lead) (held := held) (answer := answer) (len := len) hclass
  refine ⟨hgroups, hpipes, hhead, hentry, ?held, ?other⟩
  case held =>
    intro v hm hv
    rw [trap_fibre_mem hclass hv hm]
    exact ⟨rfl, rfl, rfl, rfl, rfl, rfl, rfl, rfl, rfl⟩
  case other =>
    intro v hm
    obtain ⟨hvregs, hpreds, hflags, -⟩ := trap_fibre_not_mem (lead := lead) (answer := answer) (len := len) hclass hm
    exact ⟨hvregs, hpreds, hflags⟩

/-! ### Rows of instructions -/

/-- An instruction completes where its body, under the row's conditions, succeeds with the row's effect. -/
theorem completes_of_body {r : OpRow} {body : Body} (hexec : ∀ s, exec r.instr s = s.issue r.issue body)
    (hbody : ∀ s us, r.pre s us → body s us = .ok (r.post s us)) : r.completes := by
  intro s h hpre
  rw [hexec, issue_ok h (hbody _ _ hpre)]

/-- An instruction whose body is the row's effect completes without a condition. -/
theorem completes_of_plain {r : OpRow} (hexec : ∀ s, exec r.instr s = s.issue r.issue fun s us => .ok (r.post s us)) : r.completes :=
  completes_of_body hexec fun _ _ _ => rfl

section

variable {s : State} {us : List Nat} {b : Body} {e : Ext}

/-- An effect fibre after fibre once every earlier store has been acknowledged (R80, R184). -/
theorem afterAcks_inLaneOrder_ok {scope : Nat} {g : State → Nat → Except Stop (State × Bool)} {g' : State → Nat → State × Bool}
    (hacked : acked scope s us) (hg : ∀ s u, g s u = .ok (g' s u)) :
    afterAcks scope (inLaneOrder g) s us = .ok (inOrder g' (released s us) [] us) := by
  rw [afterAcks_ok hacked]
  exact inLaneOrder_ok hg _ us

/-- The target of an extended branch is its literal, or else lies at the signed offset from the PC (R166). -/
theorem branchTarget_eq (e : Ext) : branchTarget e = fun f => e.lit.getD (f.pc + 4 * e.imm.signExtend 64) := by
  funext f
  rw [branchTarget]
  cases e.lit <;> rfl

/-- Every active fibre's entry point is a multiple of 4 (R191). -/
theorem find_misaligned_eq_none (h : ∀ u ∈ us, (s.srcA (s.fibre u) e true).val.toNat % 4 = 0) :
    (us.find? fun u => (s.srcA (s.fibre u) e true).val.toNat % 4 != 0) = none :=
  List.find?_eq_none.mpr fun u hu => by simp [h u hu]

/-- A queue number below NQUE names a queue of the pipeline (R183). -/
theorem badQueue_ok {q : Nat} (h : ∀ u ∈ us, q < (s.pipeOf (s.fibre u)).queues.length) :
    illegalIf (fun s f => s.badQueue f q) b s us = b s us :=
  illegalIf_ok fun u hu => decide_eq_false (Nat.not_le.mpr (h u hu))

end

/-- Settles O25, row by row. A literal target whose bits 1:0 are not zero stands in the PC as it is, which is the model's choice
(notes/assumptions/81.md). -/
theorem flowResults : Obligations.FlowResults := by
  intro n b lit e
  simp only [flowRows, List.forall_mem_cons]
  refine ⟨?nop, ?braBase, ?bra, ?braLit, ?callBase, ?call, ?callLit, ?brx, ?callx, ?ret, fun _ h => nomatch h⟩
  case nop => exact completes_of_plain fun _ => rfl
  case braBase => exact completes_of_plain fun _ => rfl
  case bra => exact completes_of_body (fun _ => rfl) fun _ _ _ => branchTarget_eq e ▸ rfl
  case braLit => exact completes_of_plain fun _ => rfl
  case callBase => exact completes_of_plain fun _ => rfl
  case call => exact completes_of_body (fun _ => rfl) fun _ _ _ => branchTarget_eq e ▸ rfl
  case callLit => exact completes_of_plain fun _ => rfl
  case brx => exact completes_of_body (fun _ => rfl) fun _ _ h => branchReg_ok h
  case callx => exact completes_of_body (fun _ => rfl) fun _ _ h => branchReg_ok h
  case ret => exact completes_of_body (fun _ => rfl) fun _ _ h => branchReg_ok h

/-- Settles O27, row by row: past the conditions each body is the row's effect. -/
theorem fibreInstructions : Obligations.FibreInstructions := by
  intro b e
  simp only [fibreRows, List.forall_mem_cons]
  refine ⟨?fendBase, ?fend, ?yieldBase, ?yield, ?sleep, ?wake, ?spawn, ?repack, fun _ h => nomatch h⟩
  case fendBase => exact completes_of_plain fun _ => rfl
  case fend => exact completes_of_plain fun _ => rfl
  case yieldBase => exact completes_of_plain fun _ => rfl
  case yield => exact completes_of_plain fun _ => rfl
  case sleep => exact completes_of_body (fun _ => rfl) fun s us _ => inLaneOrder_ok (fun _ _ => rfl) s us
  case wake =>
    refine completes_of_body (fun _ => rfl) fun s us ⟨hpoison, hacked⟩ => ?_
    rw [notPoisoned_ok hpoison]
    exact afterAcks_inLaneOrder_ok hacked fun _ _ => rfl
  case spawn =>
    refine completes_of_body (fun _ => rfl) fun s us ⟨hpoison, haligned, hacked⟩ => ?_
    simp only [notPoisoned_ok hpoison, find_misaligned_eq_none haligned]
    exact afterAcks_inLaneOrder_ok hacked fun _ _ => rfl
  case repack => exact completes_of_body (fun _ => rfl) fun s us hpoison => notPoisoned_ok hpoison

/-- Settles O28, row by row: past the conditions each body is the row's effect. -/
theorem groupInstructions : Obligations.GroupInstructions := by
  intro e
  simp only [groupRows, List.forall_mem_cons]
  refine ⟨?gnew, ?gjoin, ?gleave, ?gfree, ?gbar, ?garrive, ?gwait, ?cvset, ?cvsign, ?cvwait, fun _ h => nomatch h⟩
  case gnew =>
    refine completes_of_body (fun _ => rfl) fun s us _ => ?_
    dsimp only [oncePerWave]
    generalize s.fibre (us.headD 0) = f
    cases s.newGroup (s.pipeOf f) (f.lcore / 4) (e.mod.getLsbD 0) (s.group f.groupId).copyRight f.uid <;> rfl
  case gjoin =>
    refine completes_of_body (fun _ => rfl) fun s us hpoison => ?_
    rw [notPoisoned_ok hpoison]
    exact inLaneOrder_ok (fun _ _ => rfl) s us
  case gleave =>
    refine completes_of_body (fun _ => rfl) fun s us haway => ?_
    rw [illegalIf_ok fun u hu => beq_false_of_ne (haway u hu)]
    exact inLaneOrder_ok (fun _ _ => rfl) s us
  case gfree =>
    refine completes_of_body (fun _ => rfl) fun s us hpoison => ?_
    rw [notPoisoned_ok hpoison]
    dsimp only [oncePerWave]
    generalize s.fibre (us.headD 0) = f
    cases s.namedGroup f (s.srcA f e true).val with
    | none => rfl
    | some g =>
      dsimp only
      split <;> rfl
  case gbar => exact completes_of_body (fun _ => rfl) fun _ _ hacked => afterAcks_inLaneOrder_ok hacked fun _ _ => rfl
  case garrive => exact completes_of_body (fun _ => rfl) fun _ _ hacked => afterAcks_inLaneOrder_ok hacked fun _ _ => rfl
  case gwait =>
    refine completes_of_body (fun _ => rfl) fun s us _ => inLaneOrder_ok (fun s u => ?_) s us
    simp only [List.contains_iff_mem]
    split <;> rfl
  case cvset => exact completes_of_body (fun _ => rfl) fun s us ⟨hpos, hmax⟩ => if_neg (by omega)
  case cvsign =>
    refine completes_of_body (fun _ => rfl) fun s us ⟨hset, hacked⟩ => ?_
    rw [illegalIf_ok hset]
    refine afterAcks_inLaneOrder_ok hacked fun s u => ?_
    simp only [List.contains_iff_mem]
    split <;> rfl
  case cvwait => exact completes_of_body (fun _ => rfl) fun _ _ hset => illegalIf_ok hset

/-- Settles O29, row by row. How QCLOSE waits for the port's window, the order of LAUNCH's status and its status 5, and that the queue's number is
checked among the instruction's own checks, are the model's choices (notes/assumptions/32.md, 33.md, 80.md). -/
theorem queueInstructions : Obligations.QueueInstructions := by
  intro e
  simp only [queueRows, List.forall_mem_cons]
  refine ⟨?qpush, ?qpop, ?qpeek, ?qclose, ?launch, ?lwait, fun _ h => nomatch h⟩
  case qpush =>
    refine completes_of_body (fun _ => rfl) fun s us ⟨hqueue, hpoison, hopen, hcommit⟩ => ?_
    rw [badQueue_ok hqueue, notPoisoned_ok hpoison, notClosed_ok hopen, notCommitting_ok hcommit]
    refine inLaneOrder_ok (fun s u => ?_) s us
    dsimp only
    split <;> rfl
  case qpop =>
    refine completes_of_body (fun _ => rfl) fun s us hqueue => ?_
    rw [badQueue_ok hqueue]
    exact inLaneOrder_ok (fun _ _ => rfl) s us
  case qpeek =>
    refine completes_of_body (fun _ => rfl) fun s us hqueue => ?_
    rw [badQueue_ok hqueue]
    exact eachFibre_plain s us
  case qclose =>
    refine completes_of_body (fun _ => rfl) fun s us hqueue => ?_
    rw [badQueue_ok hqueue]
    dsimp only [oncePerWave]
    split
    · rfl
    · split <;> rfl
  case launch =>
    refine completes_of_body (fun _ => rfl) fun s us ⟨hpoison, haligned, hacked, d, p, w, hread⟩ => ?_
    rw [notPoisoned_ok hpoison]
    dsimp only
    rw [if_neg (not_not_intro haligned), afterAcks_ok hacked]
    show launchBody e (released s us) ((released s us).fibre (us.headD 0)) us = _
    simp only [launchBody, hread, launched]
    split <;> rfl
  case lwait =>
    refine completes_of_body (fun _ => rfl) fun s us h => ?_
    dsimp only [lwaitBody] at h ⊢
    generalize s.fibre (us.headD 0) = f at h ⊢
    split
    next => rfl
    next hsound =>
      rcases h with ⟨hnone, hpoison⟩ | hended
      · exact absurd (by rw [hnone, hpoison]; rfl) hsound
      · split
        next hp => rw [hp]; rfl
        next p hp =>
          rw [hp]
          cases hpe : p.ended with
          | none => exact absurd hpe (hended p hp)
          | some x => simp only [Option.map_some, hpe, Option.getD_some]

/-! ### Special registers, traps and the supervisor's instructions (R201 to R205, R417 to R419) -/

section

variable {s : State} {us : List Nat} {e : Ext}

/-- ERET in one of its modes (R203). -/
theorem eretRow_completes {instr : Instr} {mode : Nat} (hexec : ∀ s, exec instr s = eret mode e s) : (eretRow instr mode e).completes := by
  refine completes_of_body hexec fun s us hpoison => ?_
  rw [notPoisoned_ok hpoison]
  dsimp only [oncePerWave, eretRow]
  split <;> rfl

/-- PREQ in one of its modes, where `act` does not stop (R418). -/
theorem preqRow_completes {instr : Instr} {pre : State → Fibre → Prop} {act : State → Fibre → Nat → Nat → Except Stop (Nat × State)}
    {act' : State → Fibre → Nat → Nat → Nat × State} (hexec : ∀ s, exec instr s = preq act e s)
    (hact : ∀ s f h, pre s f → act s f h (s.srcB f e true .b64).val.toNat = .ok (act' s f h (s.srcB f e true .b64).val.toNat)) :
    (preqRow instr e pre act').completes := by
  refine completes_of_body hexec fun s us hpre => ?_
  simp only [oncePerWave, hact _ _ _ hpre]
  rfl

/-- MIGR in one of its modes (R419). -/
theorem migrRow_completes {instr : Instr} {act : State → Nat → Nat → Nat → Nat × State} (hexec : ∀ s, exec instr s = migr act e s) :
    (migrRow instr e act).completes :=
  completes_of_body hexec fun _ _ _ => rfl

/-- No enabled flag is set (R148). -/
theorem find_enabledFlag_eq_none (h : ∀ u ∈ us, (s.fibre u).flags &&& (s.fibre u).ftz.extractLsb' 32 5 = 0) :
    (us.find? fun u => (s.fibre u).flags &&& (s.fibre u).ftz.extractLsb' 32 5 != 0) = none :=
  List.find?_eq_none.mpr fun u hu => by simp [h u hu]

/-- What SETSR does where its operands are sound (R144, R147, R201). -/
def setsrBody (e : Ext) : Body :=
  match modLow e 4 with
  | 12 => eachFibre fun s f => .ok { f with flags := (setsrValue e s f).extractLsb' 0 5 }
  | 13 => eachFibre fun s f => .ok { f with ftz := setsrValue e s f &&& ftzMask }
  | _ => illegalIf (fun s f => setsrValue e s f != 0) fun s us =>
    .ok (if modLow e 4 = 14 then (s.preqResume (s.fibre (us.headD 0)).part 0).2 else s, [])

theorem exec_setsr (s : State) : exec (.setsr e) s =
    s.issue { issueOf 6 1 e e.len with priv := modLow e 4 == 14 } (notPoisoned ((usesOf 6 1 e).filter fun u => u.rd) (setsrBody e)) := rfl

theorem setsrBody_flags (h : modLow e 4 = 12) : setsrBody e = eachFibre fun s f => .ok { f with flags := (setsrValue e s f).extractLsb' 0 5 } := by
  simp only [setsrBody, h]

theorem setsrBody_ftz (h : modLow e 4 = 13) : setsrBody e = eachFibre fun s f => .ok { f with ftz := setsrValue e s f &&& ftzMask } := by
  simp only [setsrBody, h]

theorem setsrBody_zero (h12 : modLow e 4 ≠ 12) (h13 : modLow e 4 ≠ 13) : setsrBody e = illegalIf (fun s f => setsrValue e s f != 0) fun s us =>
    .ok (if modLow e 4 = 14 then (s.preqResume (s.fibre (us.headD 0)).part 0).2 else s, []) := by
  unfold setsrBody
  generalize modLow e 4 = n at h12 h13 ⊢
  split
  · exact absurd rfl h12
  · exact absurd rfl h13
  · rfl

end

/-- Settles O30, row by row. The core number that MIGR.STAT answers for a source that is not mapped is a free value (notes/assumptions/18.md). -/
theorem systemInstructions : Obligations.SystemInstructions := by
  intro e
  simp only [systemRows, List.forall_mem_cons]
  refine ⟨?getsr, ?setsr, ?trap, ?syscall, ?retry, ?skip, ?end_, ?bkpt, ?halt, ?tfence, ?preqSave, ?preqResume, ?preqStat, ?migrReq, ?migrStat,
    fun _ h => nomatch h⟩
  case getsr =>
    refine completes_of_body (fun _ => rfl) fun s us _ => ?_
    dsimp only
    split
    · rfl
    · exact eachFibre_plain s us
  case setsr =>
    refine completes_of_body exec_setsr fun s us ⟨hpoison, hzero⟩ => ?_
    rw [notPoisoned_ok hpoison]
    dsimp only
    by_cases h12 : modLow e 4 = 12
    · rw [setsrBody_flags h12, if_pos h12]
      exact eachFibre_plain s us
    · rw [if_neg h12]
      by_cases h13 : modLow e 4 = 13
      · rw [setsrBody_ftz h13, if_pos h13]
        exact eachFibre_plain s us
      · rw [setsrBody_zero h12 h13, if_neg h13, illegalIf_ok fun u hu => bne_eq_false_iff_eq.mpr (hzero h12 h13 u hu)]
  case trap => exact completes_of_plain fun _ => rfl
  case syscall => exact completes_of_plain fun _ => rfl
  case retry => exact eretRow_completes fun _ => rfl
  case skip => exact eretRow_completes fun _ => rfl
  case end_ => exact eretRow_completes fun _ => rfl
  case bkpt =>
    refine completes_of_body (fun _ => rfl) fun s us _ => ?_
    dsimp only
    split <;> rfl
  case halt => exact completes_of_body (fun _ => rfl) fun _ _ hacked => afterAcks_ok hacked
  case tfence =>
    refine completes_of_body (fun _ => rfl) fun s us hunset => ?_
    simp only [find_enabledFlag_eq_none hunset]
  case preqSave =>
    refine preqRow_completes (fun s => (rfl : _ = execPreqSave e s)) fun s f h hdl => ?_
    exact if_neg (Nat.not_lt.mpr hdl)
  case preqResume => exact preqRow_completes (fun s => (rfl : _ = execPreqResume e s)) fun _ _ _ _ => rfl
  case preqStat => exact preqRow_completes (fun s => (rfl : _ = execPreqStat e s)) fun _ _ _ _ => rfl
  case migrReq => exact migrRow_completes fun _ => rfl
  case migrStat => exact migrRow_completes fun _ => rfl

/-! ### Returning from a trap (R203, R448) -/

section

variable {f : Fibre} {h : Hold} {v : Word}

/-- A fibre that is not held is left alone. -/
theorem resume_not_held {mode : Nat} (hf : f.hold = none) : f.resume mode v = f := by
  simp only [Fibre.resume, hf]

/-- RETRY goes back to the instruction that held the fibre. -/
theorem resume_retry (hf : f.hold = some h) : f.resume 0 v = { f with st := .runnable, wait := .none, hold := none } := by
  simp only [Fibre.resume, hf]

/-- A held fibre past the `l` bytes of the instruction that held it. -/
def Fibre.skipped (f : Fibre) (l : Nat) : Fibre :=
  { f with st := .runnable, wait := .none, hold := none, pc := f.pc + BitVec.ofNat 64 l, repcnt := 0 }

/-- SKIP goes past the instruction. -/
theorem resume_skip {l : Nat} (hf : f.hold = some h) (hl : h.len = some l) (ha : h.answer = none) : f.resume 1 v = f.skipped l := by
  simp only [Fibre.resume, hf, hl, ha, Fibre.skipped]

/-- SKIP of a SYSCALL writes the answer, too. -/
theorem resume_skip_answer {l r : Nat} (hf : f.hold = some h) (hl : h.len = some l) (ha : h.answer = some r) :
    f.resume 1 v = (f.skipped l).setV r ⟨v, false⟩ := by
  simp only [Fibre.resume, hf, hl, ha, Fibre.skipped]

end

/-- Settles O31, mode by mode. -/
theorem eretReturns : Obligations.EretReturns :=
  fun _ _ _ _ _ => ⟨resume_not_held, resume_retry, resume_skip, fun hf hl _ ha => resume_skip_answer hf hl ha⟩

end Sys2Proof.Machine

/-! Proof of the statement of integers about what the bit operations compute, bit by bit (R151, R212). -/

namespace Sys2Proof.Machine

section

/-! ### Numbers by their bits (R212) -/

variable {w n x i : Nat}

theorem ofBits_lt (g : Nat → Bool) (n : Nat) : ofBits g n < 2 ^ n := by
  induction n with
  | zero => exact Nat.one_pos
  | succ n ih =>
    rw [ofBits, Nat.pow_succ]
    split <;> omega

theorem ofBits_succ (g : Nat → Bool) (n : Nat) : ofBits g (n + 1) = 2 ^ n * (g n).toNat + ofBits g n := by
  rw [ofBits]
  cases g n <;> simp [Nat.add_comm]

/-- A number built from its bits has them below its width, and no others. -/
theorem testBit_ofBits (g : Nat → Bool) (n i : Nat) : (ofBits g n).testBit i = (decide (i < n) && g i) := by
  induction n with
  | zero => exact Nat.zero_testBit i
  | succ n ih =>
    rw [ofBits_succ, Nat.testBit_two_pow_mul_add _ (ofBits_lt g n), Nat.testBit_bool_toNat]
    rcases Nat.lt_trichotomy i n with hlt | rfl | hgt
    · simp [ih, hlt, Nat.lt_succ_of_lt hlt]
    · simp
    · rw [if_neg (by omega), decide_eq_false (by omega : ¬ i - n = 0), decide_eq_false (by omega : ¬ i < n + 1), Bool.false_and, Bool.false_and]

theorem testBit_brev (hi : i < w) : (brev w x).testBit i = x.testBit (w - 1 - i) := by
  rw [brev, testBit_ofBits, decide_eq_true hi, Bool.true_and]

theorem testBit_blut {lut a b c : Nat} (hi : i < w) :
    (blut w lut a b c).testBit i = lut.testBit ((a.testBit i).toNat + 2 * (b.testBit i).toNat + 4 * (c.testBit i).toNat) := by
  rw [blut, testBit_ofBits, decide_eq_true hi, Bool.true_and]

/-! ### Shifts and rotations (R212) -/

theorem testBit_mod_of_lt (hi : i < w) : (x % 2 ^ w).testBit i = x.testBit i := by
  rw [Nat.testBit_mod_two_pow, decide_eq_true hi, Bool.true_and]

theorem testBit_shlBits (hi : i < w) : (shlBits w n x).testBit i = (decide (n ≤ i) && x.testBit (i - n)) := by
  rw [shlBits]
  split
  next hn => rw [Nat.zero_testBit, decide_eq_false (by omega), Bool.false_and]
  next => rw [testBit_mod_of_lt hi, Nat.testBit_mul_two_pow]

theorem testBit_shrBits : (shrBits w n x).testBit i = (decide (i + n < w) && x.testBit (i + n)) := by
  rw [shrBits]
  split
  next hn => rw [Nat.zero_testBit, decide_eq_false (by omega), Bool.false_and]
  next => rw [Nat.testBit_div_two_pow, Nat.testBit_mod_two_pow]

/-- The bits that SAR fills: the k highest of w. -/
theorem highOnes_eq {k : Nat} (hk : k ≤ w) : 2 ^ w - 2 ^ (w - k) = 2 ^ (w - k) * (2 ^ k - 1) := by
  rw [Nat.mul_sub_one, ← Nat.pow_add, Nat.sub_add_cancel hk]

/-- Bit w−1 of a number, as SAR tests it. -/
theorem signBit_iff (hw : 0 < w) : x % 2 ^ w / 2 ^ (w - 1) = 1 ↔ x.testBit (w - 1) = true := by
  have hlt : x % 2 ^ w / 2 ^ (w - 1) < 2 := by
    rw [Nat.div_lt_iff_lt_mul (Nat.two_pow_pos _), Nat.mul_comm, ← Nat.pow_succ, Nat.succ_eq_add_one, Nat.sub_add_cancel hw]
    exact Nat.mod_lt _ (Nat.two_pow_pos w)
  rw [← testBit_mod_of_lt (Nat.sub_lt hw Nat.one_pos), Nat.testBit_eq_decide_div_mod_eq, Nat.mod_eq_of_lt hlt, decide_eq_true_iff]

/-- SAR is the number's high bits, below as many copies of bit w−1 as it moves by. -/
theorem sarBits_eq (hw : 0 < w) :
    sarBits w n x = 2 ^ (w - min n w) * (if x.testBit (w - 1) then 2 ^ min n w - 1 else 0) + x % 2 ^ w / 2 ^ min n w := by
  simp only [sarBits, signBit_iff hw, highOnes_eq (Nat.min_le_right n w)]
  split <;> omega

theorem mod_div_two_pow_lt {k : Nat} (hk : k ≤ w) : x % 2 ^ w / 2 ^ k < 2 ^ (w - k) := by
  rw [Nat.div_lt_iff_lt_mul (Nat.two_pow_pos k), ← Nat.pow_add, Nat.sub_add_cancel hk]
  exact Nat.mod_lt _ (Nat.two_pow_pos w)

theorem testBit_sarBits (hi : i < w) : (sarBits w n x).testBit i = if i + n < w then x.testBit (i + n) else x.testBit (w - 1) := by
  rw [sarBits_eq (by omega), Nat.testBit_two_pow_mul_add _ (mod_div_two_pow_lt (Nat.min_le_right n w))]
  split
  next hlow =>
    have hn : i + n < w := by omega
    rw [if_pos hn, Nat.testBit_div_two_pow, Nat.min_eq_left (by omega), testBit_mod_of_lt hn]
  next hhigh =>
    have hn : ¬ i + n < w := by omega
    rw [if_neg hn]
    cases x.testBit (w - 1)
    · simp
    · rw [if_pos rfl, Nat.testBit_two_pow_sub_one, decide_eq_true (by omega)]

theorem testBit_rolBits (hw : 0 < w) (hi : i < w) : (rolBits w n x).testBit i = x.testBit ((i + (w - n % w)) % w) := by
  have hm : n % w < w := Nat.mod_lt n hw
  have hlow : x % 2 ^ w / 2 ^ (w - n % w) < 2 ^ (n % w) := by
    have h := mod_div_two_pow_lt (x := x) (Nat.sub_le w (n % w))
    rwa [Nat.sub_sub_self (Nat.le_of_lt hm)] at h
  rw [rolBits, testBit_mod_of_lt hi, Nat.mul_comm, Nat.testBit_two_pow_mul_add _ hlow]
  split
  next hin =>
    have hsum : i + (w - n % w) < w := by omega
    rw [Nat.testBit_div_two_pow, testBit_mod_of_lt hsum, Nat.mod_eq_of_lt hsum]
  next hout =>
    have hsum : i + (w - n % w) = i - n % w + w := by omega
    have hlt : i - n % w < w := by omega
    rw [testBit_mod_of_lt hlt, hsum, Nat.add_mod_right, Nat.mod_eq_of_lt hlt]

/-! ### Counts (R151) -/

theorem popBelow_eq (x n : Nat) : popBelow x n = ((List.range n).filter fun j => x.testBit j).length := by
  induction n with
  | zero => rfl
  | succ n ih =>
    rw [popBelow, ih, List.range_succ, List.filter_append, List.length_append, Nat.add_comm]
    cases h : x.testBit n <;> simp [h]

/-- A number that is zero at width w has no set bit below w. -/
theorem testBit_of_mod_eq_zero (h : x % 2 ^ w = 0) (hi : i < w) : x.testBit i = false := by
  rw [← testBit_mod_of_lt hi, h, Nat.zero_testBit]

/-- Counting from the top stops at the highest set bit. -/
theorem clzFrom_stops (hi : i < n) (h : clzFrom x n = i) : x.testBit (n - 1 - i) = true ∧ ∀ j, n - 1 - i < j → j < n → x.testBit j = false := by
  induction n generalizing i with
  | zero => omega
  | succ n ih =>
    rw [clzFrom] at h
    split at h
    next hbit =>
      subst h
      exact ⟨hbit, fun j _ _ => by omega⟩
    next hbit =>
      obtain ⟨i, rfl⟩ : ∃ k, i = k + 1 := ⟨_, h.symm⟩
      obtain ⟨hset, habove⟩ := ih (by omega) (Nat.succ.inj h)
      have hpos : n + 1 - 1 - (i + 1) = n - 1 - i := by omega
      rw [hpos]
      refine ⟨hset, fun j hj hjn => ?_⟩
      rcases Nat.lt_succ_iff_lt_or_eq.mp hjn with hlt | rfl
      · exact habove j hj hlt
      · exact Bool.eq_false_iff.mpr hbit

/-- Counting from bit k up stops at the lowest set bit. -/
theorem ctzFrom_stops {k : Nat} (hi : i < n) (h : ctzFrom x k n = i) : x.testBit (k + i) = true ∧ ∀ j < i, x.testBit (k + j) = false := by
  induction n generalizing i k with
  | zero => omega
  | succ n ih =>
    rw [ctzFrom] at h
    split at h
    next hbit =>
      subst h
      exact ⟨hbit, fun j hj => by omega⟩
    next hbit =>
      obtain ⟨i, rfl⟩ : ∃ m, i = m + 1 := ⟨_, h.symm⟩
      obtain ⟨hset, hbelow⟩ := ih (by omega) (Nat.succ.inj h)
      rw [← Nat.add_right_comm, Nat.add_assoc] at hset
      refine ⟨hset, fun j hj => ?_⟩
      cases j with
      | zero => exact Bool.eq_false_iff.mpr hbit
      | succ j =>
        rw [← Nat.add_assoc, Nat.add_right_comm]
        exact hbelow j (by omega)

theorem clzFrom_of_clear (h : ∀ j < n, x.testBit j = false) : clzFrom x n = n := by
  induction n with
  | zero => rfl
  | succ n ih => rw [clzFrom, h n n.lt_succ_self, if_neg Bool.false_ne_true, ih fun j hj => h j (by omega)]

theorem ctzFrom_of_clear {k : Nat} (h : ∀ j < n, x.testBit (k + j) = false) : ctzFrom x k n = n := by
  induction n generalizing k with
  | zero => rfl
  | succ n ih =>
    have hk : x.testBit k = false := h 0 n.succ_pos
    rw [ctzFrom, hk, if_neg Bool.false_ne_true, ih fun j hj => by rw [Nat.add_right_comm]; exact h (j + 1) (by omega)]

/-- The counts of zero are the width, and FFS finds no bit. -/
theorem counts_of_zero (h : x % 2 ^ w = 0) : clz w x = w ∧ ctz w x = w ∧ ffs w x = 0 := by
  have hclear : ∀ j < w, x.testBit j = false := fun _ => testBit_of_mod_eq_zero h
  exact ⟨clzFrom_of_clear hclear, ctzFrom_of_clear fun j hj => by rw [Nat.zero_add]; exact hclear j hj, if_pos h⟩

end

/-- Settles O19, function by function. -/
theorem bitFunctions : Obligations.BitFunctions := by
  intro w n x i hw hi
  refine ⟨testBit_shlBits hi, testBit_shrBits, testBit_sarBits hi, testBit_rolBits hw hi, testBit_brev hi, fun _ _ _ _ => testBit_blut hi,
    popBelow_eq x w, clzFrom_stops hi, fun h => ?_, counts_of_zero⟩
  simpa only [Nat.zero_add] using ctzFrom_stops hi h

end Sys2Proof.Machine

/-! Proofs of the statements of integers about the vector, scalar and lane instructions, majors 0x08 to 0x0C, 0x10, 0x11, 0x14 and 0x15 (R207 to R223),
row by row. -/

namespace Sys2Proof.Machine

section

/-! ### Rows of instructions that change the active fibres -/

variable {s : State} {r : LaneRow} {i : Issue}

/-- The active fibres are fibres of the state in which the wave has issued. -/
theorem active_found (h : Issues s i) : ∀ u ∈ s.activeSet i, ∃ f ∈ (s.issuedBy i).fibres, f.uid = u :=
  fun u hu => issuedBy_has (h.found u (active_mem h.found hu))

/-- The lowest active fibre is an active one (R36). -/
theorem headD_mem_active (h : Issues s i) : (s.activeSet i).headD 0 ∈ s.activeSet i := by
  have hne := h.active
  cases hus : s.activeSet i with
  | nil => exact absurd hus hne
  | cons u us => exact List.mem_cons_self

/-- An instruction that acts in each active fibre, given all the active ones, completes where its effect does not stop. -/
theorem completes_of_lanes {g : List Nat → State → Fibre → Except Trap Fibre}
    (hexec : ∀ s, exec r.instr s = s.issue r.issue fun t us => eachFibre (g us) t us) (huid : ∀ s us f, (r.res s us f).uid = f.uid)
    (hg : ∀ s us f, r.ok s us f = true → g us s f = .ok (r.res s us f)) : r.completes := by
  intro s h hok
  obtain ⟨t, heach, hactive, hother, hframe, hkept⟩ :=
    eachFrom_ok (huid _ _) (s.activeSet r.issue) (s.issuedBy r.issue) (active_found h) (active_found h) fun u hu => hg _ _ _ (hok u hu)
  refine ⟨t.advanceCur r.len [], ?_, retires_of h hactive hother hframe hkept⟩
  rw [hexec, issue_ok (t := t) (stay := []) h (by rw [eachFibre, heach])]
  rfl

/-- An instruction that gives each active fibre the row's result completes without a condition. -/
theorem completes_of_result (hexec : ∀ s, exec r.instr s = s.issue r.issue fun t us => eachFibre (fun s f => .ok (r.res s us f)) t us)
    (huid : ∀ s us f, (r.res s us f).uid = f.uid) : r.completes :=
  completes_of_lanes hexec huid fun _ _ _ _ => rfl

/-- An instruction that acts once for the wave and changes its active fibres completes. -/
theorem completes_of_updAll {body : Body} (hexec : ∀ s, exec r.instr s = s.issue r.issue body) (huid : ∀ s us f, (r.res s us f).uid = f.uid)
    (hbody : ∀ s us, (∀ u ∈ us, ∃ f ∈ s.fibres, f.uid = u) → r.ok s us (s.fibre (us.headD 0)) = true →
      body s us = .ok (s.updAll us (r.res s us), [])) : r.completes := by
  intro s h hok
  have hres := huid (s.issuedBy r.issue) (s.activeSet r.issue)
  refine ⟨_, ?_, retires_of h (fun u hu => ?_) (fun u hu => fibre_updAll_other hu hres) rfl fun u hu => has_mapIf hu fun f _ => hres f⟩
  · rw [hexec, issue_ok h (hbody _ _ (active_found h) (hok _ (headD_mem_active h)))]
    rfl
  · rw [fibre_updAll (active_found h u hu) hres, if_pos (List.contains_iff_mem.mpr hu)]

end

section

variable {instr : Instr} {major minor : Nat} {b : Base} {x : XForm} {e : Ext} {res : Ext → State → Fibre → Fibre}

/-- A row of an extended form that writes a result in each active fibre. -/
theorem rowE_completes (hexec : ∀ s, exec instr s = s.vec major minor e e.len fun s f => .ok (res e s f))
    (huid : ∀ s f, (res e s f).uid = f.uid) : (rowE instr major minor e res).completes :=
  completes_of_result hexec fun s _ f => huid s f

/-- The rows of an instruction that has a base word, where both forms write the same result of their fields. -/
theorem rowsB_completes {base : Base → Instr} {ext : XForm → Instr}
    (hbase : ∀ s, exec (base b) s = s.vec major minor (expandBase major minor b none) 4 fun s f => .ok (res (expandBase major minor b none) s f))
    (hext : ∀ s, exec (ext x) s = s.vec major minor (x.toExt major minor) x.len fun s f => .ok (res (x.toExt major minor) s f))
    (huid : ∀ e s f, (res e s f).uid = f.uid) : ∀ r ∈ rowsB base ext major minor b x res, r.completes := by
  simp only [rowsB, List.forall_mem_cons]
  exact ⟨completes_of_result hbase fun s _ f => huid _ s f, completes_of_result hext fun s _ f => huid _ s f, fun _ h => nomatch h⟩

end

/-! ### Vector integers and bits (R207 to R212) -/

/-- DP4's sum is that of the products of the four bytes (R211). -/
theorem dp4Sum_eq (ta tb : OpType) (a b : DWord) : dp4Sum ta tb a b =
    intOf ta a * intOf tb b + intOf ta (a >>> 8) * intOf tb (b >>> 8) + intOf ta (a >>> 16) * intOf tb (b >>> 16) +
      intOf ta (a >>> 24) * intOf tb (b >>> 24) := by
  simp [dp4Sum, List.range_succ]

/-- Settles O17, row by row: each instruction gives every active fibre the row's result, which is a write of D. -/
theorem integerResults : Obligations.IntegerResults := by
  intro b x e
  simp only [intRows, List.forall_mem_append, List.forall_mem_cons, ← dp4Sum_eq]
  refine ⟨⟨⟨⟨⟨⟨⟨⟨⟨⟨?iadd, ?isub⟩, ?imin⟩, ?imax⟩, ?iabs⟩, ?ineg⟩, ?mov⟩, ?movi, ?iadd3, ?lea, ?sel, fun _ h => nomatch h⟩, ?imul⟩, ?imulh⟩,
    ?imad, ?imadw, ?dp4, fun _ h => nomatch h⟩
  case iadd | isub | imin | imax | iabs | ineg | mov | imul | imulh =>
    exact rowsB_completes (fun _ => rfl) (fun _ => rfl) fun _ _ f => setD_uid f ..
  case movi | iadd3 | lea | sel | imad | imadw | dp4 => exact rowE_completes (fun _ => rfl) fun _ f => setD_uid f ..

/-- Settles O18, row by row: each instruction gives every active fibre the row's result, which is a write of D. -/
theorem bitResults : Obligations.BitResults := by
  intro b x e
  simp only [bitRows, List.forall_mem_append, List.forall_mem_cons]
  refine ⟨⟨⟨⟨⟨⟨⟨⟨⟨⟨⟨⟨⟨⟨⟨?and, ?or⟩, ?xor⟩, ?not⟩, ?blut, fun _ h => nomatch h⟩, ?shl⟩, ?shr⟩, ?sar⟩, ?rol⟩, ?fshl, fun _ h => nomatch h⟩,
    ?clz⟩, ?ctz⟩, ?ffs⟩, ?popc⟩, ?brev⟩, ?bfe, ?bfi, ?prmt, fun _ h => nomatch h⟩
  case and | or | xor | not | shl | shr | sar | rol | clz | ctz | ffs | popc | brev =>
    exact rowsB_completes (fun _ => rfl) (fun _ => rfl) fun _ _ f => setD_uid f ..
  case blut | fshl | bfe | bfi | prmt => exact rowE_completes (fun _ => rfl) fun _ f => setD_uid f ..

/-! ### Compares, shuffles, matches and scans (R210, R217 to R223, R228) -/

/-- No register that these uses read is poisoned, so what follows goes on. -/
theorem unpoisoned_ok {α : Type} {s : State} {f : Fibre} {uses : List RegUse} {k : Except Trap α} (h : clean uses s f = true) :
    s.unpoisoned f uses k = k := by
  rw [State.unpoisoned, Option.isNone_iff_eq_none.mp h]

/-- Settles O21, row by row. That SHFL reads 32 bits of b under every TYPE is the model's choice (notes/assumptions/79.md). -/
theorem laneResults : Obligations.LaneResults := by
  intro e
  simp only [laneRows, List.forall_mem_cons]
  refine ⟨?isetp, ?fsetp, ?shfl, ?matchLanes, ?scan, ?yieldp, fun _ h => nomatch h⟩
  case isetp => exact completes_of_lanes (fun _ => rfl) (fun _ _ f => setPred_uid f ..) fun _ _ _ hclean => unpoisoned_ok hclean
  case fsetp => exact completes_of_lanes (fun _ => rfl) (fun _ _ f => setPred_uid f ..) fun _ _ _ hclean => unpoisoned_ok hclean
  case shfl =>
    refine completes_of_lanes (fun _ => rfl) (fun _ _ f => (setPd_uid ..).trans (setD_uid f ..)) fun s us f hclean => ?_
    simp only [Option.isNone_iff_eq_none.mp hclean]
    generalize (shflLane _ _ _).bind _ = src
    cases src <;> rfl
  case matchLanes =>
    refine completes_of_lanes (fun _ => rfl) (fun _ _ _ => (setPd_uid ..).trans (setPair_uid ..)) fun s us f hsound => ?_
    have hclean : (e.pdv && (f.vSrc e.a.toNat e.ty.wide).poison) = false := by rwa [← Bool.not_eq_true', Bool.not_and]
    exact if_neg (Bool.eq_false_iff.mp hclean)
  case scan => exact completes_of_result (fun _ => rfl) fun _ _ f => setD_uid f ..
  case yieldp => exact completes_of_result (fun _ => rfl) fun _ _ f => setPred_uid f ..

/-! ### Rows of instructions that act once for the wave (R36) -/

/-- A change that changes nothing. -/
theorem updAll_id (s : State) (us : List Nat) : (s.updAll us fun f => f) = s := by
  simp [State.updAll, mapIf]

section

variable {r : ScalarRow}

/-- An instruction that acts once for the wave, in which it writes one s-register and changes active fibres, completes. -/
theorem completes_of_setS {g : State → Fibre → List Nat → Except Stop (State × List Nat)}
    (hexec : ∀ s, exec r.instr s = s.issue r.issue (oncePerWave g)) (huid : ∀ s us f, (r.fib s us f).uid = f.uid)
    (hg : ∀ s us, r.ok s (s.fibre (us.headD 0)) = true → g s (s.fibre (us.headD 0)) us =
      .ok ((s.updAll us (r.fib s us)).setS (s.fibre (us.headD 0)).groupId r.e.d.toNat (r.val s us (s.fibre (us.headD 0))), [])) : r.completes := by
  intro s h s1 us f hgroup hok
  refine ⟨_, ?_, retiresS_of h hgroup (huid s1 us) rfl⟩
  rw [hexec, issue_ok h (hg s1 us hok)]
  rfl

end

/-- An instruction that writes one s-register, and nothing of a fibre, completes. -/
theorem completes_of_value {instr : Instr} {major minor len : Nat} {e : Ext} {val : State → List Nat → Fibre → PDWord}
    (hexec : ∀ s, exec instr s = s.once major minor e len fun s f us => .ok (s.setS f.groupId e.d.toNat (val s us f), [])) :
    ({ instr := instr, major := major, minor := minor, e := e, len := len, val := val } : ScalarRow).completes :=
  completes_of_setS hexec (fun _ _ _ => rfl) fun s us _ => by rw [updAll_id]

/-- The rows of a scalar instruction that has a base word, where both forms write the same value of their fields. -/
theorem scalarB_completes {base : Base → Instr} {ext : XForm → Instr} {major minor : Nat} {b : Base} {x : XForm} {val : Ext → State → Fibre → PDWord}
    (hbase : ∀ s, exec (base b) s = s.once major minor (expandBase major minor b none) 4 fun s f _ =>
      .ok (s.setS f.groupId (expandBase major minor b none).d.toNat (val (expandBase major minor b none) s f), []))
    (hext : ∀ s, exec (ext x) s = s.once major minor (x.toExt major minor) x.len fun s f _ =>
      .ok (s.setS f.groupId (x.toExt major minor).d.toNat (val (x.toExt major minor) s f), [])) :
    ∀ r ∈ scalarB base ext major minor b x val, r.completes := by
  simp only [scalarB, List.forall_mem_cons]
  exact ⟨completes_of_value hbase, completes_of_value hext, fun _ h => nomatch h⟩

/-- Settles O22, row by row: each instruction writes the row's value as the lowest active fibre reads its operands. -/
theorem scalarResults : Obligations.ScalarResults := by
  intro b x e
  simp only [scalarRows, List.forall_mem_append, List.forall_mem_cons]
  refine ⟨⟨⟨⟨⟨⟨⟨⟨⟨⟨⟨⟨?sadd, ?ssub⟩, ?smul⟩, ?smin⟩, ?smax⟩, ?smov⟩, ?smad, ?smovi, ?ssel, ?slea, fun _ h => nomatch h⟩,
    ?sand⟩, ?sor⟩, ?sxor⟩, ?sshl⟩, ?sshr⟩, ?ssar⟩
  case sadd | ssub | smul | smin | smax | smov | sand | sor | sxor | sshl | sshr | ssar =>
    exact scalarB_completes (fun _ => rfl) fun _ => rfl
  case smad | smovi | ssel | slea => exact completes_of_value fun _ => rfl

/-! ### Lanes, once for the wave (R213, R219, R221, R222) -/

section

variable {s : State} {us : List Nat} {e : Ext} {f g : Fibre} {l : Nat}

/-- The fibre found on a lane is one of the list. -/
theorem onLane_mem (hfound : ∀ u ∈ us, ∃ f ∈ s.fibres, f.uid = u) (h : s.onLane us l = some g) : g.uid ∈ us := by
  obtain ⟨u, hu, rfl⟩ := List.mem_map.mp (List.mem_of_find?_eq_some h)
  rwa [fibre_uid (hfound u hu)]

/-- The lane that an instruction names lies in the list. -/
theorem namedLane_mem (hfound : ∀ u ∈ us, ∃ f ∈ s.fibres, f.uid = u) (h : namedLane s f us e = some g) : g.uid ∈ us := by
  rw [namedLane] at h
  split at h
  · exact onLane_mem hfound h
  · exact nomatch h

/-- A change of one fibre of a list, as a change of the list's fibres. -/
theorem updFibre_eq_updAll {u : Nat} (hu : u ∈ us) (h : Fibre → Fibre) :
    s.updFibre u h = s.updAll us fun f => if some u = some f.uid then h f else f := by
  have hsame : ∀ f : Fibre, (if f.uid == u then h f else f) = if us.contains f.uid then (if some u = some f.uid then h f else f) else f := by
    intro f
    by_cases hf : f.uid = u
    · simp [hf, hu]
    · simp [hf, Ne.symm hf]
  simp only [State.updFibre, State.updAll, mapIf, hsame]

/-- A predicate written to every active fibre, where PDV is 1. -/
theorem updAll_setPd (s : State) (us : List Nat) (e : Ext) (b : Bool) :
    (s.updAll us fun f => f.setPd e b) = if e.pdv then s.setPredAll us e.pd.toNat b else s := by
  cases hpdv : e.pdv
  · simpa only [Fibre.setPd, hpdv, Bool.false_eq_true, if_false] using updAll_id s us
  · simp only [Fibre.setPd, hpdv, State.setPredAll, if_true]

end

/-- Settles O23, row by row. -/
theorem laneScalarResults : Obligations.LaneScalarResults := by
  intro e
  simp only [laneScalarRows, onceRows, List.forall_mem_cons]
  refine ⟨⟨?rdlane, ?reduce, fun _ h => nomatch h⟩, ?ssetp, ?wrlane, fun _ h => nomatch h⟩
  case rdlane =>
    refine completes_of_setS (fun _ => rfl) (fun _ _ f => setPd_uid f ..) fun s us hclean => ?_
    simp only [Option.isNone_iff_eq_none.mp hclean, updAll_setPd, namedLane]
    cases e.pdv <;> rfl
  case reduce => exact completes_of_value fun _ => rfl
  case ssetp =>
    refine completes_of_updAll (fun _ => rfl) (fun _ _ f => setPred_uid f ..) fun s us _ hclean => ?_
    simp only [oncePerWave, Option.isNone_iff_eq_none.mp hclean]
    rfl
  case wrlane =>
    refine completes_of_updAll (fun _ => rfl) (fun s us f => ?_) fun s us hfound hclean => ?_
    · dsimp only
      split
      · exact setD_uid f ..
      · rfl
    · cases hlane : namedLane s (s.fibre (us.headD 0)) us e with
      | none =>
        have hnone := hlane
        rw [namedLane] at hnone
        simp only [oncePerWave, Option.isNone_iff_eq_none.mp hclean, hnone, hlane, Option.map_none, reduceCtorEq, if_false, updAll_id]
      | some g =>
        have hsome := hlane
        rw [namedLane] at hsome
        simp only [oncePerWave, Option.isNone_iff_eq_none.mp hclean, hsome, hlane, Option.map_some,
          updFibre_eq_updAll (namedLane_mem hfound hlane)]

/-! ### Votes (R219) -/

/-- A mask gathered from lanes: each lane that satisfies the condition adds its bit. -/
theorem getLsbD_foldl_lanes {L : Nat} (hL : L < 64) (s : State) (p : Fibre → Bool) (us : List Nat) (m : DWord) :
    (us.foldl (fun m u => if p (s.fibre u) then m ||| (1#64 <<< (s.fibre u).lane) else m) m).getLsbD L =
      (m.getLsbD L || us.any fun u => (s.fibre u).lane == L && p (s.fibre u)) := by
  induction us generalizing m with
  | nil => simp
  | cons u us ih =>
    have hbit : (1#64 <<< (s.fibre u).lane).getLsbD L = ((s.fibre u).lane == L) := by
      rw [← BitVec.twoPow_eq, BitVec.getLsbD_twoPow]
      by_cases hl : (s.fibre u).lane = L
      · simp [hl, hL]
      · simp [hl]
    rw [List.foldl_cons, ih, List.any_cons]
    cases p (s.fibre u)
    · simp
    · simp [hbit, Bool.or_assoc]

/-- Bit L of the mask of lanes: some active fibre on lane L satisfies the condition. -/
theorem getLsbD_laneMask {L : Nat} (hL : L < 64) (s : State) (us : List Nat) (p : Fibre → Bool) :
    (s.laneMask us p).getLsbD L = us.any fun u => (s.fibre u).lane == L && p (s.fibre u) := by
  rw [State.laneMask, getLsbD_foldl_lanes hL, show (0 : DWord).getLsbD L = false from BitVec.getLsbD_zero, Bool.false_or]

/-- BALLOT writes its mask to s(D) (R219). -/
theorem ballotRow_completes {e : Ext} (hdk : e.dk = true) : (ballotRow e).completes :=
  completes_of_setS (fun _ => rfl) (fun _ _ _ => rfl) fun s us _ => by
    simp only [State.setDest, if_pos hdk, ballotRow, updAll_id]

/-- Settles O24. -/
theorem voteBallot : Obligations.VoteBallot := by
  intro e
  refine ⟨List.forall_mem_append.mpr ⟨List.forall_mem_singleton.mpr ?vote, ?pair⟩, ballotRow_completes, fun s us L hL => getLsbD_laneMask hL s us _⟩
  case vote => exact completes_of_result (fun _ => rfl) fun _ _ f => setPred_uid f ..
  case pair =>
    cases hdk : e.dk
    · refine List.forall_mem_singleton.mpr (completes_of_updAll (fun _ => rfl) (fun _ _ f => setPair_uid f ..) fun s us _ _ => ?_)
      simp only [oncePerWave, State.setDest, hdk]
      rfl
    · exact fun _ h => nomatch h

end Sys2Proof.Machine

/-! Proofs of the statements of floating point: majors 0x18, 0x19, 0x1E and 0x1F but for FSETP (R224 to R236), row by row. -/

namespace Sys2Proof.Machine

/-! ### Rows that write a float result -/

section

variable {instr : Instr} {major minor : Nat} {b : Base} {x : XForm} {e : Ext}

/-- A row of an extended form that computes a float result from A, B and C. -/
theorem rowE_fTernary_completes {g : Ext → DWord → Nat → Nat → Nat → FRes}
    (hexec : ∀ s, exec instr s = s.vec major minor e e.len (fTernary e (g e))) : (rowE instr major minor e (fl3 g)).completes :=
  rowE_completes hexec fun _ f => setF_uid f ..

/-- A row of an extended form that computes a float result from B. -/
theorem rowE_fUnary_completes {g : Ext → DWord → Nat → FRes}
    (hexec : ∀ s, exec instr s = s.vec major minor e e.len (fUnary e (g e))) : (rowE instr major minor e (fl1 g)).completes :=
  rowE_completes hexec fun _ f => setF_uid f ..

variable {base : Base → Instr} {ext : XForm → Instr}

/-- The rows of an instruction with a base word, where both forms compute a float result from A and B. -/
theorem rowsB_fBinary_completes {g : Ext → DWord → Nat → Nat → FRes}
    (hbase : ∀ s, exec (base b) s = s.vec major minor (expandBase major minor b none) 4
      (fBinary (expandBase major minor b none) (g (expandBase major minor b none))))
    (hext : ∀ s, exec (ext x) s = s.vec major minor (x.toExt major minor) x.len (fBinary (x.toExt major minor) (g (x.toExt major minor)))) :
    ∀ r ∈ rowsB base ext major minor b x (fl2 g), r.completes :=
  rowsB_completes hbase hext fun _ _ f => setF_uid f ..

/-- The rows of an instruction with a base word, where both forms compute each packed element from the same element of A and of B (R139, R230). -/
theorem rowsB_packed2_completes {g : Ext → DWord → Nat → Nat → FRes}
    (hbase : ∀ s, exec (base b) s = s.vec major minor (expandBase major minor b none) 4
      (fBinary (expandBase major minor b none) fun ctl a c => packed2 fun i => g (expandBase major minor b none) ctl (half a i) (half c i)))
    (hext : ∀ s, exec (ext x) s = s.vec major minor (x.toExt major minor) x.len
      (fBinary (x.toExt major minor) fun ctl a c => packed2 fun i => g (x.toExt major minor) ctl (half a i) (half c i))) :
    ∀ r ∈ rowsB base ext major minor b x (fl2 fun e ctl => both2 (g e ctl)), r.completes :=
  rowsB_fBinary_completes hbase hext

/-- The rows of an instruction with a base word, where both forms compute the special function of their minor from B (R231). -/
theorem rowsB_special_completes (hbase : ∀ s, exec (base b) s = special minor (expandBase 0x1E minor b none) 4 s)
    (hext : ∀ s, exec (ext x) s = special minor (x.toExt 0x1E minor) x.len s) :
    ∀ r ∈ rowsB base ext 0x1E minor b x (fl1 fun e ctl b => fpSpecial ctl minor e.rnd b), r.completes :=
  rowsB_completes hbase hext fun _ _ f => setF_uid f ..

end

section

variable (b : Base) (x : XForm) (e : Ext)

/-- The instructions on single floats complete (R227 to R229). -/
theorem singleRows_complete : ∀ r ∈ singleRows b x e, r.completes := by
  simp only [singleRows, List.forall_mem_append, List.forall_mem_cons]
  refine ⟨⟨⟨⟨⟨?fadd, ?fsub⟩, ?fmul⟩, ?fmin⟩, ?fmax⟩, ?ffma, ?fclass, ?frnd, ?fscale, fun _ h => nomatch h⟩
  case fadd | fsub | fmul | fmin | fmax => exact rowsB_fBinary_completes (fun _ => rfl) fun _ => rfl
  case ffma => exact rowE_fTernary_completes fun _ => rfl
  case fclass | frnd => exact rowE_fUnary_completes fun _ => rfl
  case fscale => exact rowE_completes (fun _ => rfl) fun _ f => setF_uid f ..

/-- The instructions on packed elements complete (R230); HFMA2's row writes out the two elements that its `packed2` joins. -/
theorem packedRows_complete : ∀ r ∈ packedRows b x e, r.completes := by
  simp only [packedRows, List.forall_mem_append, List.forall_mem_cons]
  refine ⟨⟨⟨⟨?hadd2, ?hmul2⟩, ?hmin2⟩, ?hmax2⟩, ?hfma2, ?fdot2, fun _ h => nomatch h⟩
  case hadd2 | hmul2 | hmin2 | hmax2 => exact rowsB_packed2_completes (fun _ => rfl) fun _ => rfl
  case hfma2 | fdot2 => exact rowE_fTernary_completes fun _ => rfl

/-- The special functions complete (R231). -/
theorem specialRows_complete : ∀ r ∈ specialRows b x, r.completes := by
  simp only [specialRows, List.forall_mem_append]
  refine ⟨⟨⟨⟨⟨⟨⟨?rcp, ?rsq⟩, ?sqrt⟩, ?ex2⟩, ?lg2⟩, ?sin⟩, ?cos⟩, ?tanh⟩
  case rcp | rsq | sqrt | ex2 | lg2 | sin | cos | tanh => exact rowsB_special_completes (fun _ => rfl) fun _ => rfl

/-- The conversions complete (R232 to R236). -/
theorem convertRows_complete : ∀ r ∈ convertRows e, r.completes := by
  simp only [convertRows, List.forall_mem_cons]
  refine ⟨?fcvt, ?f2i, ?i2f, ?fpack, fun _ h => nomatch h⟩
  case fcvt => exact rowE_fUnary_completes fun _ => rfl
  case f2i => exact rowE_completes (fun _ => rfl) fun _ f => setD_uid f ..
  case i2f => exact rowE_completes (fun _ => rfl) fun _ f => setF_uid f ..
  case fpack => exact rowE_completes (fun _ => rfl) fun _ _ => rfl

end

/-- Settles O20, major by major: each instruction gives every active fibre the row's result, a write of D and of ARITH_FLAGS. -/
theorem floatResults : Obligations.FloatResults := by
  intro b x e
  simp only [List.forall_mem_append]
  exact ⟨⟨⟨singleRows_complete b x e, packedRows_complete b x e⟩, specialRows_complete b x⟩, convertRows_complete e⟩

end Sys2Proof.Machine

/-! Proof of the statements of memory about what the loads, stores, atomics and fences do where they complete (R215, R238 to R255, R264, R265). -/

namespace Sys2Proof.Machine

/-! ### Checks, releases and journals around an effect -/

/-- No fibre of a list runs in a replicated pipeline. -/
def State.unreplicated (s : State) (us : List Nat) : Prop := ∀ u ∈ us, s.replicatedFibre (s.fibre u) = false

/-- An instruction completes where its body, outside replicated pipelines and under the row's conditions, succeeds with the row's effect. -/
theorem completes_of_unreplicated {r : OpRow} {body : Body} (hexec : ∀ s, exec r.instr s = s.issue r.issue body)
    (hbody : ∀ s us, s.unreplicated us → r.pre s us → body s us = .ok (r.post s us)) : r.completes := by
  intro s h hpre
  rw [hexec, issue_ok h (hbody _ _ (issued_single h) hpre)]

section

variable {s : State} {us : List Nat} {e : Ext} {b : Body} {uses : List RegUse} {accs : State → Fibre → List Acc} {multi : Bool}

/-- Kept translations leave fibres and pipelines as they are. -/
theorem keepWalks_unreplicated (f : Fibre) (ws : List Nat) (h : s.unreplicated us) : (s.keepWalks f ws).unreplicated us := by
  intro u hu
  rw [State.replicatedFibre, keepWalks_fibre, keepWalks_pipeOf]
  exact h u hu

/-- The accesses pass their checks, and the effect on them is the row's. -/
theorem withAccesses_placedPost {k : State → List Nat → List Placed → Except Stop (State × List Nat)}
    {k' : State → List Nat → List Placed → State × List Nat} {pre : State → List Nat → List Placed → Prop}
    (h : placedPre uses accs multi pre s us)
    (hk : ∀ f ws ps, pre (s.keepWalks f ws) us ps → k (s.keepWalks f ws) us ps = .ok (k' (s.keepWalks f ws) us ps)) :
    withAccesses uses accs multi k s us = .ok (placedPost uses accs multi k' s us) := by
  obtain ⟨ps, ws, hplace, hpre⟩ := h
  rw [withAccesses_ok hplace, hk _ _ _ hpre, placedPost, hplace]

/-- An effect that releases, its earlier stores acknowledged (R80). -/
theorem releasing_relPost {r : State × List Nat} (h : relPre e s us) (hb : b s us = .ok r) : releasing e b s us = .ok (relPost e r us) := by
  by_cases hsync : e.sync < 2
  · rw [releasing_plain hsync, hb, relPost, if_pos hsync]
  · rw [releasing_ok hsync (h (by omega)) hb, relPost, if_neg hsync, released]

/-- The wait before a release's own write is over. -/
theorem releaseWaits_ok (h : relPre e s us) : releaseWaits e b s us = b s us := by
  refine if_neg fun ⟨hsync, hwait⟩ => ?_
  obtain ⟨u, hu, hn⟩ := List.any_eq_true.mp hwait
  rw [h hsync u hu] at hn
  exact absurd hn (by decide)

/-- Checked stores for which every version has a way are performed (R124, R243). -/
theorem performStores_ok {once : Bool} {bytes : State → Fibre → List Byte} {ps : List Placed} (hr : s.unreplicated us)
    (h : ∃ t, s.reserveAll ps = .ok t) : performStores once e bytes s us ps = .ok (storesPost e bytes s us ps) := by
  obtain ⟨t, ht⟩ := h
  have hr' : t.unreplicated us := by rw [reserveAll_frame ps ht]; exact hr
  rw [performStores, storesPost, ht]
  exact withJournal_plain hr'

/-- Checked stores of fibres of which none's tag is COMMITTING. -/
theorem notCommitting_performStores {once : Bool} {bytes : State → Fibre → List Byte} {ps : List Placed} (hr : s.unreplicated us)
    (h : storePre s us ps) : notCommitting (fun s us => performStores once e bytes s us ps) s us = .ok (storesPost e bytes s us ps) := by
  rw [notCommitting_ok h.1, performStores_ok hr h.2]

end

/-! ### Loads and stores (R242 to R246, R250 to R253) -/

/-- The loads of placed accesses whose lines have found their ways. -/
theorem loadsPost_eq {s t : State} {us : List Nat} {ps : List Placed} {wide : State → Fibre → Bool} {k : State → State} {one : State → Placed → State}
    (h : s.reserveLoads (wide s) ps = .ok t) : loadsPost wide k one s us ps = (ps.foldl one (k t), []) := by
  rw [loadsPost, h]

/-- Settles O32, row by row: past the checks each body is the row's effect on the accesses that have passed them. -/
theorem memoryInstructions : Obligations.MemoryInstructions := by
  intro e
  simp only [memoryRows, List.forall_mem_cons]
  refine ⟨?ld, ?ldp, ?sld, ?st, ?mst, ?rst, ?sst, ?pagereq, ?prefetch, fun _ h => nomatch h⟩
  case ld =>
    refine completes_of_body (fun _ => rfl) fun s us h => ?_
    dsimp only
    refine withAccesses_placedPost h fun f ws ps ⟨t, ht⟩ => ?_
    rw [loadsPost_eq ht]
    unfold wideAcq at ht
    simp only [ht, id]
  case ldp =>
    refine completes_of_body (fun _ => rfl) fun s us h => ?_
    dsimp only at h ⊢
    refine withAccesses_placedPost h fun f ws ps ⟨t, ht⟩ => ?_
    rw [loadsPost_eq ht]
    simp only [ht]
  case sld =>
    refine completes_of_body (fun _ => rfl) fun s us h => ?_
    dsimp only
    refine withAccesses_placedPost h fun f ws ps ⟨t, ht⟩ => ?_
    rw [loadsPost_eq ht]
    unfold wideAcq at ht
    simp only [ht, id]
  case st =>
    refine completes_of_unreplicated (fun _ => rfl) fun s us hr ⟨hrel, h⟩ => releasing_relPost hrel ?_
    exact withAccesses_placedPost h fun f ws ps hpre => notCommitting_performStores (keepWalks_unreplicated f ws hr) hpre
  case mst =>
    refine completes_of_unreplicated (fun _ => rfl) fun s us hr ⟨hrel, h⟩ => releasing_relPost hrel ?_
    exact withAccesses_placedPost h fun f ws ps hpre => notCommitting_performStores (keepWalks_unreplicated f ws hr) hpre
  case rst =>
    refine completes_of_unreplicated (fun _ => rfl) fun s us hr ⟨hrel, hlead, hcontrib, hop, h⟩ => releasing_relPost hrel ?_
    simp only [hlead, List.findSome?_eq_none_iff.mpr hcontrib, hop, Bool.not_true, Bool.false_eq_true, if_false]
    refine withAccesses_placedPost h fun f ws ps hcommit => ?_
    rw [notCommitting_ok hcommit, withJournal_plain (keepWalks_unreplicated f ws hr)]
  case sst =>
    refine completes_of_unreplicated (fun _ => rfl) fun s us hr ⟨hrel, h⟩ => releasing_relPost hrel ?_
    refine withAccesses_placedPost h fun f ws ps ⟨hcommit, hroom⟩ => ?_
    rw [notCommitting_ok hcommit, onceStores, performStores_ok (keepWalks_unreplicated f ws hr) hroom]
  case pagereq =>
    refine completes_of_body (fun _ => rfl) fun s us ⟨hpoison, hwindow⟩ => ?_
    dsimp only
    split
    next t ht =>
      obtain ⟨u, hu, hstop⟩ := List.exists_of_findSome?_eq_some ht
      obtain ⟨w, hw⟩ := hwindow u hu
      rw [hpoison u hu, hw] at hstop
      cases hstop
    next => rfl
  case prefetch => exact completes_of_body (fun _ => rfl) fun s us hpoison => notPoisoned_ok hpoison

/-! ### Atomics (R247 to R249) -/

section

variable {e : Ext}

/-- An atomic in any operation completes with the effect of its rule. -/
theorem atomic_completes {s : State} (a : AtomOp) (h : Issues s (atomIssue a e s))
    (hrel : relPre e (s.issuedBy (atomIssue a e s)) (s.activeSet (atomIssue a e s)))
    (hplace : placedPre (usesOf a.major a.op e) (atomicAccs e) false (atomPre a e) (s.issuedBy (atomIssue a e s)) (s.activeSet (atomIssue a e s))) :
    let r := placedPost (usesOf a.major a.op e) (atomicAccs e) false (atomsPost a e) (s.issuedBy (atomIssue a e s)) (s.activeSet (atomIssue a e s))
    atomic a e s = .next (r.1.advanceCur e.len r.2) := by
  refine issue_ok h ((releaseWaits_ok hrel).trans ?_)
  refine withAccesses_placedPost hplace fun f ws ps ⟨hcommit, t, ht, v, hv⟩ => ?_
  rw [notCommitting_ok hcommit]
  simp only [atomsPost, ht, hv, Except.bind]

/-- Every operation of ATOM, CAS and RED acts through the one atomic. -/
theorem exec_atomics (s : State) : ∀ x ∈ atomics e, exec x.1 s = atomic x.2 e s := by
  simp only [atomics, List.forall_mem_cons]
  exact ⟨rfl, rfl, rfl, rfl, rfl, rfl, rfl, rfl, rfl, rfl, rfl, rfl, rfl, rfl, fun _ h => nomatch h⟩

end

/-- Settles O33: every operation acts through the one atomic, which completes. -/
theorem atomicInstructions : Obligations.AtomicInstructions := by
  intro e x hx s i s1 us h hrel hplace
  rw [exec_atomics s x hx]
  exact atomic_completes x.2 h hrel hplace

/-! ### Fences and cache management (R254, R255, R264, R265) -/

/-- Settles O34, row by row. -/
theorem fenceInstructions : Obligations.FenceInstructions := by
  intro e
  simp only [fenceRows, List.forall_mem_cons]
  refine ⟨?fence, ?cpfence, ?cinv, ?cwb, ?tlbinv, ?tlbinvAll, fun _ h => nomatch h⟩
  case fence => exact completes_of_body (fun _ => rfl) fun s us hrel => releasing_relPost hrel rfl
  case cpfence =>
    refine completes_of_body (fun _ => rfl) fun s us hdone => if_neg fun ⟨hne, hwait⟩ => ?_
    obtain ⟨u, hu, hn⟩ := List.any_eq_true.mp hwait
    rw [hdone hne u hu] at hn
    exact absurd hn (by decide)
  case cinv => exact completes_of_body (fun _ => rfl) fun s us hpoison => notPoisoned_ok hpoison
  case cwb => exact completes_of_body (fun _ => rfl) fun s us hpoison => notPoisoned_ok hpoison
  case tlbinv =>
    refine completes_of_body (fun _ => rfl) fun s us ⟨hpoison, hacked, hfree⟩ => ?_
    rw [notPoisoned_ok hpoison]
    refine (afterAcks_ok hacked).trans ?_
    change oncePerWave _ (released s us) us = _
    dsimp only [oncePerWave]
    generalize released s us = t at hfree ⊢
    generalize t.fibre (us.headD 0) = f at hfree ⊢
    cases hg : t.globalAt f e with
    | none => rfl
    | some g =>
      simp only [hg] at hfree
      exact if_neg (Bool.eq_false_iff.mp (hfree g rfl))
  case tlbinvAll =>
    exact completes_of_body (fun _ => rfl) fun s us ⟨hacked, hfree⟩ =>
      (afterAcks_ok hacked).trans (if_neg (Bool.eq_false_iff.mp hfree))

end Sys2Proof.Machine

/-! Proof of the statements of memory about copies, leases and transaction barriers (R55, R256 to R263). -/

namespace Sys2Proof.Machine

/-! ### LREL (R261) -/

section

variable {s : State}

/-- What LREL does with the leases that its handle names: they end, and a predicate of every active fibre says whether there was one. -/
def State.endLeases (s : State) (mine : Lease → Bool) (us : List Nat) (n : Nat) : State :=
  ({ s with leases := s.leases.filter fun l => !mine l }).setPredAll us n (s.leases.any mine)

variable {mine : Lease → Bool} {us : List Nat} {n : Nat}

theorem endLeases_of_exists (h : ∃ l ∈ s.leases, mine l = true) :
    s.endLeases mine us n = ({ s with leases := s.leases.filter fun l => !mine l }).updAll us fun g => g.setPred n true := by
  rw [State.endLeases, List.any_eq_true.mpr h, State.setPredAll]

theorem endLeases_of_none (h : ∀ l ∈ s.leases, mine l = false) : s.endLeases mine us n = s.updAll us fun g => g.setPred n false := by
  have hkeep : (s.leases.filter fun l => !mine l) = s.leases := List.filter_eq_self.mpr fun l hl => by rw [h l hl, Bool.not_false]
  rw [State.endLeases, List.any_eq_false.mpr fun l hl => Bool.eq_false_iff.mp (h l hl), hkeep, State.setPredAll]

end

/-- Settles O36: whether a lease is named decides both what ends and what is answered. -/
theorem leaseRelease : Obligations.LeaseRelease := by
  intro e s i s1 us f mine h hpoison
  have hexec : exec (.lrel e) s = .next ((s1.endLeases mine us e.pd.toNat).advanceCur e.len []) := issue_ok h (notPoisoned_ok hpoison)
  exact ⟨fun hsome => endLeases_of_exists hsome ▸ hexec, fun hnone => endLeases_of_none hnone ▸ hexec⟩

/-! ### Transaction barriers, leases and copies (R256 to R260, R262, R263) -/

section

variable {e : Ext}

theorem headD_take_one (us : List Nat) : (us.take 1).headD 0 = us.headD 0 := by cases us <;> rfl

/-- Of an instruction that acts once for the wave, the lowest active fibre alone reads registers. -/
theorem notPoisoned_lead {s : State} {us : List Nat} {uses : List RegUse} {b : Body} (h : s.poisonUse (s.fibre (us.headD 0)) uses = none) :
    notPoisoned uses b s (us.take 1) = b s (us.take 1) := by
  refine notPoisoned_ok fun u hu => ?_
  cases us with
  | nil => cases hu
  | cons v r => rwa [List.mem_singleton.mp hu]

/-- TXBINIT or TXBEXP, whose count its barrier can take (R262). -/
theorem txbRow_completes {instr : Instr} {minor most : Nat} {bad : Nat → Bool} {g : Nat → Txb → Txb}
    (hexec : ∀ s, exec instr s = txbOnce minor e bad g s) (hbad : ∀ c, c ≤ most → bad c = false) : (txbRow instr minor e most g).completes := by
  refine completes_of_body hexec fun s us ⟨hpoison, ⟨k, hk⟩, hc⟩ => ?_
  rw [notPoisoned_lead hpoison]
  dsimp only [txbRow]
  simp only [headD_take_one, hk, hbad _ hc, orSame, Bool.false_eq_true, if_false]

/-- CPY or CPYT, whose checks pass at issue (R257, R258). -/
theorem copyRow_completes {instr : Instr} {tiled : Bool}
    (hexec : ∀ s, exec instr s = s.issue { issueOf 0x27 (if tiled then 1 else 0) e e.len with compare := e.sync = 2 } (notCommitting (copyBody tiled e))) :
    (copyRow instr tiled e).completes := by
  refine completes_of_body hexec fun s us ⟨hcommit, hright, hroom, ⟨txb, hcheck⟩, ⟨⟨xs, pages⟩, hplace⟩⟩ => ?_
  rw [notCommitting_ok hcommit]
  dsimp only [copyRow]
  simp only [copyBody, hright, hcheck, hplace, hroom, orSame]
  rfl

end

/-- Settles O35, row by row. The permission that a barrier's instructions need and the naming of its place (notes/assumptions/35.md), the hold of a
copy under a COMMITTING tag before its checks (76.md) and the place of the copy's request in the window of its core (82.md) are the model's choices. -/
theorem copyInstructions : Obligations.CopyInstructions := by
  intro e
  simp only [copyRows, List.forall_mem_cons]
  refine ⟨?cpy, ?cpyt, ?lease, ?txbinit, ?txbexp, ?txbarr, ?txbwait, fun _ h => nomatch h⟩
  case cpy => exact copyRow_completes fun _ => rfl
  case cpyt => exact copyRow_completes fun _ => rfl
  case lease =>
    refine completes_of_body (fun _ => rfl) fun s us ⟨hright, hpoison, haligned, hrange, lines, hlines⟩ => ?_
    rw [cleanLead] at hpoison
    dsimp only [oncePerWave]
    simp only [leaseBody, hright, hpoison, haligned, hrange, hlines, orSame, ne_eq, not_true, if_false]
    exact (apply_ite Except.ok _ _ _).symm
  case txbinit => exact txbRow_completes (fun s => (rfl : _ = execTxbinit e s)) fun c hc => decide_eq_false (by omega)
  case txbexp => exact txbRow_completes (fun s => (rfl : _ = execTxbexp e s)) fun _ _ => rfl
  case txbarr =>
    refine completes_of_body (fun _ => rfl) fun s us ⟨⟨ks, hks⟩, hacked⟩ => ?_
    simp only [hks, orSame]
    exact afterAcks_ok hacked
  case txbwait =>
    refine completes_of_body (fun _ => rfl) fun s us ⟨ks, hks⟩ => ?_
    simp only [hks, orSame]

end Sys2Proof.Machine

/-! Proof that the statement of memory about the events of copies, leases, step sets and tiles fails (R24, R284, R424). -/

namespace Sys2Proof.Machine

/-! ### A matrix step under a reduced table (R424) -/

/-- MATRIX_STEP of a picked step set runs it, and comes again when the step has taken its clocks (R284). -/
theorem exec_matrixStep_set {s : State} {part core engine : Nat} {r : MatReq} {x : StepSet} (hpick : s.pickStep part core engine = some r)
    (htile : r.tile = false) (hfind : s.stepSets.find? (fun y => y.id == r.id) = some x) :
    exec (.matrixStep part core engine) s = .next ((s.runSet x).stepTaken part core engine) := by
  show execMatrixStep part core engine s = _
  rw [execMatrixStep, hpick]
  simp only [htile, hfind, Bool.false_eq_true, if_false]

/-- A step set that is bound to engine 0 of logical core 0, and whose signers have gone. -/
def boundSet : StepSet :=
  { id := 7, part := 0, pipe := 1, grp := 5, repl := 0, cv := 0, round := 0, completed := 0, signers := [], core := 0, bound := some (0, 3) }

/-- The device after reset with its top loop lost, so that a core's clock takes two CLOCKs (R424), and with one bound step set. -/
def topLostState : State := { State.reset with table := 1, stepSets := [boundSet] }

/-- The request of the bound set. -/
def boundReq : MatReq := { seq := 3, prio := 0, pipe := 1, tile := false, id := 7 }

theorem topLostState_pickStep : topLostState.pickStep 0 0 0 = some boundReq := by decide +kernel
theorem topLostState_found : topLostState.stepSets.find? (fun y => y.id == boundReq.id) = some boundSet := by decide +kernel

theorem topLostState_clock : (topLostState.runSet boundSet).clock = 0 := by decide +kernel

/-- Twelve clocks of the core are 24 CLOCKs. -/
theorem topLostState_coreClock :
    (topLostState.runSet boundSet).coreClock (((topLostState.runSet boundSet).partn 0).phys 0) stepClocks = 24 := by decide +kernel

/-- The model has the engine look for its next step after twelve clocks of its core. -/
theorem topLostState_step :
    exec (.matrixStep 0 0 0) topLostState = .next ((topLostState.runSet boundSet).timer 24 (.matrixStep 0 0 0)) := by
  rw [exec_matrixStep_set topLostState_pickStep rfl topLostState_found, State.stepTaken, topLostState_coreClock]

/-- Refutes O46: in the clause of MATRIX_STEP the engine looks for its next step twelve CLOCKs after the one that it has begun, and the model counts
twelve clocks of its core, as R24 and R424 have it (notes/assumptions/4.md). With the top loop lost they are 24 CLOCKs. -/
theorem not_copyAndMatrixEvents : ¬ Obligations.CopyAndMatrixEvents := by
  intro h
  obtain ⟨-, -, -, -, steps, -⟩ := h
  obtain ⟨step, -⟩ := steps topLostState 0 0 0 boundReq topLostState_pickStep
  have heq := Host.Outcome.next.inj (topLostState_step.symm.trans (step rfl boundSet topLostState_found))
  have htimers := congrArg State.timers heq
  rw [topLostState_clock] at htimers
  have hlast : [(24, Event.matrixStep 0 0 0)] = [(12, Event.matrixStep 0 0 0)] := List.append_cancel_left htimers
  exact absurd hlast (by decide)

end Sys2Proof.Machine

/-! Proof of the statement of memory about where an access traps (R62, R64, R241, R445, R511). -/

namespace Sys2Proof.Machine

/-! ### The first check that fails (R241) -/

section

variable {s : State} {us : List Nat} {uses : List RegUse} {accs : State → Fibre → List Acc} {multi : Bool} {a : Acc} {f : Fibre} {t : Trap} {st : Stop}

/-- An address that is no multiple of its alignment. -/
theorem place_misaligned (h : a.ea % a.align ≠ 0) : s.place f a = .error (.trap { cause := cMisalign, addr := a.ea, detail := a.align }) := by
  rw [State.place, if_pos h]

/-- An aligned access that its window does not hold. -/
theorem place_outside (h : a.ea % a.align = 0) (hw : decodeWindow a.ea a.n a.form = .error t) : s.place f a = .error (.trap t) := by
  rw [State.place, if_neg (not_not_intro h), hw]

/-- Poison in the lowest active fibre stops the wave. -/
theorem placeAll_poisoned {g : Fibre → List Acc} (hus : us ≠ []) (h : s.poisonUse (s.fibre (us.headD 0)) uses = some t) :
    s.placeAll uses g multi us = .error (.trap t) := by
  obtain ⟨u, r, rfl⟩ := List.exists_cons_of_ne_nil hus
  rw [List.headD_cons] at h
  rw [State.placeAll, h]

/-- The only access of the lowest active fibre stops the wave. -/
theorem placeAll_stop {g : Fibre → List Acc} (hus : us ≠ []) (hp : s.poisonUse (s.fibre (us.headD 0)) uses = none)
    (ha : g (s.fibre (us.headD 0)) = [a]) (h : s.place (s.fibre (us.headD 0)) a = .error st) : s.placeAll uses g false us = .error st := by
  obtain ⟨u, r, rfl⟩ := List.exists_cons_of_ne_nil hus
  rw [List.headD_cons] at hp ha h
  simp only [State.placeAll, hp, ha, State.placeList, h, Bool.false_eq_true, if_false]

/-- A failing check stops the instruction before it has accessed anything. -/
theorem withAccesses_stop {k : State → List Nat → List Placed → Except Stop (State × List Nat)} (h : s.placeAll uses (accs s) multi us = .error st) :
    withAccesses uses accs multi k s us = .error st := by
  rw [withAccesses, h]

end

/-! ### Instructions of one access for each fibre -/

section

variable {e : Ext}

/-- Each fibre makes one access, of `n` bytes at its effective address, with the alignment of R64. -/
def oneAccess (e : Ext) (n : Nat) (accs : State → Fibre → List Acc) : Prop :=
  ∀ s f, ∃ a : Acc, accs s f = [a] ∧ a.ea = s.ea f e ∧ a.n = n ∧ a.form = e.win ∧ a.align = min n 16

theorem oneAccess_loadAccs {n : Nat} : oneAccess e n (loadAccs e n) := fun _ _ => ⟨_, rfl, rfl, rfl, rfl, rfl⟩
theorem oneAccess_accOf {n kind : Nat} : oneAccess e n (accOf e n kind) := fun _ _ => ⟨_, rfl, rfl, rfl, rfl, rfl⟩
theorem oneAccess_atomicAccs : oneAccess e (atomicSize e.ty) (atomicAccs e) := fun _ _ => ⟨_, rfl, rfl, rfl, rfl, rfl⟩

/-- No atomic is a load. -/
theorem atomics_ne_ld : ∀ x ∈ atomics e, x.1 ≠ .ld e := by
  simp [atomics]

/-- A check that fails stops LD, and ST, ATOM, CAS and RED without a release. -/
theorem accessForms_stop (e : Ext) (s : State) : ∀ x ∈ accessForms e s, Issues s x.2.1 → (x.1 = .ld e ∨ e.sync < 2) →
    ∃ accs, oneAccess e x.2.2.2 accs ∧
      ∀ st, (s.issuedBy x.2.1).placeAll x.2.2.1 (accs (s.issuedBy x.2.1)) false (s.activeSet x.2.1) = .error st →
        exec x.1 s = s.stopped (s.activeSet x.2.1) e.len st := by
  simp only [accessForms, List.forall_mem_append, List.forall_mem_cons, List.forall_mem_map]
  refine ⟨⟨fun h _ => ?ld, fun h hsync => ?st, fun _ h => nomatch h⟩, fun x hx h hsync => ?atomic⟩
  case ld => exact ⟨loadAccs e (accessBytes e), oneAccess_loadAccs, fun st hst => issue_stop h (withAccesses_stop hst)⟩
  case st =>
    have hplain : e.sync < 2 := hsync.resolve_left (by simp)
    exact ⟨accOf e (accessBytes e) 2, oneAccess_accOf, fun st hst => issue_stop h ((releasing_plain hplain).trans (withAccesses_stop hst))⟩
  case atomic =>
    have hplain : e.sync < 2 := hsync.resolve_left (atomics_ne_ld x hx)
    refine ⟨atomicAccs e, oneAccess_atomicAccs, fun st hst => ?_⟩
    rw [exec_atomics s x hx]
    exact issue_stop h ((releaseWaits_ok fun hrel => absurd hplain (by omega)).trans (withAccesses_stop hst))

end

/-- Settles O59, check by check in their order. That the alignment of an access of several registers is at most 16, and so DETAIL, and that the
trap holds the active fibres with the lowest lane in its record, are the model's readings (notes/assumptions/28.md and 8.md). -/
theorem accessTraps : Obligations.AccessTraps := by
  intro e s x hx s1 us f n h hform
  obtain ⟨accs, hone, hstop⟩ := accessForms_stop e s x hx h hform
  obtain ⟨a, haccs, hea, hn, hwin, halign⟩ := hone s1 f
  refine ⟨fun t hp => ?poison, fun hp hmis => ?misalign, fun hp hal t hw => ?window⟩
  case poison => exact hstop _ (placeAll_poisoned h.active hp)
  case misalign =>
    rw [← hea, ← halign] at hmis ⊢
    exact hstop _ (placeAll_stop h.active hp haccs (place_misaligned hmis))
  case window =>
    rw [← hea, ← halign] at hal
    rw [← hea, show n = a.n from hn.symm, ← hwin] at hw
    exact hstop _ (placeAll_stop h.active hp haccs (place_outside hal hw))

end Sys2Proof.Machine

/-! Proof of the statement of memory about what the storing instructions leave unchanged (R70, R91, R215, R241, R243, R251, R252). -/

namespace Sys2Proof.Machine

/-! ### What the issue and the kept translations leave of what a store does not touch -/

section

variable {s : State} {i : Issue}

/-- The issue leaves each fibre's registers. -/
theorem issuedBy_sameRegs (s : State) (i : Issue) (u : Nat) : ((s.issuedBy i).fibre u).sameRegs (s.fibre u) := by
  have h := issuedBy_clockless s i u
  exact ⟨(congrArg Fibre.vregs h :), (congrArg Fibre.preds h :), (congrArg Fibre.flags h :), (congrArg Fibre.ftz h :), (congrArg Fibre.part h :),
    (congrArg Fibre.pipe h :)⟩

/-- The issue leaves each group's s-registers. -/
theorem issuedBy_sregs (s : State) (i : Issue) (k : GroupId) : ((s.issuedBy i).group k).sregs = (s.group k).sregs := by
  obtain ⟨p, q, hgroups⟩ := markIssued_groups s i
  unfold State.group State.group?
  rw [issuedBy_groups, hgroups, find_mapIf (g := fun g : Group => { g with pend := q g }) fun _ _ => rfl]
  cases s.groups.find? fun g => g.is k with
  | none => rfl
  | some g =>
    simp only [Option.map_some, Option.getD_some]
    split <;> rfl

/-- The issue drops words of an L1, and adds none. -/
theorem issuedBy_l1_mem {w : L1Word} (h : w ∈ (s.issuedBy i).l1) : w ∈ s.l1 := by
  rw [issuedBy_l1, State.readTokens] at h
  split at h
  · exact (List.mem_filter.mp h).1
  · exact h

theorem issuedBy_registry (s : State) (i : Issue) : (s.issuedBy i).registry = s.registry := by rw [issuedBy_frame]

/-- Neither the issue nor kept translations name a place for a transaction barrier. -/
theorem keepWalks_issuedBy_txbs (f : Fibre) (ws : List Nat) : ((s.issuedBy i).keepWalks f ws).txbs = s.txbs := by
  rw [(acquired_keepWalks f ws (s.issuedBy i)).rest, issuedBy_frame]

/-- There are as many fibres once the wave has issued. -/
theorem issuedBy_length (s : State) (i : Issue) : (s.issuedBy i).fibres.length = s.fibres.length := by
  rw [State.issuedBy, readTokens_fibres, passPoint_eq]
  split <;> simp [State.updAll, markIssued_marked, mapIf]

end

section

variable {s t : State}

/-- A registry that has lost entries has no new owner. -/
theorem owner_none_of_subset {g key grain : Nat} (h : ∀ r ∈ t.registry, r ∈ s.registry) (ho : s.owner g key grain = none) :
    t.owner g key grain = none := by
  rw [State.owner, Option.map_eq_none_iff, List.find?_eq_none] at ho ⊢
  exact fun r hr => ho r (h r hr)

end

/-! ### Whose the placed accesses are (R241) -/

section

variable {s : State}

theorem placeList_uid {f : Fibre} : ∀ {as : List Acc} {i : Nat} {ps : List Placed} {ws : List Nat}, s.placeList f i as = .ok (ps, ws) →
    ∀ x ∈ ps, x.uid = f.uid := by
  intro as
  induction as with
  | nil => intro i ps ws h; cases h; exact fun _ h => nomatch h
  | cons a r ih =>
    intro i ps ws h
    rw [State.placeList] at h
    split at h
    · cases h
    · split at h
      · cases h
      · rename_i hr
        cases h
        exact List.forall_mem_cons.mpr ⟨rfl, ih hr⟩

/-- Every placed access is one of an active fibre. -/
theorem placeAll_uid {uses : List RegUse} {accs : Fibre → List Acc} {multi : Bool} : ∀ {us : List Nat} {ps : List Placed} {ws : List Nat},
    (∀ u ∈ us, (s.fibre u).uid = u) → s.placeAll uses accs multi us = .ok (ps, ws) → ∀ x ∈ ps, x.uid ∈ us := by
  intro us
  induction us with
  | nil => intro ps ws _ h; cases h; exact fun _ h => nomatch h
  | cons u r ih =>
    intro ps ws hu h
    rw [State.placeAll] at h
    split at h
    · cases h
    · split at h
      · cases h
      · rename_i hlist
        split at h
        · cases h
        · rename_i hrest
          cases h
          refine List.forall_mem_append.mpr ⟨fun x hx => ?_, fun x hx => ?_⟩
          · rw [placeList_uid hlist x hx, hu u List.mem_cons_self]
            exact List.mem_cons_self
          · exact List.mem_cons_of_mem _ (ih (fun v hv => hu v (List.mem_cons_of_mem _ hv)) hrest x hx)

end

/-! ### What the storing instructions write -/

section

variable {s : State} {us : List Nat} {e : Ext} {ps : List Placed} {p : Nat → Prop}

/-- The advance leaves a fibre's registers. -/
theorem advancePc_same (f : Fibre) (n : Nat) : (f.advancePc n).sameRegs f := by
  unfold Fibre.advancePc
  dsimp only
  split
  · split <;> exact ⟨rfl, rfl, rfl, rfl, rfl, rfl⟩
  · exact ⟨rfl, rfl, rfl, rfl, rfl, rfl⟩

theorem stored_advanceCur (len : Nat) (stay : List Nat) : Stored s (s.advanceCur len stay) p :=
  Stored.of_fibres (fun f => advancePc_uid f len) fun f => advancePc_same f len

/-- A release marks words of an L1 (R80). -/
theorem stored_relPost (e : Ext) (r : State × List Nat) (us : List Nat) : Stored r.1 (relPost e r us).1 p := by
  unfold relPost
  split
  · exact Stored.refl _ _
  · exact Stored.foldl us r.1 fun _ _ _ _ => Stored.of_quiet rfl rfl rfl rfl

/-- The stores of placed accesses write to their places alone (R243). -/
theorem stored_storesPost {bytes : State → Fibre → List Byte} (hr : ∀ x ∈ ps, s.replicatedFibre (s.fibre x.uid) = false)
    (hway : ∃ t, s.reserveAll ps = .ok t)
    (ho : ∀ x ∈ ps, ∀ y ∈ x.pieces, y.loc.cached = false ∨ isPeer y.loc = true → ∀ g, s.owner g y.loc.key y.loc.grain = none)
    (hb : ∀ k ∈ s.txbs, ¬ p k) (h : ∀ a, p a → ∀ x ∈ ps, ∀ y ∈ x.pieces, a < y.loc.key ∨ y.loc.key + y.n ≤ a) :
    Stored s (storesPost e bytes s us ps).1 p := by
  obtain ⟨t, ht⟩ := hway
  obtain ⟨lines, rfl⟩ : ∃ lines, t = { s with verLines := lines } := ⟨_, reserveAll_frame ps ht⟩
  rw [storesPost, ht]
  exact Stored.trans (t := { s with verLines := lines }) (Stored.of_quiet rfl rfl rfl rfl) (stored_stores ps _ hr ho hb fun a _ => h a)

/-- A change of the fibres of a list that keeps their numbers and registers. -/
theorem stored_updAll {g : Fibre → Fibre} (hu : ∀ f, (g f).uid = f.uid) (hg : ∀ f, (g f).sameRegs f) : Stored s (s.updAll us g) p :=
  Stored.of_fibres hu hg

/-- A fibre that awaits also what another one awaits: `open_` and the acknowledgements of `peers` writes. -/
def Fibre.awaiting (open_ : List (Nat × Nat × Nat)) (peers : Nat) (f : Fibre) : Fibre :=
  { f with unacked := f.unacked ++ open_.filter (fun x => !f.unacked.contains x), peerUnacked := f.peerUnacked + peers }

/-- What is shared of acknowledgements (R240). -/
theorem stored_shareAcks (lead n : Nat) (us : List Nat) : Stored s (s.shareAcks lead n us) p :=
  (stored_updAll (us := us.filter fun u => u != lead) (g := Fibre.awaiting (s.fibre lead).unacked (s.peerWrites.drop n).length)
    (fun _ => rfl) fun _ => sameRegs_refl _).trans (Stored.of_quiet rfl rfl rfl rfl)

theorem length_leBytes (n x : Nat) : (leBytes n x).length = n := by
  induction n generalizing x with
  | zero => rfl
  | succ n ih => rw [leBytes, List.length_cons, ih]

/-- The stores of an RST write their elements' places alone (R252). -/
theorem stored_reduceStores {d : List Byte} (hr : s.replicatedFibre (s.fibre (us.headD 0)) = false)
    (ho : ∀ x ∈ ps, ∀ y ∈ x.pieces, ∀ g, s.owner g y.loc.key y.loc.grain = none)
    (hb : ∀ k ∈ s.txbs, ¬ p k) (h : ∀ a, p a → ∀ x ∈ ps, ∀ y ∈ x.pieces.take 1, a < y.loc.key ∨ y.loc.key + d.length ≤ a) :
    Stored s (s.reduceStores e d ps us) p := by
  unfold State.reduceStores
  have hall : (ps.filter fun _ => true) = ps := List.filter_eq_self.mpr fun _ _ => rfl
  simp only [hr, Bool.false_and, Bool.false_eq_true, if_false, Bool.not_false, hall]
  have hsigned : Stored s (ps.foldl (fun s x => s.updFibre (us.headD 0) fun f => f.signStore x.ea d) s) p :=
    Stored.foldl ps s fun x _ _ _ => Stored.of_fibre _ (fun f => (signStore_same f x.ea d).2) fun f => (signStore_same f x.ea d).1
  generalize ps.foldl (fun s x => s.updFibre (us.headD 0) fun f => f.signStore x.ea d) s = t at hsigned ⊢
  have htxbs : t.txbs = s.txbs := by rw [hsigned.rest]
  have hreg : t.registry = s.registry := hsigned.reg
  have hfresh : Stored t t.fresh.2 p := Stored.of_quiet rfl rfl rfl rfl
  have hawait : Stored t.fresh.2 (t.fresh.2.updAll us fun f => { f with unacked := f.unacked ++ [reducingKey t.fresh.1] }) p :=
    stored_updAll (fun _ => rfl) fun _ => sameRegs_refl _
  refine hsigned.trans (hfresh.trans (hawait.trans (stored_reduceOn (fun w hw g => ?_) (htxbs ▸ hb) fun a _ ha w hw => ?_)))
  · obtain ⟨x, hx, hw⟩ := List.mem_flatMap.mp hw
    obtain ⟨y, hy, rfl⟩ := List.mem_map.mp hw
    exact owner_none_of_subset (fun r hr => hreg ▸ hr) (ho x hx y (List.mem_of_mem_take hy) g)
  · obtain ⟨x, hx, hw⟩ := List.mem_flatMap.mp hw
    obtain ⟨y, hy, rfl⟩ := List.mem_map.mp hw
    exact h a ha x hx y hy

/-- What a storing instruction does with its checked accesses before its release: each fibre's stores, those of one fibre for the whole wave, or a
reducing store. -/
inductive StoreEffect (e : Ext) (s : State) (us : List Nat) (ps : List Placed) : Instr → State → Prop where
  | each (x : Instr) (hx : x ≠ .rst e) (bytes : State → Fibre → List Byte) : StoreEffect e s us ps x (storesPost e bytes s us ps).1
  | once (x : Instr) (hx : x ≠ .rst e) (bytes : State → Fibre → List Byte) :
    StoreEffect e s us ps x ((storesPost e bytes s us ps).1.shareAcks (us.headD 0) s.peerWrites.length us)
  | reduce (d : List Byte) (hd : d.length = if e.ty.wide then 8 else 4) : StoreEffect e s us ps (.rst e) (s.reduceStores e d ps us)

/-- A storing instruction, its checks passed, has such an effect, and releases where it is a release. -/
theorem exec_storeForms {s : State} {ws : List Nat} : ∀ x ∈ storeForms e, Issues s x.2.1 → relPre e (s.issuedBy x.2.1) (s.activeSet x.2.1) →
    x.2.2 (s.issuedBy x.2.1) (s.activeSet x.2.1) = .ok (ps, ws) →
    let us := s.activeSet x.2.1
    let s1 := s.issuedBy x.2.1
    let s2 := s1.keepWalks (s1.fibre (us.headD 0)) ws
    notCommit s2 us → (x.1 ≠ .rst e → storePre s2 us ps) →
    (∀ y, x.1 = .rst y → s1.poisonUse (s1.fibre (us.headD 0)) (usesOf 0x22 1 e) = none ∧
      noPoison [⟨false, e.d.toNat, if e.ty.wide then 2 else 1, true, false⟩] s1 us ∧
      extraOk.redTypeOk ((s1.srcC (s1.fibre (us.headD 0)) e true).val.toNat / 16 % 8) e.ty = true) →
    ∃ r : State × List Nat, StoreEffect e s2 us ps x.1 r.1 ∧ exec x.1 s = .next ((relPost e r us).1.advanceCur e.len (relPost e r us).2) := by
  have hrows := memoryInstructions e
  simp only [memoryRows, List.forall_mem_cons] at hrows
  obtain ⟨-, -, -, hst, hmst, hrst, hsst, -⟩ := hrows
  simp only [storeForms, List.forall_mem_cons]
  refine ⟨?st, ?mst, ?rst, ?sst, fun _ h => nomatch h⟩
  case st =>
    intro h hrel hplace hcommit hpre _
    have hexec := hst s h ⟨hrel, ps, ws, hplace, hpre (by simp)⟩
    dsimp only at hexec
    rw [placedPost, hplace] at hexec
    exact ⟨_, .each _ (by simp) _, hexec⟩
  case mst =>
    intro h hrel hplace hcommit hpre _
    have hexec := hmst s h ⟨hrel, ps, ws, hplace, hpre (by simp)⟩
    dsimp only at hexec
    rw [placedPost, hplace] at hexec
    exact ⟨_, .each _ (by simp) _, hexec⟩
  case rst =>
    intro h hrel hplace hcommit _ hrst'
    obtain ⟨hlead, hcontrib, hop⟩ := hrst' e rfl
    have hexec := hrst s h ⟨hrel, hlead, hcontrib, hop, ps, ws, hplace, by rw [headD_take_one]; exact hcommit⟩
    dsimp only at hexec
    rw [placedPost, hplace] at hexec
    dsimp only at hexec
    rw [headD_take_one] at hexec
    exact ⟨_, .reduce _ (length_leBytes _ _), hexec⟩
  case sst =>
    intro h hrel hplace hcommit hpre _
    have hexec := hsst s h ⟨hrel, ps, ws, hplace, by rw [headD_take_one]; exact hpre (by simp)⟩
    dsimp only at hexec
    rw [placedPost, hplace] at hexec
    dsimp only at hexec
    rw [headD_take_one] at hexec
    exact ⟨_, .once _ (by simp) _, hexec⟩

/-- Such an effect writes to the places that the instruction stores to alone. -/
theorem StoreEffect.stored {x : Instr} {u : State} (h : StoreEffect e s us ps x u) (hr : ∀ y ∈ ps, s.replicatedFibre (s.fibre y.uid) = false)
    (hlead : s.replicatedFibre (s.fibre (us.headD 0)) = false) (hway : x ≠ .rst e → ∃ t, s.reserveAll ps = .ok t) (ho : directFree s x e ps)
    (hb : ∀ k ∈ s.txbs, ¬ p k) (hp : ∀ a, p a → ∀ r ∈ storedSpans x e ps, a < r.1 ∨ r.1 + r.2 ≤ a) : Stored s u p := by
  have hstores (bytes) (hx : x ≠ .rst e) : Stored s (storesPost e bytes s us ps).1 p := by
    refine stored_storesPost hr (hway hx) (fun z hz y hy hc => ho z hz y hy (hc.imp_right .inl)) hb fun a ha z hz y hy => hp a ha (y.loc.key, y.n) ?_
    rw [storedSpans, if_neg hx]
    exact List.mem_flatMap.mpr ⟨z, hz, List.mem_map.mpr ⟨y, hy, rfl⟩⟩
  cases h with
  | each _ hx bytes => exact hstores bytes hx
  | once _ hx bytes => exact (hstores bytes hx).trans (stored_shareAcks _ _ _)
  | reduce d hd =>
    refine stored_reduceStores hlead (fun z hz y hy => ho z hz y hy (.inr (.inr rfl))) hb fun a ha z hz y hy => hp a ha (y.loc.key, d.length) ?_
    rw [storedSpans, if_pos rfl, hd]
    exact List.mem_flatMap.mpr ⟨z, hz, List.mem_map.mpr ⟨y, hy, rfl⟩⟩

/-- The places that a storing instruction takes are those of active fibres. -/
theorem storeForms_uid {ws : List Nat} (hu : ∀ u ∈ us, (s.fibre u).uid = u) :
    ∀ x ∈ storeForms e, x.2.2 s us = .ok (ps, ws) → ∀ y ∈ ps, y.uid ∈ us := by
  have hone : ∀ u ∈ us.take 1, (s.fibre u).uid = u := fun u h => hu u (List.mem_of_mem_take h)
  simp only [storeForms, List.forall_mem_cons]
  exact ⟨placeAll_uid hu, placeAll_uid hu, fun h y hy => List.mem_of_mem_take (placeAll_uid hone h y hy),
    fun h y hy => List.mem_of_mem_take (placeAll_uid hone h y hy), fun _ h => nomatch h⟩

/-- The places of accesses that go round the L1 are as free once the wave has issued and translations are kept. -/
theorem directFree_keepWalks {i : Issue} {f : Fibre} {ws : List Nat} {x : Instr} (h : directFree s x e ps) :
    directFree ((s.issuedBy i).keepWalks f ws) x e ps := fun y hy z hz hc g =>
  owner_none_of_subset (fun r hr => issuedBy_registry s i ▸ (acquired_keepWalks f ws (s.issuedBy i)).reg r hr) (h y hy z hz hc g)

/-- The issue, kept translations and then stores that spare what `p` names: registers, s-registers, partitions, pipelines and the number of fibres
stay, and so does each spared byte under no released word. -/
theorem Stored.frame {i : Issue} {f : Fibre} {ws : List Nat} {t : State} (h : Stored ((s.issuedBy i).keepWalks f ws) t p) :
    (Memory.wf s.mem = true → ∀ a, a < 16 * spaceSize → p a → s.unreleased a → t.byte a = s.byte a) ∧
      (∀ u, (t.fibre u).sameRegs (s.fibre u)) ∧ (∀ k, (t.group k).sregs = (s.group k).sregs) ∧ t.parts = s.parts ∧ t.pipes = s.pipes ∧
      t.fibres.length = s.fibres.length := by
  have hkeep := acquired_keepWalks f ws (s.issuedBy i)
  obtain ⟨hfibres, hgroups, hpipes, hparts, -⟩ := hkeep.same
  have hgroups' : t.groups = (s.issuedBy i).groups := by rw [h.rest]; exact hgroups
  have hparts' : t.parts = (s.issuedBy i).parts := by rw [h.rest]; exact hparts
  have hpipes' : t.pipes = (s.issuedBy i).pipes := by rw [h.rest]; exact hpipes
  refine ⟨fun hw a ha hp hl => ?_, fun u => ?_, fun k => ?_, hparts'.trans (issuedBy_parts s i), hpipes'.trans (issuedBy_pipes s i), ?_⟩
  · have hw1 : Memory.wf (s.issuedBy i).mem = true := by rw [issuedBy_mem]; exact hw
    calc t.byte a = ((s.issuedBy i).keepWalks f ws).byte a := h.byte (hkeep.wf hw1) a ha hp
      _ = (s.issuedBy i).byte a := keepWalks_byte f ws _ hw1 fun w hx => hl w (issuedBy_l1_mem hx)
      _ = s.byte a := byte_congr (issuedBy_mem s i)
  · have hregs := h.regs u
    rw [keepWalks_fibre] at hregs
    exact sameRegs_trans hregs (issuedBy_sameRegs s i u)
  · rw [← issuedBy_sregs s i k, State.group, State.group, State.group?, State.group?, hgroups']
  · rw [h.len, hfibres, issuedBy_length]

end

/-- A byte outside the spans that a storing instruction writes, where no transaction barrier is named. -/
def State.sparedBy (s : State) (x : Instr) (e : Ext) (ps : List Placed) (a : Nat) : Prop :=
  (∀ r ∈ storedSpans x e ps, a < r.1 ∨ r.1 + r.2 ≤ a) ∧ a ∉ s.txbs

/-- Settles O58: a storing instruction has one of the three effects, and neither it nor the release and the advance after it touch anything else. -/
theorem storeFrame : Obligations.StoreFrame := by
  intro e x hx s t ps ws s1 us s2 h hrel hplace hcommit hpre hrst hwf hfree hexec
  obtain ⟨r, heffect, hnext⟩ := exec_storeForms x hx h hrel hplace hcommit hpre hrst
  have hfound : ∀ u ∈ us, (s1.fibre u).uid = u := fun u hu => fibre_uid (issuedBy_has (h.found u (active_mem h.found hu)))
  have hsingle : s2.unreplicated us := keepWalks_unreplicated _ ws (issued_single h)
  have hlead : us.headD 0 ∈ us := by
    obtain ⟨u, vs, hus⟩ := List.exists_cons_of_ne_nil h.active
    rw [show us = u :: vs from hus]
    exact List.mem_cons_self
  have hstored : Stored s2 r.1 (s.sparedBy x.1 e ps) :=
    heffect.stored (fun y hy => hsingle y.uid (storeForms_uid hfound x hx hplace y hy)) (hsingle _ hlead) (fun hne => (hpre hne).2)
      (directFree_keepWalks hfree) (fun k hk hp => hp.2 (keepWalks_issuedBy_txbs _ ws ▸ hk)) fun a hp => hp.1
  obtain rfl := Host.Outcome.next.inj (hnext.symm.trans hexec)
  obtain ⟨hbyte, hregs, hsregs, hparts, hpipes, hlen⟩ := (hstored.trans ((stored_relPost e r us).trans (stored_advanceCur _ _))).frame
  refine ⟨fun a hspans ha htxb hl => hbyte hwf a ha ⟨hspans, htxb⟩ hl, fun u => ?_, hsregs, hparts, hpipes, hlen⟩
  obtain ⟨hv, hpred, hflags, hftz, -⟩ := hregs u
  exact ⟨hv, hpred, hflags, hftz⟩

end Sys2Proof.Machine

/-! Proof of the statements of the matrix instructions (R272, R273, R280 to R287). -/

namespace Sys2Proof.Machine

/-! ### MZERO (R283) -/

section

variable {f : Fibre} {n : Nat} {xs : List PWord}

theorem setRange_uid (f : Fibre) (n : Nat) (xs : List PWord) : (f.setRange n xs).uid = f.uid := by
  induction xs generalizing f n with
  | nil => rfl
  | cons x xs ih => exact ih (f.setV n x) (n + 1)

/-- A v-register that a range write leaves alone. -/
theorem v_setRange_outside {m : Nat} (h : mapWf zeroWord f.vregs) (hm : m < n ∨ n + xs.length ≤ m) : (f.setRange n xs).v m = f.v m := by
  induction xs generalizing f n with
  | nil => rfl
  | cons x xs ih =>
    rw [List.length_cons] at hm
    have hne : m ≠ n := by omega
    rw [Fibre.setRange, ih (setV_wf h) (by omega), v_setV h, if_neg hne]

/-- A v-register of a range just written with an element without poison. -/
theorem v_setRange_inside {k : Nat} (h : mapWf zeroWord f.vregs) (hk : k < xs.length) (hp : xs[k].poison = false) :
    (f.setRange n xs).v (n + k) = xs[k] := by
  induction xs generalizing f n k with
  | nil => exact absurd hk k.not_lt_zero
  | cons x xs ih =>
    cases k with
    | zero =>
      have hx : x.poison = false := hp
      show ((f.setV n x).setRange (n + 1) xs).v n = x
      rw [v_setRange_outside (setV_wf h) (.inl n.lt_add_one), v_setV h, if_pos rfl, hx]
      rfl
    | succ k =>
      have hidx : n + (k + 1) = n + 1 + k := by omega
      rw [Fibre.setRange, hidx]
      exact ih (setV_wf h) (Nat.lt_of_succ_lt_succ hk) hp

end

/-- The issue leaves the step sets, the tiles and the slots of the matrix engines as they are. -/
theorem issuedBy_engines (s : State) (i : Issue) :
    (s.issuedBy i).stepSets = s.stepSets ∧ (s.issuedBy i).tmmas = s.tmmas ∧ (s.issuedBy i).mxe = s.mxe := by
  rw [issuedBy_frame]
  exact ⟨rfl, rfl, rfl⟩

/-- A row of MZERO writes sixteen zeros in each active fibre. -/
theorem mzeroRow_completes (e : Ext) :
    (rowE (.mzero e) 0x28 3 e fun e _ f => f.setRange e.d.toNat (List.replicate 16 zeroWord)).completes :=
  rowE_completes (fun _ => rfl) fun _ f => setRange_uid f ..

/-- Settles O37: MZERO acts in each active fibre as a write of a range, and the rest of the state is as the issue left it. -/
theorem matrixZero : Obligations.MatrixZero := by
  refine ⟨rfl, fun e s h => ?_⟩
  obtain ⟨t, hexec, hretires⟩ := mzeroRow_completes e s h fun _ _ => rfl
  obtain ⟨hsets, htiles, hslots⟩ := issuedBy_engines s (issueOf 0x28 3 e e.len)
  have hframe := hretires.frame
  refine ⟨t, hexec, hretires, (congrArg State.stepSets hframe).trans hsets, (congrArg State.tmmas hframe).trans htiles,
    (congrArg State.mxe hframe).trans hslots, fun f hwf k hk => ⟨?_, fun m hm => v_setRange_outside hwf hm⟩⟩
  have hin : k < (List.replicate 16 zeroWord).length := by rwa [List.length_replicate]
  rw [v_setRange_inside hwf hin (by rw [List.getElem_replicate, zeroWord]), List.getElem_replicate, zeroWord]

/-! ### Step sets, tiles and slots (R272, R273, R280, R285 to R287) -/

/-- MMA or MMAS, where the check of each active fibre names its round (R272). -/
theorem mmaRow_completes {e : Ext} {instr : Instr} {minor : Nat} (hexec : ∀ s, exec instr s = s.issue (issueOf 0x28 minor e e.len) (mmaBody minor e)) :
    (mmaRow instr minor e).completes := by
  refine completes_of_body hexec fun s us hchecks => ?_
  rw [mmaBody]
  split
  next t ht =>
    obtain ⟨u, hu, hstop⟩ := List.exists_of_findSome?_eq_some ht
    obtain ⟨r, hr⟩ := hchecks u hu
    rw [hr] at hstop
    cases hstop
  next => rfl

/-- Settles O38, row by row: past the checks each body is the row's effect. That a TMMA whose NEXT equals the number of its steps completes without
binding an engine is the model's choice (notes/assumptions/39.md). -/
theorem matrixInstructions : Obligations.MatrixInstructions := by
  intro e
  simp only [matrixRows, List.forall_mem_cons]
  refine ⟨?mma, ?mmas, ?tmma, ?mslot, ?mstat, fun _ h => nomatch h⟩
  case mma => exact mmaRow_completes fun _ => rfl
  case mmas => exact mmaRow_completes fun _ => rfl
  case tmma =>
    refine completes_of_body (fun _ => rfl) fun s us ⟨hcommit, hpoison, hchecks, hengine⟩ => ?_
    rw [cleanLead] at hpoison
    rw [notCommitting_ok hcommit]
    simp only [oncePerWave, tmmaBody, hpoison, hchecks]
    split
    next => rfl
    next hsteps =>
      obtain ⟨g, hg⟩ := hengine hsteps
      simp only [hg]
      rfl
  case mslot =>
    refine completes_of_body (fun _ => rfl) fun s us (hpoison : cleanLead 0x29 0 e s us) => ?_
    rw [cleanLead] at hpoison
    simp only [oncePerWave, hpoison]
  case mstat =>
    refine completes_of_body (fun _ => rfl) fun s us (hpoison : cleanLead 0x29 1 e s us) => ?_
    rw [cleanLead] at hpoison
    simp only [oncePerWave, hpoison]

end Sys2Proof.Machine

/-! Proof of the statement of futures, flips and interval checkpoints (R290 to R301). -/

namespace Sys2Proof.Machine

section

variable {s : State} {us : List Nat} {e : Ext}

/-- Past the check of poison in what the lowest fibre reads, for an instruction that a fibre of any tag may issue (R290). -/
theorem futChecks_any {minor major : Nat} {k : State → Fibre → List Nat → Except Stop (State × List Nat)} (hpoison : cleanLead major minor e s us) :
    futChecks minor false e major k s us = k s (s.fibre (us.headD 0)) us := by
  rw [cleanLead] at hpoison
  simp only [futChecks, oncePerWave, hpoison, Bool.false_eq_true, if_false]

/-- Past that check and that of the trunk issuer (R290). -/
theorem futChecks_trunk {minor major : Nat} {k : State → Fibre → List Nat → Except Stop (State × List Nat)} (hpoison : cleanLead major minor e s us)
    (htrunk : (s.fibre (us.headD 0)).tag = 0) : futChecks minor true e major k s us = k s (s.fibre (us.headD 0)) us := by
  rw [cleanLead] at hpoison
  simp only [futChecks, oncePerWave, hpoison, State.notTrunk, htrunk, if_true]

/-- FUT.WAIT, whose tag has ended, or where some fibre's wait is over (R206, R297). -/
theorem futWaitRow_completes {instr : Instr} {ended : Nat → Prop} {ended' : Nat → Bool} {w : Nat → Wait}
    (hexec : ∀ s, exec instr s = futWait e ended' w s) (hended : ∀ n, ended n → ended' n = true) : (futWaitRow instr e ended).completes := by
  refine completes_of_body hexec fun s us ⟨hpoison, hdone⟩ => ?_
  rw [futChecks_any hpoison]
  dsimp only [futWaitRow]
  by_cases hserved : servedOnly s us = []
  · simp only [hserved, List.isEmpty_nil, Bool.not_true, Bool.false_eq_true, if_false, hended _ (hdone hserved), if_true]
  · simp only [List.isEmpty_eq_false_iff.mpr hserved, Bool.not_false, if_true]

end

/-- Settles O39, row by row: past the checks each body is the row's effect. That ICKPT asks for a boundary, and that a FUT.COMMIT on a LIVE tag whose
sibling is COMMITTING reads 0x101, are readings of the model (notes/assumptions/43.md and 84.md). -/
theorem futureInstructions : Obligations.FutureInstructions := by
  intro e
  simp only [futureRows, List.forall_mem_cons]
  refine ⟨?split, ?enter, ?commit, ?squash, ?stat, ?done, ?free, ?flip, ?ickpt, fun _ h => nomatch h⟩
  case split =>
    refine completes_of_body (fun _ => rfl) fun s us ⟨hpoison, htrunk, hmin, hmax, hroom⟩ => ?_
    rw [futChecks_trunk hpoison htrunk]
    dsimp only at hmin hmax hroom ⊢
    rw [if_neg (by omega), if_neg (by omega)]
    rfl
  case enter =>
    refine completes_of_body (fun _ => rfl) fun s us ⟨hpoison, htrunk⟩ => ?_
    rw [notPoisoned_ok hpoison, illegalIf_ok fun u hu => bne_eq_false_iff_eq.mpr (htrunk u hu)]
    refine inLaneOrder_ok (fun s u => ?_) s us
    simp only [apply_ite Except.ok]
    rfl
  case commit =>
    refine completes_of_body (fun _ => rfl) fun s us ⟨hpoison, htrunk⟩ => ?_
    rw [futChecks_trunk hpoison htrunk]
    simp only [apply_ite Except.ok]
    rfl
  case squash =>
    refine completes_of_body (fun _ => rfl) fun s us hpoison => ?_
    rw [futChecks_any hpoison]
    simp only [apply_ite Except.ok, apply_ite (Prod.mk _)]
    rfl
  case stat =>
    refine completes_of_body (fun _ => rfl) fun s us hpoison => ?_
    rw [futChecks_any hpoison]
  case done => exact futWaitRow_completes (fun s => (rfl : _ = execFutWaitDone e s)) fun n h => by simpa [tagLive, tagCommitting] using h
  case free => exact futWaitRow_completes (fun s => (rfl : _ = execFutWaitFree e s)) fun n h => by simpa [tagFree] using h
  case flip =>
    refine completes_of_body (fun _ => rfl) fun s us ⟨hcommit, hpoison, hbase, hacked⟩ => ?_
    rw [notCommitting_ok hcommit, futChecks_any hpoison]
    dsimp only at hbase hacked ⊢
    simp only [hbase]
    split
    next => rfl
    next howned =>
      rw [not_or] at howned
      obtain ⟨hk, hres⟩ := howned
      have hwait : (us.any fun u => !(s.fibre u).acked) = false := by
        simpa using hacked (by omega) (by simpa using hres)
      rw [hwait]
      rfl
  case ickpt =>
    refine completes_of_body (fun _ => rfl) fun s us ⟨hpoison, htrunk⟩ => ?_
    rw [futChecks_trunk hpoison htrunk]

end Sys2Proof.Machine

/-! Proofs of the statements of rendering: rays and beams (R316 to R324), textures (R329 to R332) and the shading atlas (R325 to R328). -/

namespace Sys2Proof.Machine

/-! ### The checks of rendering instructions (R59, R306, R334) -/

section

variable {s : State} {us : List Nat} {e : Ext} {b : Body}

/-- Past the checks that every rendering instruction makes first: no tag COMMITTING, no poison. -/
theorem renderChecks_ok {major minor : Nat} (hcommit : notCommit s us) (hpoison : noPoison (readUses major minor e) s us) :
    renderChecks major minor e b s us = b s us := by
  rw [renderChecks, notCommitting_ok hcommit, notPoisoned_ok hpoison]

/-- A request that is taken at once finds room in the vertical port's window. -/
theorem portRoom_none_ok (hopen : portOpen s us) : portRoom none b s us = b s us := by
  rw [portOpen] at hopen
  simp only [portRoom, hopen, Bool.false_eq_true, if_false]

/-- So does one for an engine that keeps its requests in order, behind none of them. -/
theorem portRoom_some_ok {g : Nat} (hopen : portOpen s us)
    (hclear : ((s.vport (s.fibre (us.headD 0)).part (s.fibre (us.headD 0)).onCore).window.any fun x => x.1 == g) = false) :
    portRoom (some g) b s us = b s us := by
  rw [portOpen] at hopen
  simp only [portRoom, hopen, hclear, Bool.false_eq_true, if_false]

/-- Kept translations leave the vertical ports and the s-registers as they are. -/
@[simp] theorem keepWalks_vport (f : Fibre) (ws : List Nat) (part core : Nat) : (s.keepWalks f ws).vport part core = s.vport part core := by
  rw [(acquired_keepWalks f ws s).rest]
  rfl

@[simp] theorem keepWalks_sC (f g : Fibre) (ws : List Nat) : (s.keepWalks f ws).sC g e = s.sC g e := by
  rw [(acquired_keepWalks f ws s).rest]
  rfl

@[simp] theorem keepWalks_sA (f g : Fibre) (ws : List Nat) : (s.keepWalks f ws).sA g e = s.sA g e := by
  rw [(acquired_keepWalks f ws s).rest]
  rfl

end

/-! ### Rays and beams (R316 to R324) -/

section

variable {e : Ext}

/-- TRACE and TRACE.AH, where the check of each active fibre names its structure (R316). -/
theorem traceRow_completes {instr : Instr} {ah : Bool} (hexec : ∀ s, exec instr s = trace e ah s) : (traceRow instr ah e).completes := by
  refine completes_of_body hexec fun s us ⟨hcommit, hpoison, hchecks⟩ => ?_
  rw [renderChecks_ok hcommit hpoison]
  dsimp only
  split
  next t ht =>
    obtain ⟨u, hu, hstop⟩ := List.exists_of_findSome?_eq_some ht
    obtain ⟨r, hr⟩ := hchecks u hu
    rw [hr] at hstop
    cases hstop
  next => rfl

/-- A fibre with a bound ray whose candidate has, or has not, been delivered is past the check of RAYGET and of the three answers. -/
theorem illegalIf_boundRays {shown : Bool} {s : State} {us : List Nat} {b : Body} {p : State → Fibre → Bool} (h : boundRays shown s us)
    (hp : ∀ f r, s.bound? f = some r → r.shown = shown → p s f = false) : illegalIf p b s us = b s us :=
  illegalIf_ok fun u hu => by
    obtain ⟨r, hr, hshown⟩ := h u hu
    exact hp _ r hr hshown

/-- HITACC, HITREJ and HITEND (R318). -/
theorem hitRow_completes {instr : Instr} {minor answer : Nat} (hexec : ∀ s, exec instr s = decideHit minor answer e s) :
    (hitRow instr minor answer e).completes := by
  refine completes_of_body hexec fun s us ⟨hcommit, hbound, hopen⟩ => ?_
  rw [notCommitting_ok hcommit, illegalIf_boundRays hbound fun f r hr hshown => by simp only [hr, hshown, Bool.not_true], portRoom_none_ok hopen]
  rfl

end

/-- Settles O40, row by row. That a marked view record gives a poisoned token and no work (notes/assumptions/46.md), and that the instructions wait for
room in the window of the vertical port (82.md), are the model's choices. -/
theorem rayInstructions : Obligations.RayInstructions := by
  intro e
  simp only [rayRows, List.forall_mem_cons]
  refine ⟨?trace, ?traceAh, ?rayget, ?hitacc, ?hitrej, ?hitend, ?beam, ?marked, fun _ h => nomatch h⟩
  case trace => exact traceRow_completes fun _ => rfl
  case traceAh => exact traceRow_completes fun _ => rfl
  case rayget =>
    refine completes_of_body (fun _ => rfl) fun s us ⟨hcommit, hbound, hopen⟩ => ?_
    rw [notCommitting_ok hcommit, illegalIf_boundRays hbound fun f r hr hshown => by simp only [hr, hshown], portRoom_none_ok hopen]
    refine inLaneOrder_ok (fun s u => ?_) s us
    rw [State.raygetOne]
    cases s.bound? (s.fibre u) with
    | none => rfl
    | some r =>
      dsimp only
      cases r.ready with
      | none => rfl
      | some x => obtain ⟨rec, _ | _⟩ := x <;> rfl
  case hitacc => exact hitRow_completes fun _ => rfl
  case hitrej => exact hitRow_completes fun _ => rfl
  case hitend => exact hitRow_completes fun _ => rfl
  case beam =>
    refine completes_of_body (fun _ => rfl) fun s us ⟨hcommit, hpoison, hopen, ps, ws, v, c, g, rows, hplace, hgood, hview, hcull, hgen, hrows⟩ => ?_
    rw [renderChecks_ok hcommit hpoison]
    rw [viewAcc] at hplace
    rw [portOpen] at hopen
    dsimp only [oncePerWave]
    simp only [hplace, hgood, hview, hgen, hrows, State.beamOn, keepWalks_sC, keepWalks_sA, keepWalks_vport, hopen, hcull, orSame, viewAcc,
      Bool.false_eq_true, if_false]
    rfl
  case marked =>
    refine completes_of_body (fun _ => rfl) fun s us ⟨hcommit, hpoison, ps, ws, hplace, hbad⟩ => ?_
    rw [renderChecks_ok hcommit hpoison]
    rw [viewAcc] at hplace
    dsimp only [oncePerWave]
    simp only [hplace, hbad, if_true]

/-! ### Textures and the shading atlas (R325 to R333) -/

section

variable {s t : State} {us : List Nat} {e : Ext} {f : Fibre} {va desc : Nat} {bad : Bool}

/-- The read of a texture descriptor keeps the translations of its access and changes nothing else. -/
theorem readTex_frame (h : s.readTex f va = .ok (desc, bad, t)) : ∃ ws, t = s.keepWalks f ws := by
  unfold State.readTex at h
  split at h
  next => cases h
  next ps ws _ =>
    cases h
    exact ⟨ws, rfl⟩

/-- So the window of the vertical port has the room that it had. -/
theorem portOpen_readTex (h : s.readTex f va = .ok (desc, bad, t)) (hopen : portOpen s us) : portOpen t us := by
  obtain ⟨ws, rfl⟩ := readTex_frame h
  rwa [portOpen, keepWalks_fibre, keepWalks_vport]

/-- The width of an atlas is a multiple of 8, and any other descriptor passes the check of TEX and TEXG (R329). -/
theorem widthCheck_ok {atl bad : Bool} {w : Nat} (h : atl = true → w % 8 = 0) : (bad || !(atl && w % 8 != 0)) = true := by
  have hw : (atl && w % 8 != 0) = false := by
    cases atl with
    | false => rfl
    | true => exact bne_eq_false_iff_eq.mpr (h rfl)
  rw [hw, Bool.not_false, Bool.or_true]

/-- TEX and TEXG, whose descriptor is taken (R329 to R331). -/
theorem texRow_completes {instr : Instr} {minor : Nat} (hexec : ∀ s, exec instr s = texture minor e s) : (texRow instr minor e).completes := by
  refine completes_of_body hexec fun s us ⟨hcommit, hpoison, desc, bad, t, hread, hgood⟩ => ?_
  rw [renderChecks_ok hcommit hpoison]
  dsimp only [texRow]
  rcases hgood with rfl | ⟨x, hx, hwidth⟩
  · simp only [hread, orSame, Bool.true_or, Bool.not_true, Bool.false_eq_true, if_false]
    rfl
  · simp only [hread, hx, widthCheck_ok hwidth, orSame, Bool.not_true, Bool.false_eq_true, if_false]
    rfl

/-- ATLREQ and ATLMAP, whose AtlasOps all pass their checks (R326 to R328). -/
theorem atlasRow_completes {instr : Instr} {minor : Nat} {insert : Bool}
    (hexec : ∀ s, exec instr s = s.issue { issueOf 0x32 minor e e.len with once := true, take := if insert then takeAtlas e else fun s _ _ => s }
      (renderChecks 0x32 minor e (portRoom (some 2) fun s us => atlasAll e insert (s.sB (s.fibre (us.headD 0)) e).toNat s us))) :
    (atlasRow instr minor insert e).completes := by
  refine completes_of_body hexec fun s us ⟨hcommit, hpoison, hopen, hclear, r, hops⟩ => ?_
  rw [renderChecks_ok hcommit hpoison, portRoom_some_ok hopen hclear, hops]
  dsimp only [atlasRow]
  rw [hops, orSame]

end

/-- Settles O41, row by row. The level that TEXQ reads (notes/assumptions/45.md), the answer to a marked descriptor (46.md), when the atlas instructions
act (47.md) and their wait for the window of the vertical port (82.md) are the model's choices. -/
theorem textureInstructions : Obligations.TextureInstructions := by
  intro e
  refine ⟨?_, ?_⟩
  · simp only [textureRows, List.forall_mem_cons]
    refine ⟨?tex, ?texg, ?texq, ?marked, fun _ h => nomatch h⟩
    case tex => exact texRow_completes fun _ => rfl
    case texg => exact texRow_completes fun _ => rfl
    case texq =>
      refine completes_of_body (fun _ => rfl) fun s us ⟨hcommit, hpoison, hopen, desc, t, x, hread, hdesc⟩ => ?_
      rw [renderChecks_ok hcommit hpoison]
      dsimp only
      simp only [hread, hdesc, orSame, portRoom_none_ok (portOpen_readTex hread hopen), Bool.false_eq_true, if_false]
    case marked =>
      refine completes_of_body (fun _ => rfl) fun s us ⟨hcommit, hpoison, hopen, t, hread⟩ => ?_
      have hdesc : ∃ x, parseTex 0 = some x := ⟨_, rfl⟩
      obtain ⟨x, hx⟩ := hdesc
      rw [renderChecks_ok hcommit hpoison]
      dsimp only
      simp only [hread, hx, orSame, portRoom_none_ok (portOpen_readTex hread hopen), if_true]
  · simp only [atlasRows, List.forall_mem_cons]
    refine ⟨?atlreq, ?atlmap, fun _ h => nomatch h⟩
    case atlreq => exact atlasRow_completes fun _ => rfl
    case atlmap => exact atlasRow_completes fun _ => rfl

end Sys2Proof.Machine

/-! Proofs of the statements of the builder (R337 to R359) and of replication (R363 to R376). -/

namespace Sys2Proof.Machine

/-! ### Building, publishing and querying structures (R337 to R358) -/

section

variable {e : Ext}

/-- BLD.BUILD, BLD.REFIT and BLD.REBAL: a descriptor within the rules queues a job, and a marked one poisons its token (R354, R465). -/
theorem jobRows_complete {instr : Instr} {kind : Nat} (hexec : ∀ s, exec instr s = buildJob kind e s) : ∀ r ∈ jobRows instr kind e, r.completes := by
  simp only [jobRows, List.forall_mem_cons]
  refine ⟨?queued, ?marked, fun _ h => nomatch h⟩
  case queued =>
    refine completes_of_body hexec fun s us ⟨⟨hcommit, hpoison⟩, ps, ws, hplace, hgood, hok⟩ => ?_
    rw [renderChecks_ok hcommit hpoison]
    dsimp only [oncePerWave]
    simp only [hplace, hgood, hok, orSame, Bool.not_true, Bool.false_eq_true, if_false]
    rfl
  case marked =>
    refine completes_of_body hexec fun s us ⟨⟨hcommit, hpoison⟩, ps, ws, hplace, hbad⟩ => ?_
    rw [renderChecks_ok hcommit hpoison]
    dsimp only [oncePerWave]
    simp only [hplace, hbad, orSame, if_true]

end

/-- Settles O43, row by row. That a marked job descriptor gives a poisoned token and no job is the model's choice (R465; notes/assumptions/46.md). -/
theorem builderInstructions : Obligations.BuilderInstructions := by
  intro e
  simp only [builderRows, List.forall_mem_append, List.forall_mem_cons]
  refine ⟨⟨⟨?build, ?refit⟩, ?rebal⟩, ?pub, ?pin, ?unpin, ?gen, ?qual, fun _ h => nomatch h⟩
  case build => exact jobRows_complete fun _ => rfl
  case refit => exact jobRows_complete fun _ => rfl
  case rebal => exact jobRows_complete fun _ => rfl
  case pub =>
    refine completes_of_body (fun _ => rfl) fun s us ⟨hcommit, hpoison, hacked, hidle⟩ => ?_
    rw [renderChecks_ok hcommit hpoison, afterAcks_ok hacked]
    change oncePerWave _ (released s us) us = _
    dsimp only [oncePerWave]
    generalize released s us = t at hidle ⊢
    generalize t.fibre (us.headD 0) = f at hidle ⊢
    cases hc : t.structOf f.part (t.sA f e) with
    | none => rfl
    | some c =>
      have hbusy : t.busy c (t.genTag f.part f.tag c.top) = false := hidle c hc
      simp only [hbusy, Bool.false_eq_true, if_false]
      cases c.staged.find? fun x => x.1 == t.genTag f.part f.tag c.top with
      | none => rfl
      | some x => exact (apply_ite Except.ok _ _ _).symm
  case pin =>
    refine completes_of_body (fun _ => rfl) fun s us ⟨hcommit, hpoison⟩ => ?_
    rw [renderChecks_ok hcommit hpoison]
    dsimp only [oncePerWave]
    generalize s.fibre (us.headD 0) = f
    generalize s.acquire f 4 = t
    cases (t.structOf f.part (t.sA f e)).bind fun c => (t.currentGen f.part f.tag c).map fun g => (c, g) with
    | none => rfl
    | some x => exact (apply_ite Except.ok _ _ _).symm
  case unpin =>
    refine completes_of_body (fun _ => rfl) fun s us ⟨hcommit, hpoison⟩ => ?_
    rw [renderChecks_ok hcommit hpoison]
    dsimp only [oncePerWave]
    generalize s.fibre (us.headD 0) = f
    cases s.structOf f.part (s.sA f e) with
    | none => rfl
    | some c => exact (apply_ite Except.ok _ _ _).symm
  case gen =>
    refine completes_of_body (fun _ => rfl) fun s us ⟨hcommit, hpoison⟩ => ?_
    rw [renderChecks_ok hcommit hpoison]
    dsimp only [oncePerWave, State.genInfo]
    generalize s.fibre (us.headD 0) = f
    cases s.structOf f.part (s.sA f e) with
    | none => rfl
    | some c =>
      dsimp only
      cases s.currentGen f.part f.tag c <;> rfl
  case qual =>
    refine completes_of_body (fun _ => rfl) fun s us ⟨hcommit, hpoison⟩ => ?_
    rw [renderChecks_ok hcommit hpoison]
    dsimp only [oncePerWave]
    generalize s.fibre (us.headD 0) = f
    cases (s.structOf f.part (s.sA f e)).bind fun c => (s.currentGen f.part f.tag c).map fun g => g.data <;> rfl

/-! ### SIGRD, SIGCHK and REP (R187, R375, R376) -/

/-- Settles O44, row by row. -/
theorem signatureAndRepeat : Obligations.SignatureAndRepeat := by
  intro e r
  refine ⟨?_, ?_⟩
  · simp only [signatureRows, List.forall_mem_cons]
    refine ⟨?sigrd, completes_of_plain fun _ => rfl, fun _ h => nomatch h⟩
    refine completes_of_body (fun _ => rfl) fun s us _ => ?_
    dsimp only
    split
    · rfl
    · exact eachFibre_plain s us
  · refine completes_of_body (fun _ => rfl) fun s us ⟨hcount, ws, walks, hfetch, hallows⟩ => ?_
    dsimp only [repRow]
    simp only [startRep, hfetch, hallows, orSame, Bool.not_true, Bool.false_eq_true, if_false]
    exact if_neg (Nat.not_lt.mpr hcount)

/-! ### Comparison points (R365 to R367, R373, R374) -/

section

variable {s : State} {f g h : Fibre} {u : Nat}

theorem atPoint_iff : f.atPoint = true ↔ f.wait = .compare := by
  rw [Fibre.atPoint, beq_iff_eq]

/-- What the agreement of two replicas says (R365). -/
theorem agree_iff : s.agree g h = true ↔
    g.wait = .compare ∧ h.wait = .compare ∧ g.sig = h.sig ∧ g.pc = h.pc ∧ s.pointOperands g = s.pointOperands h := by
  simp only [State.agree, Bool.and_eq_true, atPoint_iff, beq_iff_eq, and_assoc]

/-- A set of which every replica has arrived and agrees with the first goes on (R366, R367). -/
theorem compare_agreed {late : Bool} (hhere : ∀ g ∈ s.replicaSet f, g.wait = .compare) (hagree : allAgree s f) :
    s.compare f late = s.agreed (s.replicaSet f) (s.pipeOf f).leader := by
  have hall : (match s.replicaSet f with | [] => true | x :: r => r.all fun g => s.agree x g) = true := by
    cases hset : s.replicaSet f with
    | nil => rfl
    | cons x r => exact List.all_eq_true.mpr (hagree x r hset)
  have hpoint : (s.replicaSet f).all Fibre.atPoint = true := List.all_eq_true.mpr fun g hg => atPoint_iff.mpr (hhere g hg)
  unfold State.compare
  refine if_pos ?_
  rw [hpoint, Bool.and_true]
  exact hall

/-- Nothing happens while a replica of the set has not arrived. -/
theorem execReplComparison_waits (h : ∃ g ∈ s.replicaSet (s.fibre u), g.wait ≠ .compare) : execReplComparison u s = .next s := by
  obtain ⟨g, hg, hwait⟩ := h
  have hall : (s.replicaSet (s.fibre u)).all Fibre.atPoint = false :=
    List.all_eq_false.mpr ⟨g, hg, fun hp => hwait (atPoint_iff.mp hp)⟩
  simp only [execReplComparison, hall, Bool.and_false, Bool.false_eq_true, if_false]

/-- Where every live replica has arrived, the set is compared. -/
theorem execReplComparison_arrived (h : allArrived s (s.fibre u)) : execReplComparison u s = .next (s.compare (s.fibre u) false) := by
  obtain ⟨hlive, hhere⟩ := h
  have hall : (s.replicaSet (s.fibre u)).all Fibre.atPoint = true := List.all_eq_true.mpr fun g hg => atPoint_iff.mpr (hhere g hg)
  simp only [execReplComparison, hlive, hall, Bool.and_self, if_true]

/-- A replica that has waited CONVWD clocks at its point has its set compared as it stands. -/
theorem execReplCompareTimeout_due (hlive : (s.fibre u).live = true) (hwait : (s.fibre u).wait = .compare)
    (hdue : (s.fibre u).pointAt + watchdog (s.pipeOf (s.fibre u)).convwd ≤ s.clock) :
    execReplCompareTimeout u s = .next (s.compare (s.fibre u) true) := by
  simp only [execReplCompareTimeout, hlive, atPoint_iff.mpr hwait, hdue, decide_true, Bool.and_self, if_true]

theorem execReplCompareTimeout_early (hdue : s.clock < (s.fibre u).pointAt + watchdog (s.pipeOf (s.fibre u)).convwd) :
    execReplCompareTimeout u s = .next s := by
  simp only [execReplCompareTimeout, Nat.not_le.mpr hdue, decide_false, Bool.and_false, Bool.false_eq_true, if_false]

end

/-- Settles O48, case by case. -/
theorem replicaEvents : Obligations.ReplicaEvents := by
  intro s u f
  refine ⟨fun harrived hagree => ?_, execReplComparison_waits, execReplCompareTimeout_due, execReplCompareTimeout_early, fun g h hgh => ?_⟩
  · exact (execReplComparison_arrived harrived).trans (congrArg _ (compare_agreed harrived.2 hagree))
  · obtain ⟨hg, hh, hsig, hpc, hops⟩ := agree_iff.mp hgh
    exact ⟨hsig, hpc, hops, hg, hh⟩

end Sys2Proof.Machine

/-! Proof of the statement of the events of builder jobs and generations (R337 to R352). -/

namespace Sys2Proof.Machine

section

variable {s : State} {j : Job} {c : StructCtx} {id : Nat}

/-- A job whose turn has come runs (R343). -/
theorem execBuildJobComplete_runs (hj : s.jobs.find? (fun x => x.id == id) = some j) (hruns : s.jobRuns j = true) :
    execBuildJobComplete id s = s.runJob j := by
  simp only [execBuildJobComplete, hj, hruns, if_true]

/-- A job that does not lose a structure of its own ends with its token. -/
theorem endJob_eq_jobEnds {handle status : Nat} {reb : Bool} (h : j.fresh = false ∨ status = 0) :
    s.endJob j handle status reb = jobEnds s j (jobAnswer handle status reb) := by
  have hkept : (j.fresh && status != 0) = false := by
    rcases h with h | h
    · rw [h, Bool.false_and]
    · rw [h, bne_self_eq_false, Bool.and_false]
  simp only [State.endJob, hkept, Bool.false_eq_true, if_false, jobEnds, jobAnswer]

/-- A job with HANDLE 0 takes the lowest free context, or ends where there is none (R337, R339). -/
theorem runJob_new {k : Nat} (hhandle : j.d.handle = 0) (hfresh : j.fresh = false) (hfree : j.d.free = false) (hk : s.freeStructIdx j.part = some k) :
    s.runJob j = .next (s.newStruct j k) := by
  simp only [State.runJob, hhandle, hfresh, hfree, hk, Bool.not_false, and_self, if_true, Bool.false_eq_true, if_false]

theorem runJob_noContext (hhandle : j.d.handle = 0) (hfresh : j.fresh = false) (hfree : j.d.free = false) (hk : s.freeStructIdx j.part = none) :
    s.runJob j = .next (s.endJob j 0 7 false) := by
  simp only [State.runJob, hhandle, hfresh, hfree, hk, Bool.not_false, and_self, if_true, Bool.false_eq_true, if_false]

/-- What a build reads of its input: the items, with the counts of its geometries (R340, R341). -/
def State.jobInput (s : State) (j : Job) (c : StructCtx) : Reading × List Nat :=
  if c.top then s.readInstances (s.onBehalf (j.uids.headD 0) j.tag j.eng) j.d else s.readGeometries (s.onBehalf (j.uids.headD 0) j.tag j.eng) j.d

/-- The result of a full build of some items (R342). -/
def builtOf (items : List Item) (counts : List Nat) (top : Bool) : GenData :=
  let live := (List.range items.length).filter fun k => ((items[k]?).map fun y => y.bad.isNone).getD false
  genDataOf items (if live = [] then [] else newTree items (items.length + 1) 0 (List.range items.length)) counts top 0 none

section

variable (hhandle : j.d.handle = 0 → j.fresh = true)
  (hc : (if j.fresh then s.structCtx j.part j.ctx else s.structOf j.part (BitVec.ofNat 64 j.d.handle)) = some c) (hfree : j.d.free = false)
  (hkind : j.kind = 0)

include hhandle hc hfree hkind

/-- A build whose input fails ends with a record and status 4 (R343). -/
theorem runJob_inputFails {t : Trap} (hhalt : (s.jobInput j c).1.halt = some (.fails t)) (hstrict : j.d.strict = false) :
    s.runJob j = .next ((s.jobInput j c).1.s.failRead j c.handle t) := by
  have hnew : ¬ (j.d.handle = 0 ∧ (!j.fresh) = true) := fun ⟨h0, hf⟩ => by simp [hhandle h0] at hf
  unfold State.jobInput at *
  simp only [State.runJob, if_neg hnew, hc, hfree, hkind, hhalt, hstrict, Bool.false_eq_true, Nat.reduceEqDiff, OfNat.zero_ne_ofNat, false_and, if_false]

/-- A build whose input has been read works on its items. -/
theorem runJob_inputRead (hhalt : (s.jobInput j c).1.halt = none) :
    s.runJob j = (s.jobInput j c).1.s.jobOnItems j c (s.jobInput j c).1.items (s.jobInput j c).2 := by
  have hnew : ¬ (j.d.handle = 0 ∧ (!j.fresh) = true) := fun ⟨h0, hf⟩ => by simp [hhandle h0] at hf
  unfold State.jobInput at *
  simp only [State.runJob, if_neg hnew, hc, hfree, hkind, hhalt, Bool.false_eq_true, Nat.reduceEqDiff, OfNat.zero_ne_ofNat, false_and, if_false]

end

/-- A full build of items that it accepts stages its result. -/
theorem jobOnItems_build {items : List Item} {counts : List Nat} (hkind : j.kind = 0) (hstrict : j.d.strict = true → ∀ y ∈ items, y.bad = none) :
    s.jobOnItems j c items counts = s.stageJob j c (builtOf items counts c.top) false := by
  have hgood : (if j.d.strict then items.find? fun x => x.bad.isSome else none) = none := by
    split
    next h => exact List.find?_eq_none.mpr fun y hy => by simp [hstrict h y hy]
    next => rfl
  simp only [State.jobOnItems, hgood, if_pos hkind, builtOf]

/-! ### The writing of a result to its arena (R338, R344) -/

/-- A place that an engine cannot reach gives no data. -/
theorem engineStop_not_data (f : Fibre) (st : Stop) (d : List Byte) (bad : Bool) : (s.engineStop f st).1 ≠ .data d bad := by
  cases st <;> exact nofun

/-- The writing of nodes either goes through or meets a place that waits, fails or stops. -/
theorem writeNodes_data {f : Fibre} {d : List Byte} {bad : Bool} {ks : List Nat} {s : State} (h : (s.writeNodes f c ks).1 = .data d bad) :
    (s.writeNodes f c ks).1 = .data [] false := by
  induction ks generalizing s with
  | nil => rfl
  | cons k r ih =>
    rw [State.writeNodes] at h ⊢
    split at h
    next st hst => exact absurd h (engineStop_not_data f st d bad)
    next loc hloc => exact ih h

section

variable {g : GenData} {reb : Bool}

/-- The result that a job stages: its new nodes numbered. -/
def GenData.numbered (g : GenData) (s : State) : GenData := { g with nodes := numberNodes (s.nextId + 1) g.nodes }

/-- The writing of the new nodes of a result to its arena. -/
def State.writeResult (s : State) (j : Job) (c : StructCtx) (g : GenData) : Fetched × State :=
  s.writeNodes (s.onBehalf (j.uids.headD 0) j.tag j.eng) c (((g.numbered s).nodes.map fun b => b.id).filter fun k => decide (s.nextId < k))

variable (hroom : Config.arenaNeed (c.footprint g).1 (c.footprint g).2 ≤ c.size)

include hroom

/-- A result that its arena holds, and whose nodes are written, takes the place of the tag's staged one, and the job ends. -/
theorem stageJob_written (hw : (s.writeResult j c g).1 = .data [] false) :
    s.stageJob j c g reb = .next (((({ (s.writeResult j c g).2 with nextId := (s.writeResult j c g).2.nextId + 1 + g.nodes.length } : State).dropStaged
      j.part c.idx fun x => x == s.genTag j.part j.tag c.top).updStruct j.part c.idx
        fun c' => { c' with staged := c'.staged ++ [(s.genTag j.part j.tag c.top, g.numbered s)] }).endJob j c.handle 0 reb) := by
  unfold State.writeResult GenData.numbered at *
  simp only [State.stageJob, if_neg (Nat.not_lt.mpr hroom)]
  split
  next hx => rw [hx] at hw; cases hw
  next hx => rw [hx] at hw; cases hw
  next hx => rw [hx] at hw; cases hw
  next hx => rw [hx]

/-- A result whose nodes are not all written waits, fails or stops with the place that stopped them. -/
theorem stageJob_notWritten (hw : (s.writeResult j c g).1 ≠ .data [] false) :
    s.stageJob j c g reb = notWritten (s.writeResult j c g) j c.handle := by
  unfold State.writeResult GenData.numbered at *
  simp only [State.stageJob, if_neg (Nat.not_lt.mpr hroom), notWritten]
  split
  next hx => rw [hx]
  next hx => rw [hx]
  next hx => rw [hx]
  next hx => exact absurd (writeNodes_data (congrArg Prod.fst hx)) hw

end

/-! ### A full build (R342 to R344) -/

section

variable {x : Reading × List Nat} {g : GenData} {w : Fetched × State} (hj : s.jobs.find? (fun x => x.id == id) = some j) (hruns : s.jobRuns j = true)
  (hhandle : j.d.handle = 0 → j.fresh = true)
  (hc : (if j.fresh then s.structCtx j.part j.ctx else s.structOf j.part (BitVec.ofNat 64 j.d.handle)) = some c) (hfree : j.d.free = false)
  (hkind : j.kind = 0) (hx : s.jobInput j c = x) (hhalt : x.1.halt = none) (hstrict : j.d.strict = true → ∀ y ∈ x.1.items, y.bad = none)
  (hg : builtOf x.1.items x.2 c.top = g) (hroom : Config.arenaNeed (c.footprint g).1 (c.footprint g).2 ≤ c.size) (hw : x.1.s.writeResult j c g = w)

include hj hruns hhandle hc hfree hkind hx hhalt hstrict hg

/-- A build whose input has been read and is accepted stages the result. -/
theorem execBuildJobComplete_stages : execBuildJobComplete id s = x.1.s.stageJob j c g false := by
  subst hx hg
  exact (execBuildJobComplete_runs hj hruns).trans ((runJob_inputRead hhandle hc hfree hkind hhalt).trans (jobOnItems_build hkind hstrict))

include hroom hw

/-- It ends with its result staged, where every new node is written. -/
theorem execBuildJobComplete_written (hdata : w.1 = .data [] false) : execBuildJobComplete id s =
    .next (jobEnds ((({ w.2 with nextId := w.2.nextId + 1 + g.nodes.length } : State).dropStaged j.part c.idx
      fun y => y == x.1.s.genTag j.part j.tag c.top).updStruct j.part c.idx
        fun c' => { c' with staged := c'.staged ++ [(x.1.s.genTag j.part j.tag c.top, g.numbered x.1.s)] }) j (jobAnswer c.handle 0 false)) := by
  subst hw
  rw [execBuildJobComplete_stages hj hruns hhandle hc hfree hkind hx hhalt hstrict hg, stageJob_written hroom hdata, endJob_eq_jobEnds (.inr rfl)]

/-- It waits, fails or stops with the first node that cannot be written. -/
theorem execBuildJobComplete_notWritten (hdata : w.1 ≠ .data [] false) : execBuildJobComplete id s = notWritten w j c.handle := by
  subst hw
  rw [execBuildJobComplete_stages hj hruns hhandle hc hfree hkind hx hhalt hstrict hg, stageJob_notWritten hroom hdata]

end

/-! ### Arena extensions and reclamation (R344, R347, R349) -/

theorem execArenaExtensionService_waiting {granted : Bool} (h : s.jobs.find? (fun x => x.id == id && x.growWait) = some j) :
    execArenaExtensionService id granted s =
      let t := s.updJob id fun j => { j with growWait := false, refused := !granted }
      .next (if granted then t.updStruct j.part j.ctx fun c => { c with size := c.size + c.original, extensions := c.extensions + 1 } else t) := by
  simp only [execArenaExtensionService, h]

/-- A RECLAIMING generation ends (R347). -/
theorem execGenerationReclaimComplete_reclaiming {part ctx gen : Nat} {g : Gen} (h : s.genOf part ctx gen = some g) (hstate : g.state = 3) :
    execGenerationReclaimComplete part ctx gen s =
      .next ((g.data.insts.filter fun r => r.w2o != []).foldl (fun s r => s.checkReclaim part r.ctx r.gen) (s.updGen part ctx gen fun g => { g with state := 4 })) := by
  simp only [execGenerationReclaimComplete, h, hstate, ne_eq, not_true_eq_false, if_false]

end

/-- Settles O45, event by event. That a job takes the lowest free context, that it reads, runs and stages in one event (notes/assumptions/48.md), and the
layout and the size of a tree in its arena (16.md) are the model's choices. -/
theorem builderEvents : Obligations.BuilderEvents := by
  refine ⟨fun s id j hj hruns => ⟨fun hhandle hfresh hfree => ⟨fun k hk => ?new, fun hk => ?noContext⟩, fun c hhandle hc hfree hkind => ?build⟩,
    fun s id j hj => ⟨execArenaExtensionService_waiting hj, execArenaExtensionService_waiting hj⟩,
    fun s part ctx gen g hg hstate => execGenerationReclaimComplete_reclaiming hg hstate⟩
  case new => exact (execBuildJobComplete_runs hj hruns).trans (runJob_new hhandle hfresh hfree hk)
  case noContext =>
    rw [← endJob_eq_jobEnds (.inl hfresh)]
    exact (execBuildJobComplete_runs hj hruns).trans (runJob_noContext hhandle hfresh hfree hk)
  case build =>
    intro x r live g tag
    refine ⟨fun t hhalt hstrict => ?_, fun hhalt hstrict hroom => ?_⟩
    · exact (execBuildJobComplete_runs hj hruns).trans (runJob_inputFails hhandle hc hfree hkind hhalt hstrict)
    · intro g' new w
      exact ⟨execBuildJobComplete_written hj hruns hhandle hc hfree hkind rfl hhalt hstrict rfl hroom rfl,
        execBuildJobComplete_notWritten hj hruns hhandle hc hfree hkind rfl hhalt hstrict rfl hroom rfl⟩

end Sys2Proof.Machine

/-! Proofs of the statements of the machine after reset (R7, R388, R389, R421), of the layout of an error record (R435, R438), and of its delivery to
the supervisor (R441). -/

namespace Sys2Proof.Machine

/-! ### The machine after reset -/

/-- A number in a list that repeats one element, or outside it, reads as that element. -/
theorem nth_replicate {α : Type} (d : α) (n i : Nat) : nth d (List.replicate n d) i = d := by
  rw [nth, List.getD_eq_getElem?_getD, List.getElem?_replicate]
  split <;> rfl

/-- Every partition is as after its own reset, and every tag is FREE. -/
theorem reset_partn (p : Nat) : State.reset.partn p = Partition.reset := nth_replicate ..
theorem reset_tagRec (t : Nat) : State.reset.tagRec t = TagRec.reset := nth_replicate ..

/-- Nothing has been written. -/
theorem reset_byte (k : Nat) : State.reset.byte k = 0 := rfl

/-- Settles O1: each part of the state is the constant that State.reset gives it. -/
theorem resetState : Obligations.ResetState := by
  refine ⟨rfl, rfl, rfl, rfl, fun p _ => ?_, fun t _ => ?_, rfl, rfl, rfl, rfl, fun _ _ _ _ => reset_byte _⟩
  · rw [reset_partn]
    refine ⟨rfl, rfl, fun c _ k _ => ?_⟩
    rw [Partition.slab, show nth 0 Partition.reset.vltPwr c = 0 from nth_replicate ..]
    exact congrArg BitVec.toNat BitVec.extractLsb'_zero
  · rw [reset_tagRec]
    rfl

/-! ### The layout of an error record (R435) -/

section

variable (r : Rec) (clock seq : Nat)

/-- Bits 127:0 of a record. -/
theorem low_lt (cause cls ext : Nat) : r.low cause cls ext < 2 ^ 128 := by
  have hbit : ∀ b : Bool, (if b = true then 1 else 0) < 2 := by decide
  have h1 := hbit r.part.isNone
  have h2 := hbit r.lcore.isSome
  have h3 := hbit r.rpl
  have h4 := hbit r.prec
  unfold Rec.low
  generalize (if r.part.isNone = true then 1 else 0) = a at *
  generalize (if r.lcore.isSome = true then 1 else 0) = b at *
  generalize (if r.rpl = true then 1 else 0) = c at *
  generalize (if r.prec = true then 1 else 0) = d at *
  omega

theorem bits_low : r.bits clock seq % 2 ^ 128 = r.low r.cause (causeClass r.cause) r.cont.length := by
  have h := low_lt r r.cause (causeClass r.cause) r.cont.length
  unfold Rec.bits
  omega

/-- CLOCK stands in bits 191:128. -/
theorem bits_clock : r.bits clock seq / 2 ^ 128 % 2 ^ 64 = clock % 2 ^ 64 := by
  have h := low_lt r r.cause (causeClass r.cause) r.cont.length
  unfold Rec.bits
  omega

/-- ADDR stands in bits 319:256. -/
theorem bits_addr : r.bits clock seq / 2 ^ 256 % 2 ^ 64 = r.addr % 2 ^ 64 := by
  have h := low_lt r r.cause (causeClass r.cause) r.cont.length
  unfold Rec.bits
  omega

/-- DETAIL stands in bits 383:320. -/
theorem bits_detail : r.bits clock seq / 2 ^ 320 % 2 ^ 64 = r.detail % 2 ^ 64 := by
  have h := low_lt r r.cause (causeClass r.cause) r.cont.length
  unfold Rec.bits
  omega

/-- SEQ stands in bits 479:448. -/
theorem bits_seq : r.bits clock seq / 2 ^ 448 % 2 ^ 32 = seq % 2 ^ 32 := by
  have h := low_lt r r.cause (causeClass r.cause) r.cont.length
  unfold Rec.bits
  omega

end

/-- Settles O15: the words above are the fields of every record, and the low ones those of the example (R444). -/
theorem trapRecordLayout : Obligations.TrapRecordLayout := by
  unfold Obligations.TrapRecordLayout
  intro r
  have hlow : r.low r.cause (causeClass r.cause) r.cont.length = 0x214 * 2 ^ 64 + 0x0708001685320003 := by decide
  refine ⟨fun clock => ?_, fun clock => ?_, fun clock => ?_, fun clock => ?_, fun clock => ?_, fun clock hclock => ?_⟩
  · have h := bits_low r clock 40
    omega
  · have h := bits_low r clock 40
    omega
  · exact bits_detail r clock 40
  · exact bits_addr r clock 40
  · exact bits_seq r clock 40
  · rw [bits_clock, Nat.mod_eq_of_lt hclock]

/-! ### The delivery of a record to the supervisor (R190, R441) -/

section

variable {s : State} {p pipe seq u : Nat} {uid : Option Nat}

/-- A record of an ordinary pipeline, without host assistance, goes to the partition's supervisor. -/
theorem deliver_ordinary (hpipe : (s.pipe p pipe).supervisor = false) (hmode : (s.partn p).mode.getLsbD 3 = false) :
    s.deliver p pipe seq uid = s.wakeSupervisor p := by
  simp only [State.deliver, hpipe, hmode, Bool.false_eq_true, if_false]

theorem sleeper_iff {f : Fibre} : s.sleeper p f = true ↔ f.part = p ∧ f.st = .sleeping ∧ (s.pipeOf f).supervisor = true := by
  simp only [State.sleeper, Bool.and_eq_true, beq_iff_eq, and_assoc]

/-- A sleeping fibre goes on past its SLEEP. -/
theorem continues_sleeping {f : Fibre} (h : f.st = .sleeping) : f.continues = { f.advancePc f.ilen with st := .runnable, wait := .none } := by
  rw [Fibre.continues, if_neg (by rw [h]; exact nofun)]

/-- Every sleeper of the supervisor pipeline wakes. -/
theorem wakeSupervisor_sleeper (hu : ∃ f ∈ s.fibres, f.uid = u) (h : s.sleeper p (s.fibre u) = true) :
    (s.wakeSupervisor p).fibre u = (s.fibre u).continues := by
  obtain ⟨f, hf, hfu⟩ := hu
  have hany : s.fibres.any (s.sleeper p) = true :=
    List.any_eq_true.mpr ⟨_, List.mem_of_find?_eq_some (find_fibre ⟨f, hf, hfu⟩), h⟩
  rw [wakeSupervisor_eq, if_pos hany, fibre_mapIf ⟨f, hf, hfu⟩ fun f _ => continues_uid f, if_pos h]

/-- With none asleep, the wake is held. -/
theorem wakeSupervisor_held (h : ∀ f ∈ s.fibres, s.sleeper p f = false) : s.wakeSupervisor p = s.updPart p fun q => { q with errorWake := true } := by
  rw [wakeSupervisor_eq, List.any_eq_false.mpr fun f hf => Bool.eq_false_iff.mp (h f hf), if_neg Bool.false_ne_true]

end

/-- A partition that exists, after a change. -/
theorem partn_updPart {s : State} {p : Nat} {g : Partition → Partition} (h : p < s.parts.length) : (s.updPart p g).partn p = g (s.partn p) := by
  simp [State.partn, State.updPart, nth, h]

/-- Settles O16: delivery wakes the sleepers of the supervisor pipeline, or holds the wake. -/
theorem errorWake : Obligations.ErrorWake := by
  intro s p pipe seq uid hpipe hmode hp t
  have ht : t = s.wakeSupervisor p := deliver_ordinary hpipe hmode
  rw [ht]
  refine ⟨fun u hu hpart hst hsup => ?_, fun hnone => ?_⟩
  · rw [wakeSupervisor_sleeper hu (sleeper_iff.mpr ⟨hpart, hst, hsup⟩), continues_sleeping hst]
  · rw [wakeSupervisor_held fun f hf => Bool.eq_false_iff.mpr fun hsl => hnone f hf (sleeper_iff.mp hsl), partn_updPart hp]
    exact ⟨rfl, rfl⟩

end Sys2Proof.Machine

/-! Proof of the statement of the commands to a partition (R387 to R393, R416, R504). -/

namespace Sys2Proof.Machine

section

variable {s t u : State} {part : Nat} {e : Event} {k : State → Host.Outcome State Fault Refusal}

/-! ### One command at a time (R390) -/

/-- A command is served where none is. -/
theorem whenIdle_idle (hr : s.ready = true) (hc : s.cmdStat ≠ 0xFF) : s.whenIdle e k = k s := by
  simp only [State.whenIdle, hr, hc, Bool.not_true, Bool.false_eq_true, if_false]

/-- A command that finds another one served tries again a clock later. -/
theorem whenIdle_busy (hr : s.ready = true) (hc : s.cmdStat = 0xFF) : s.whenIdle e k = .next (s.timer (s.clock + 1) e) := by
  simp only [State.whenIdle, hr, hc, Bool.not_true, Bool.false_eq_true, if_false, if_true]

section

variable (hr : s.ready = true) (hc : s.cmdStat ≠ 0xFF)

include hr hc

/-! ### CREATE (R387, R390) -/

theorem execCreate_wrongState (h : (s.partn part).state ≠ 0) : execCreate part s = .next { s with cmdStat := 2 } :=
  (whenIdle_idle hr hc).trans (if_pos h)

theorem execCreate_badPage (h : (s.partn part).state = 0) (hm : s.mayCreate part = false) : execCreate part s = .next { s with cmdStat := 1 } := by
  rw [execCreate, whenIdle_idle hr hc]
  simp only [h, hm, ne_eq, not_true_eq_false, Bool.not_false, if_true, if_false]

/-- A page whose overflow area the pool cannot supply breaks a limit, too (R122). -/
theorem execCreate_noOverflow (h : (s.partn part).state = 0) (hm : s.mayCreate part = true) (ho : s.takeOverflow part = none) :
    execCreate part s = .next { s with cmdStat := 1 } := by
  rw [execCreate, whenIdle_idle hr hc]
  simp only [h, hm, ho, ne_eq, not_true_eq_false, Bool.not_true, Bool.false_eq_true, if_false]

theorem execCreate_applied (h : (s.partn part).state = 0) (hm : s.mayCreate part = true) (ho : s.takeOverflow part = some u) :
    execCreate part s = .next { ((u.claimSinks part).updPart part fun p => { p with state := 1, lmap := p.lmapPage, voaCtl := p.voaPage }).clearRings part with
      cmdStat := 0 } := by
  rw [execCreate, whenIdle_idle hr hc]
  simp only [h, hm, ho, ne_eq, not_true_eq_false, Bool.not_true, Bool.false_eq_true, if_false]

/-! ### RESET, SUSPEND, DESTROY and commands of no row (R390) -/

theorem execReset_wrongState (h : (s.partn part).state = 0) : execReset part s = .next { s with cmdStat := 2 } := by
  simp only [execReset, hr, hc, h, Bool.not_true, Bool.false_eq_true, if_false, if_true]

theorem execReset_begins (h : (s.partn part).state ≠ 0) : execReset part s = .next (s.resetPart part) := by
  simp only [execReset, hr, hc, h, Bool.not_true, Bool.false_eq_true, if_false]

theorem execSuspend_wrongState (h : (s.partn part).state ≠ 2) : execSuspend part s = .next { s with cmdStat := 2 } :=
  (whenIdle_idle hr hc).trans (if_pos h)

theorem execSuspend_begins (h : (s.partn part).state = 2) :
    let u := s.updPart part fun p => { p with suspending := true, migrs := p.migrs.filter fun m => m.state == 2 }
    execSuspend part s =
      .next { u.requestSave part 2 ((u.runningPipes part).map fun (p : Pipe) => p.handle) (u.partn part).preemptDl with cmdStat := 0xFF } :=
  (whenIdle_idle hr hc).trans (if_neg (not_not_intro h))

theorem execDestroy_wrongState (h : (s.partn part).state ≠ 1) : execDestroy part s = .next { s with cmdStat := 2 } :=
  (whenIdle_idle hr hc).trans (if_pos h)

theorem execDestroy_begins (h : (s.partn part).state = 1) : execDestroy part s = .next { s with cmdStat := 0xFF, destroyWait := some part } :=
  (whenIdle_idle hr hc).trans (if_neg (not_not_intro h))

theorem execPartCmdUnknown_served {cmd : Nat} (h : cmd = 0 ∨ 5 < cmd) : execPartCmdUnknown part cmd s = .next { s with cmdStat := 3 } :=
  (whenIdle_idle hr hc).trans (congrArg _ (if_neg (by omega)))

end

/-! A command that finds another one served tries again a clock later. -/

section

variable (hr : s.ready = true) (hc : s.cmdStat = 0xFF)

include hr hc

theorem execCreate_busy : execCreate part s = .next (s.timer (s.clock + 1) (.create part)) := whenIdle_busy hr hc

theorem execSuspend_busy : execSuspend part s = .next (s.timer (s.clock + 1) (.suspend part)) := whenIdle_busy hr hc

theorem execDestroy_busy : execDestroy part s = .next (s.timer (s.clock + 1) (.destroy part)) := whenIdle_busy hr hc

theorem execPartCmdUnknown_busy {cmd : Nat} : execPartCmdUnknown part cmd s = .next (s.timer (s.clock + 1) (.partCmdUnknown part cmd)) :=
  whenIdle_busy hr hc

theorem execReset_busy : execReset part s = .next (s.timer (s.clock + 1) (.reset part)) := by
  simp only [execReset, hr, hc, Bool.not_true, Bool.false_eq_true, if_false, if_true]

end

/-! ### The end of a reset (R504) -/

/-- A partition of a list in which one has been changed. -/
theorem updPart_getElem? {g : Partition → Partition} {p : Partition} (h : (s.updPart part g).parts[part]? = some p) : ∃ q, p = g q := by
  rw [State.updPart, List.getElem?_modify_eq] at h
  obtain ⟨q, -, hq⟩ := Option.map_eq_some_iff.mp h
  exact ⟨q, hq.symm⟩

/-- What stands once a reset has begun. -/
theorem resetPart_begun (s : State) (part : Nat) :
    (∀ p, (s.resetPart part).parts[part]? = some p → p.state = 4 ∧ p.captures = [none, none] ∧ p.preqs = [] ∧ p.suspending = false ∧ p.emergency = none) ∧
    (s.resetPart part).cmdStat = 0xFF ∧ .resetComplete part ∈ (s.resetPart part).agenda ∧ ∀ l ∈ (s.resetPart part).leases, l.part ≠ part := by
  simp only [State.resetPart]
  generalize State.squashInterval _ _ = v
  refine ⟨fun p hp => ?_, rfl, List.mem_append_right _ (List.mem_singleton_self _), fun l hl => ?_⟩
  · obtain ⟨q, rfl⟩ := updPart_getElem? hp
    exact ⟨rfl, rfl, rfl, rfl, rfl⟩
  · exact bne_iff_ne.mp (List.mem_filter.mp hl).2

theorem execResetComplete_done (h : (s.partn part).state = 4) (hm : (s.partn part).migrs = []) :
    execResetComplete part s = .next { s.updPart part fun p => { p with state := 1 } with cmdStat := 0 } := by
  simp only [execResetComplete, h, hm, List.isEmpty_nil, Bool.not_true, Bool.false_eq_true, ne_eq, not_true_eq_false, or_self, if_false]

theorem execResetComplete_waits (h : (s.partn part).state ≠ 4 ∨ (s.partn part).migrs ≠ []) : execResetComplete part s = .next s :=
  if_pos (h.imp_right fun hm => by rw [List.isEmpty_eq_false_iff.mpr hm, Bool.not_false])

/-! ### The end of a SUSPEND (R416) -/

theorem execSuspendComplete_waits (h : s.suspendReady part = false) : execSuspendComplete part s = .next s := by
  simp only [execSuspendComplete, h, Bool.not_false, if_true]

section

variable (h : s.suspendReady part = true)

include h

theorem execSuspendComplete_noArea (hb : (s.partn part).saveBase = 0) : execSuspendComplete part s = .next (s.saveFault part 0 0 0 0) := by
  simp only [execSuspendComplete, h, hb, Bool.not_true, Bool.false_eq_true, if_false, if_true]

variable (hb : (s.partn part).saveBase ≠ 0)

include hb

theorem execSuspendComplete_absent {c off va : Nat}
    (ha : s.areaAbsent part (s.partn part).saveBase ((mapEntries (s.partn part).lmap).map fun e => e.1) = some (c, off, va)) :
    execSuspendComplete part s = .next (s.servicePage part c off va false) := by
  simp only [execSuspendComplete, h, hb, ha, Bool.not_true, Bool.false_eq_true, if_false]

theorem execSuspendComplete_written
    (ha : s.areaAbsent part (s.partn part).saveBase ((mapEntries (s.partn part).lmap).map fun e => e.1) = none) :
    let u := ((s.suspendBoundary part).squashAll part).flushCores part
    execSuspendComplete part s = .next { (u.dropWork part).updPart part (fun q => { q with
      state := 3, suspending := false, image := some (q.saveBase, u.captureOf part ((u.runningPipes part).map fun (x : Pipe) => x.handle) true) }) with cmdStat := 0 } := by
  simp only [execSuspendComplete, h, hb, ha, Bool.not_true, Bool.false_eq_true, if_false]

end

/-! ### RESUME (R390, R416)

Here `base` is the save area that ARG names, and no restore of the partition waits for a page. -/

section

variable {arg : BitVec 48} (hw : (s.partn part).resuming = none)

include hw

theorem execResume_busy (hr : s.ready = true) (hc : s.cmdStat = 0xFF) : execResume part arg s = .next (s.timer (s.clock + 1) (.resume part arg)) := by
  simp only [execResume, hw, reduceCtorEq, if_false, whenIdle_busy hr hc]

variable (hr : s.ready = true) (hc : s.cmdStat ≠ 0xFF)

include hr hc

theorem execResume_wrongState (h3 : (s.partn part).state ≠ 3) (h1 : (s.partn part).state ≠ 1) : execResume part arg s = .next { s with cmdStat := 2 } := by
  simp only [execResume, hw, reduceCtorEq, if_false, whenIdle_idle hr hc, h3, h1, ne_eq, not_false_eq_true, and_self, if_true]

variable {base : Nat} (hbase : (if arg = 0 then (s.partn part).saveBase else arg.toNat * 2 ^ 16) = base)

include hbase

/-- From SUSPENDED the work of the partition's last image returns. -/
theorem execResume_suspended {c : Capture} (h3 : (s.partn part).state = 3) (hi : (s.partn part).imageAt base = some c) :
    execResume part arg s = .next (((s.restoreWork c).sendAgain part c).runAgain part) := by
  simp only [execResume, hbase, hw, reduceCtorEq, if_false, whenIdle_idle hr hc, h3, hi, ne_eq, not_true_eq_false, false_and, if_true]

/-! Otherwise the area is restored, its absent pages served first. -/

theorem execResume_ownImage {c : Capture} (h1 : (s.partn part).state = 1) (hb : base ≠ 0)
    (ha : s.areaAbsent part base ((s.partn part).imageCores base) = none) (hi : (s.partn part).imageAt base = some c) :
    execResume part arg s = .next (s.restoreImage part c) := by
  simp only [execResume, hbase, hw, reduceCtorEq, if_false, whenIdle_idle hr hc, h1, hb, ha, hi, ne_eq, not_true_eq_false, and_false, OfNat.one_ne_ofNat]

section

variable (hg : ¬ ((s.partn part).state ≠ 3 ∧ (s.partn part).state ≠ 1))

include hg

theorem execResume_noArea
    (hn : (if (s.partn part).state = 3 then (s.partn part).imageAt base else none) = none) (hb : base = 0) :
    execResume part arg s = .next (s.saveFault part 0 0 0 0) := by
  simp only [execResume, hbase, hw, reduceCtorEq, if_false, whenIdle_idle hr hc, hg, hn, if_pos hb]

variable (hb : base ≠ 0)

include hb

theorem execResume_absent {k off va : Nat}
    (hn : (if (s.partn part).state = 3 then (s.partn part).imageAt base else none) = none)
    (ha : s.areaAbsent part base ((s.partn part).imageCores base) = some (k, off, va)) :
    execResume part arg s = .next { (s.updPart part fun p => { p with resuming := some base }).servicePage part k off va true with cmdStat := 0xFF } := by
  simp only [execResume, hbase, hw, reduceCtorEq, if_false, whenIdle_idle hr hc, hg, hn, hb, ha]

variable (ha : s.areaAbsent part base ((s.partn part).imageCores base) = none)

include ha

theorem execResume_refusedImage (hi : (s.partn part).imageAt base = none) (hf : Config.foreignImage part base s.free = none) :
    execResume part arg s = .next { ({ s with free := s.free + 1 } : State).updPart part fun p => { p with resuming := none } with cmdStat := 1 } := by
  simp only [execResume, hbase, hw, reduceCtorEq, if_false, whenIdle_idle hr hc, hg, hb, ha, hi, ite_self, Nat.add_sub_cancel, hf]

theorem execResume_foreignImage {c : Capture} (hi : (s.partn part).imageAt base = none) (hf : Config.foreignImage part base s.free = some c) :
    execResume part arg s = .next (({ s with free := s.free + 1 } : State).restoreImage part (c.forPart part)) := by
  simp only [execResume, hbase, hw, reduceCtorEq, if_false, whenIdle_idle hr hc, hg, hb, ha, hi, ite_self, Nat.add_sub_cancel, hf]

end

end

/-- The two ways to an area that is restored: from IDLE, or from SUSPENDED with another area. -/
theorem noSuspendedImage {p : Partition} {base : Nat} (h : p.state = 1 ∨ p.state = 3 ∧ p.imageAt base = none) :
    (if p.state = 3 then p.imageAt base else none) = none := by
  obtain h1 | ⟨h3, hi⟩ := h
  · rw [h1, if_neg (by decide)]
  · rw [if_pos h3, hi]

theorem imageAt_self {p : Partition} {base : Nat} {c : Capture} (h : p.image = some (base, c)) : p.imageAt base = some c := by
  simp only [Partition.imageAt, h, Option.bind_some, if_true]

/-- From IDLE the vaults of an image are written, too. -/
theorem restoreImage_idle {c : Capture} (h : (s.partn part).state = 1) :
    s.restoreImage part c =
      (s.restoreCapture part false c (fun h => ((c.pipes.find? fun (x : Pipe) => x.handle == h).getD Pipe.blank).holds)
        fun h => ((c.pipes.find? fun (x : Pipe) => x.handle == h).getD Pipe.blank).pins).runAgain part := by
  rw [State.restoreImage, h, if_neg (by decide)]

/-! ### DESTROY (R390) -/

theorem execDestroyComplete_waits (h : s.destroyWait ≠ some part ∨ s.tagsFree part = false) : execDestroyComplete part s = .next s :=
  if_pos (h.imp_right fun ht => by rw [ht, Bool.not_false])

/-- A partition other than the one that is changed. -/
theorem partn_updPart_ne {g : Partition → Partition} {i : Nat} (h : i ≠ part) : (s.updPart part g).partn i = s.partn i := by
  simp only [State.partn, State.updPart, nth, List.getD_eq_getElem?_getD, List.getElem?_modify_ne _ _ h.symm]

theorem length_parts_updPart (g : Partition → Partition) : (s.updPart part g).parts.length = s.parts.length := List.length_modify ..

/-- The state in which the frames of a partition's overflow area that the MMP took have gone back. -/
def State.returnOverflow (s : State) (part : Nat) : State :=
  if (s.partn part).voaTaken then s.returnFrames part (bits (s.partn part).voaCtl.toNat 26 26 * 2 ^ 14) else s

theorem returnOverflow_eq (s : State) (part : Nat) : ∃ g, s.returnOverflow part = s.updPart part g := by
  rw [State.returnOverflow]
  split
  · exact ⟨_, rfl⟩
  · exact ⟨id, by rw [State.updPart, List.modify_id]⟩

/-- The page of a partition that is DOWN again. -/
def Partition.down (q : Partition) : Partition :=
  { q with state := 0, lmap := List.replicate 128 0, voaTaken := false, launchWait := none
           voaPage := if q.voaTaken then 0 else q.voaPage, voaCtl := if q.voaTaken then 0 else q.voaCtl }

/-- A sink is free where the partition owns it. -/
def Sink.released (part : Nat) (x : Sink) : Sink := if x.owner = some part then { x with owner := none, current := none, pending := none } else x

theorem released_owner (x : Sink) : (x.released part).owner ≠ some part := by
  rw [Sink.released]
  split
  · exact nofun
  · assumption

/-- What a partition keeps is dropped. -/
def State.dropPartition (s : State) (part : Nat) : State :=
  { s with destroyWait := none, cmdStat := 0
           pipes := s.pipes.filter fun (x : Pipe) => x.part != part
           structs := s.structs.filter fun (c : StructCtx) => c.part != part
           tlb := s.tlb.filter fun x => x.part != part
           sinks := s.sinks.map (Sink.released part) }

theorem execDestroyComplete_done (hd : s.destroyWait = some part) (hf : s.tagsFree part = true) :
    execDestroyComplete part s = .next (((s.returnOverflow part).updPart part Partition.down).dropPartition part) :=
  if_neg (by simp [hd, hf])

/-- Nothing of the partition stands in what is left. -/
theorem dropPartition_dropped (s : State) (part : Nat) :
    (∀ p ∈ (s.dropPartition part).pipes, p.part ≠ part) ∧ (∀ c ∈ (s.dropPartition part).structs, c.part ≠ part) ∧
    (∀ x ∈ (s.dropPartition part).tlb, x.part ≠ part) ∧ ∀ x ∈ (s.dropPartition part).sinks, x.owner ≠ some part := by
  refine ⟨fun p h => bne_iff_ne.mp (List.mem_filter.mp h).2, fun c h => bne_iff_ne.mp (List.mem_filter.mp h).2,
    fun x h => bne_iff_ne.mp (List.mem_filter.mp h).2, fun x h => ?_⟩
  obtain ⟨y, -, rfl⟩ := List.mem_map.mp h
  exact released_owner y

/-! ### PART_LAUNCH (R392) -/

theorem execPartLaunch_notReady {word : BitVec 64} (hr : s.ready = false) : execPartLaunch part word s = .next s := by
  simp only [execPartLaunch, hr, Bool.not_false, if_true]

section

variable {word : BitVec 64} (hr : s.ready = true)

include hr

theorem execPartLaunch_wrongState (h : (s.partn part).state ≠ 1) :
    execPartLaunch part word s = .next (s.updPart part fun p => { p with lstat := 6 }) := by
  simp only [execPartLaunch, hr, h, Bool.not_true, Bool.false_eq_true, ne_eq, not_false_eq_true, if_false, if_true]

variable (h : (s.partn part).state = 1)

include h

theorem execPartLaunch_misaligned (ha : word.toNat % 64 ≠ 0) : execPartLaunch part word s = .next (s.launched part 1) := by
  simp only [execPartLaunch, hr, h, ha, Bool.not_true, Bool.false_eq_true, ne_eq, not_false_eq_true, not_true_eq_false, if_false, if_true]

variable (ha : word.toNat % 64 = 0)

include ha

/-! The reader's core acquires the descriptor before it reads it: `r` is the state that it reads. -/

variable {r : State} (hi : s.selfInval (s.coreOf (s.launchReader part word)) = r)

include hi

theorem execPartLaunch_unreadable {c : Trap} (hd : r.readDescriptor (s.launchReader part word) word.toNat = .error (.trap c)) :
    execPartLaunch part word s = .next (r.launched part 5) := by
  simp only [execPartLaunch, hr, h, ha, hi, hd, Bool.not_true, Bool.false_eq_true, ne_eq, not_true_eq_false, if_false]

theorem execPartLaunch_absent {va : Nat} {acc : Nat} (hd : r.readDescriptor (s.launchReader part word) word.toNat = .error (.service va acc)) :
    execPartLaunch part word s = .next ((r.raiseService part va acc false).launchWaits part word (.page ((s.partn part).servicePage va))) := by
  simp only [execPartLaunch, hr, h, ha, hi, hd, Bool.not_true, Bool.false_eq_true, ne_eq, not_true_eq_false, if_false]

theorem execPartLaunch_poisoned {d : List Byte} {walks : List Nat}
    (hd : r.readDescriptor (s.launchReader part word) word.toNat = .ok (d, true, walks)) : execPartLaunch part word s = .next (r.launched part 5) := by
  simp only [execPartLaunch, hr, h, ha, hi, hd, Bool.not_true, Bool.false_eq_true, ne_eq, not_true_eq_false, if_false, if_true]

/-! With the descriptor read, the launch itself answers its status `a.2.1`. -/

section

variable {d : List Byte} {walks : List Nat} (hd : r.readDescriptor (s.launchReader part word) word.toNat = .ok (d, false, walks)) {a : Nat × Nat × State}
  (hl : (r.keepWalks (s.launchReader part word) walks).launch part 0 (mapEntries (s.partn part).lmap).length 0 d true true = a)

include hd hl

theorem execPartLaunch_refused (hst : a.2.1 ≠ 0) : execPartLaunch part word s = .next (a.2.2.launched part a.2.1) := by
  simp only [execPartLaunch, hr, h, ha, hi, hd, hl, hst, Bool.not_true, Bool.false_eq_true, ne_eq, not_true_eq_false, not_false_eq_true, if_false, if_true]

theorem execPartLaunch_starts (hst : a.2.1 = 0) :
    let t := a.2.2.launched part 0
    let u := t.updPart part fun p => { p with state := 2, boundaryAt := t.clock }
    execPartLaunch part word s = .next (if (u.partn part).intCtl.getLsbD 33 then u.armBoundary part else u) := by
  simp only [execPartLaunch, hr, h, ha, hi, hd, hl, hst, Bool.not_true, Bool.false_eq_true, ne_eq, not_true_eq_false, if_false]

end

end

/-! ### The statement -/

/-- Settles O52, command by command. That a RESUME of an area that this device did not write gives a free value or status 1 is the model's choice
(notes/assumptions/85.md), and so are PART_LAUNCH's statuses 1 for a misaligned word and 5 for a descriptor that cannot be read or is poisoned
(notes/assumptions/32.md). -/
theorem partitionCommands : Obligations.PartitionCommands := by
  refine ⟨fun s part hr hc => ⟨execCreate_wrongState hr hc, execCreate_badPage hr hc, execCreate_noOverflow hr hc, fun _ => execCreate_applied hr hc⟩,
    fun s part hr hc => ⟨execReset_wrongState hr hc, execReset_begins hr hc⟩,
    resetPart_begun,
    fun s part => ⟨execResetComplete_done, execResetComplete_waits⟩,
    fun s part hr hc => ⟨execSuspend_wrongState hr hc, execSuspend_begins hr hc⟩,
    fun s part => ⟨execSuspendComplete_waits, execSuspendComplete_noArea, fun h hb => ⟨fun _ _ _ => execSuspendComplete_absent h hb,
      execSuspendComplete_written h hb⟩⟩,
    fun s part arg hr hc hw => ⟨execResume_wrongState hw hr hc, fun c h3 hi => execResume_suspended hw hr hc rfl h3 (imageAt_self hi), fun hs => ?_⟩,
    fun s part hr hc => ⟨execDestroy_wrongState hr hc, execDestroy_begins hr hc⟩,
    fun s part => ⟨execDestroyComplete_waits, fun hd hf hp => ?_⟩,
    fun s part cmd hr hc => execPartCmdUnknown_served hr hc,
    fun s part cmd arg hr hc => ⟨execCreate_busy hr hc, execReset_busy hr hc, execSuspend_busy hr hc, execDestroy_busy hr hc, execPartCmdUnknown_busy hr hc,
      fun hw => execResume_busy hw hr hc⟩,
    fun s part word => ⟨execPartLaunch_notReady, execPartLaunch_wrongState, execPartLaunch_misaligned, fun hr h ha => ⟨fun _ => execPartLaunch_unreadable hr h ha rfl,
      fun _ _ => execPartLaunch_absent hr h ha rfl, fun _ _ => execPartLaunch_poisoned hr h ha rfl, fun _ _ hd =>
        ⟨execPartLaunch_refused hr h ha rfl hd rfl, execPartLaunch_starts hr h ha rfl hd rfl⟩⟩⟩⟩
  case refine_1 =>
    have hg : ¬ ((s.partn part).state ≠ 3 ∧ (s.partn part).state ≠ 1) := by omega
    have hn := noSuspendedImage hs
    exact ⟨execResume_noArea hw hr hc rfl hg hn, fun hb _ _ _ => execResume_absent hw hr hc rfl hg hb hn, fun hb ha =>
      ⟨fun c h1 hi => (execResume_ownImage hw hr hc rfl h1 hb ha (imageAt_self hi)).trans (congrArg _ (restoreImage_idle h1)),
        fun hi => ⟨execResume_refusedImage hw hr hc rfl hg hb ha hi, fun _ => execResume_foreignImage hw hr hc rfl hg hb ha hi⟩⟩⟩
  case refine_2 =>
    obtain ⟨g, hg⟩ := returnOverflow_eq s part
    have hrun := execDestroyComplete_done hd hf
    rw [hg] at hrun
    have hdown : ((((s.updPart part g).updPart part Partition.down).dropPartition part).partn part) = ((s.updPart part g).partn part).down :=
      partn_updPart (by rwa [length_parts_updPart])
    obtain ⟨hpipes, hstructs, htlb, hsinks⟩ := dropPartition_dropped ((s.updPart part g).updPart part Partition.down) part
    exact ⟨_, hrun, congrArg _ hdown, congrArg _ hdown, rfl, rfl, hpipes, hstructs, htlb, hsinks, rfl, rfl,
      fun _ hk => (partn_updPart_ne hk).trans (partn_updPart_ne hk)⟩

end

end Sys2Proof.Machine

/-! Proof of the statement of the request record and of the events to the host (R391, R395, R396, R441). -/

namespace Sys2Proof.Machine

section

variable {s : State} {part : Nat}

/-! ### The request record (R391) -/

theorem execRequestRecordService_notRunning (h : (s.partn part).state ≠ 2) : execRequestRecordService part s = .next s := by
  simp only [execRequestRecordService, h, if_false]

section

variable (h : (s.partn part).state = 2)

include h

theorem execRequestRecordService_absent (hq : s.mmpRead part ((s.partn part).reqva.toNat + 16) = none) : execRequestRecordService part s = .next s := by
  simp only [execRequestRecordService, h, if_true, hq]

variable {seq : Nat} {s1 : State} (hq : s.mmpRead part ((s.partn part).reqva.toNat + 16) = some (seq, s1))

include hq

theorem execRequestRecordService_served (hseq : seq = (s1.partn part).reqSeq) : execRequestRecordService part s = .next s1 := by
  simp only [execRequestRecordService, h, if_true, hq, hseq]

theorem execRequestRecordService_serves (hseq : seq ≠ (s1.partn part).reqSeq) {off v : Nat} {s2 s3 : State}
    (ho : s1.mmpRead part (s.partn part).reqva.toNat = some (off, s2)) (hv : s2.mmpRead part ((s.partn part).reqva.toNat + 8) = some (v, s3)) :
    let r := s3.requestWrite part off (BitVec.ofNat 64 v)
    execRequestRecordService part s =
      .next ((r.1.updPart part fun p => { p with reqSeq := seq }).mmpWrite part ((s.partn part).reqva.toNat + 32) (seq * 256 % 2 ^ 64 + r.2)) := by
  simp only [execRequestRecordService, h, if_true, hq, hseq, if_false, ho, hv]

end

/-! What a request may write: INT_CTL, PREEMPT_DL and the frame contracts. -/

theorem requestWrite_intCtl (s : State) (part : Nat) (v : DWord) :
    s.requestWrite part 0x078 v = ((s.writeIntCtl part v).1, if (s.writeIntCtl part v).2 then 0 else 1) := by
  rw [State.requestWrite, if_pos rfl]

theorem requestWrite_preemptDl (s : State) (part : Nat) (v : DWord) :
    s.requestWrite part 0x030 v = ((s.writePreemptDl part v).1, if (s.writePreemptDl part v).2 then 0 else 1) := by
  rw [State.requestWrite, if_neg (by decide), if_pos rfl]

theorem requestWrite_contract (s : State) (part : Nat) (v : DWord) {k : Nat} (hk : k < 16) :
    s.requestWrite part (0x080 + 8 * k) v = ((s.writeContract part k v).1, if (s.writeContract part k v).2 then 0 else 1) := by
  have hoff : (0x080 + 8 * k - 0x80) / 8 = k := by omega
  rw [State.requestWrite, if_neg (by omega), if_neg (by omega), if_pos (by omega), hoff]

theorem requestWrite_refused (s : State) (part : Nat) (v : DWord) {off : Nat} (hi : off ≠ 0x078) (hp : off ≠ 0x030)
    (hc : off < 0x080 ∨ 0x100 ≤ off ∨ off % 8 ≠ 0) : s.requestWrite part off v = (s, 2) := by
  rw [State.requestWrite, if_neg hi, if_neg hp, if_neg (by omega)]

/-! ### Events to the host (R395) -/

/-- With no event to write, nothing happens. -/
theorem postEvent_none (h : ∀ e ∈ (s.partn part).hostEvents, e.written = true) : s.postEvent part = s := by
  have hf : (s.partn part).hostEvents.find? (fun e => !e.written) = none := List.find?_eq_none.mpr fun e he => by rw [h e he]; decide
  simp only [State.postEvent, hf]

section

variable {e : HostEvent} (he : (s.partn part).hostEvents.find? (fun e => !e.written) = some e)

include he

/-- The slot of the next event is taken. -/
theorem postEvent_slotTaken (h : ∃ x ∈ (s.partn part).hostEvents, x.written = true ∧ x.seq + 63 = e.seq) : s.postEvent part = s := by
  have hany : ((s.partn part).hostEvents.any fun x => x.written && x.seq + 63 == e.seq) = true := by
    simpa only [List.any_eq_true, Bool.and_eq_true, beq_iff_eq] using h
  simp only [State.postEvent, he, hany, if_true]

/-- The slot of the next event is free: the event is written, and MSI-X is raised. -/
theorem postEvent_written (h : ∀ x ∈ (s.partn part).hostEvents, x.written = true → x.seq + 63 ≠ e.seq) :
    let base := (s.partn part).hsvcBase.toNat
    let t := (s.hostWrite (base + 64 * (1 + (e.seq - 1) % 63)) (e.record part)).hostWrite base (leBytes 8 e.seq)
    let limited := e.kind = 1 ∨ e.kind = 2 ∨ e.kind = 3 ∨ e.kind = 6
    let due := t.clock + 50 * clocksPerMs
    let u := t.updPart part fun q => { q with
      hostCount := e.seq
      hostEvents := mapIf (fun (x : HostEvent) => x.seq == e.seq) (fun (x : HostEvent) => { x with written := true, due := if limited then some due else none }) q.hostEvents }
    let w := if limited then u.timer due (.hostEventTimeout part e.seq) else u
    s.postEvent part = if (w.partn part).hostEvents.any (fun x => !x.written)
      then ({ w with msix := w.msix ++ [part] } : State).post (.hostEventPost part) else { w with msix := w.msix ++ [part] } := by
  have hany : ((s.partn part).hostEvents.any fun x => x.written && x.seq + 63 == e.seq) = false := by
    simpa only [List.any_eq_false, Bool.and_eq_true, beq_iff_eq, not_and] using h
  intro base t limited due u w
  rw [State.postEvent]
  simp only [he, hany, Bool.false_eq_true, if_false]
  rfl

end

/-! ### Answers to events (R396) -/

theorem execHsvcAns_ignored {word : BitVec 64} (h : ∀ e ∈ (s.partn part).hostEvents, e.written = true → e.seq ≠ word.toNat / 2 ^ 16) :
    execHsvcAns part word s = .next s := by
  have hf : (s.partn part).hostEvents.find? (fun e => e.written && e.seq == word.toNat / 2 ^ 16) = none :=
    List.find?_eq_none.mpr fun e he hm => by
      rw [Bool.and_eq_true, beq_iff_eq] at hm
      exact h e he hm.1 hm.2
  simp only [execHsvcAns, hf]

theorem execHsvcAns_answers {word : BitVec 64} {e : HostEvent}
    (h : (s.partn part).hostEvents.find? (fun e => e.written && e.seq == word.toNat / 2 ^ 16) = some e) :
    execHsvcAns part word s = (s.closeEvent part e).answered part e (word.toNat % 256 == 0) := by
  simp only [execHsvcAns, h]

/-- An event without an answer whose time is over. -/
def HostEvent.overdue (e : HostEvent) (seq clock : Nat) : Bool :=
  e.written && e.seq == seq && (match e.due with | some d => decide (d ≤ clock) | none => false)

theorem overdue_iff {e : HostEvent} {seq clock : Nat} : e.overdue seq clock = true ↔ e.written = true ∧ e.seq = seq ∧ ∃ d, e.due = some d ∧ d ≤ clock := by
  rw [HostEvent.overdue]
  cases e.due with
  | none => simp
  | some d => simp [and_assoc]

theorem execHostEventTimeout_eq (part seq : Nat) (s : State) :
    execHostEventTimeout part seq s =
      match (s.partn part).hostEvents.find? fun e => e.overdue seq s.clock with
      | none => .next s
      | some e => (s.closeEvent part e).answered part e false := rfl

theorem execHostEventTimeout_over {seq : Nat} {e : HostEvent} (h : (s.partn part).hostEvents.find? (fun e => e.overdue seq s.clock) = some e) :
    execHostEventTimeout part seq s = (s.closeEvent part e).answered part e false := by
  rw [execHostEventTimeout_eq, h]

theorem execHostEventTimeout_none {seq : Nat} (h : (s.partn part).hostEvents.find? (fun e => e.overdue seq s.clock) = none) :
    execHostEventTimeout part seq s = .next s := by
  rw [execHostEventTimeout_eq, h]

/-- The only overdue event of a list is the one that a search finds. -/
theorem find?_unique {α : Type} {l : List α} {q : α → Bool} {a : α} (ha : a ∈ l) (hq : q a = true) (hu : ∀ x ∈ l, q x = true → x = a) : l.find? q = some a := by
  obtain ⟨x, hx⟩ := Option.isSome_iff_exists.mp (List.find?_isSome.mpr ⟨a, ha, hq⟩)
  rw [hx, hu x (List.mem_of_find?_eq_some hx) (List.find?_some hx)]

/-! What an answer does, by the kind of its event. -/

section

variable {e : HostEvent} {served : Bool}

theorem answered_notice (h : e.kind = 5) : s.answered part e served = .next s := by
  simp only [State.answered, h]

theorem answered_error (h : e.kind = 4) : s.answered part e served = .next (s.escalated part e served) := by
  simp only [State.answered, h]

section

variable (h : e.kind = 1 ∨ e.kind = 2 ∨ e.kind = 6)

include h

theorem answered_noService (hx : (s.partn part).serviceOf e.seq = none) : s.answered part e served = .next s := by
  obtain h | h | h := h <;> simp only [State.answered, h, hx]

variable {x : PageSvc} (hx : (s.partn part).serviceOf e.seq = some x)

include hx

theorem answered_refusedPage : s.answered part e false = .next (s.serviceFails part x 2) := by
  obtain h | h | h := h <;> simp only [State.answered, h, hx, Bool.not_false, if_true]

theorem answered_servedPage {k : Nat} {r : Nat} (hw : s.walk part x.va = none) (hk : x.frame = some k) (hr : x.region = some r) :
    s.answered part e true = .next (s.insertEntry part x r k) := by
  obtain h | h | h := h <;> simp only [State.answered, h, hx, hw, hk, hr, Bool.not_true, Bool.false_eq_true, if_false, Option.isSome_none]

end

end

/-- Settles O54, clause by clause. The contents of the request record and of the event ring are the model's reading of R391, R395 and R396
(notes/assumptions/58.md). -/
theorem hostServices : Obligations.HostServices := by
  refine ⟨fun s part => ⟨execRequestRecordService_notRunning, execRequestRecordService_absent, fun h seq s1 hq =>
      ⟨execRequestRecordService_served h hq, fun hseq _ _ _ _ ho hv => execRequestRecordService_serves h hq hseq ho hv⟩⟩,
    fun s part v => ⟨requestWrite_intCtl s part v, requestWrite_preemptDl s part v, fun _ hk => requestWrite_contract s part v hk,
      fun _ hi hp hc => requestWrite_refused s part v hi hp hc⟩,
    fun s part => ⟨fun h => congrArg Host.Outcome.next (postEvent_none h), fun e he =>
      ⟨fun h => congrArg Host.Outcome.next (postEvent_slotTaken he h), fun h => congrArg Host.Outcome.next (postEvent_written he h)⟩⟩,
    fun s part word => ⟨execHsvcAns_ignored, fun _ h => execHsvcAns_answers h⟩,
    fun s part seq => ⟨fun e d he hw hs hd hdue hu => ?_, fun h => ?_⟩,
    fun s part e served _ => ⟨answered_notice, answered_error, fun h => ⟨answered_noService h, fun x hx => ⟨?_, ?_⟩⟩⟩⟩
  · exact execHostEventTimeout_over (find?_unique he (overdue_iff.mpr ⟨hw, hs, d, hd, hdue⟩) fun x hx ho => hu x hx (overdue_iff.mp ho).2.1)
  · refine execHostEventTimeout_none (List.find?_eq_none.mpr fun e he ho => ?_)
    obtain ⟨-, hs, d, hd, hdue⟩ := overdue_iff.mp ho
    exact absurd hdue (not_le.mpr (h e he hs d hd))
  · rintro rfl
    exact answered_refusedPage h hx
  · rintro rfl hw k r hk hr
    exact answered_servedPage h hx hw hk hr

end

end Sys2Proof.Machine

/-! Proof of the statement of the device's events (R420 to R426, R442, R443, R498, R505, R506). -/

namespace Sys2Proof.Machine

section

variable {s : State}

/-! ### Thermal sensors (R425, R426) -/

/-- The record of a trip has no partition, and stands in the device log alone. -/
theorem tripDevice_eq (s : State) (detail : Nat) :
    s.tripDevice detail = { (s.devLog { cause := 0x01C1, detail := detail, rung := 5 }).stopDevice with trip := true, table := 3 } := by
  have hclass : causeClass 0x01C1 ≠ 0 := by decide
  rw [State.tripDevice, State.report, if_pos hclass, State.log]

/-- A core's sensor has its sample, from which the core throttles or trips. -/
def State.sampled (s : State) (core : Nat) (t : BitVec 12) : State :=
  { s with therm := s.therm.set core (t, decide (1680 ≤ t.toNat) || ((nth (0, false, false) s.therm core).2.1 && decide (1600 ≤ t.toNat)),
      decide (1840 ≤ t.toNat)) }

theorem execThermalSensorSample_ignored {core : Nat} {t : BitVec 12} (h : 128 ≤ core ∨ s.trip = true) : execThermalSensorSample core t s = .next s := if_pos h

section

variable {core : Nat} (t : BitVec 12) (hc : core < 128) (ht : s.trip = false)

include hc ht

theorem execThermalSensorSample_sampled :
    execThermalSensorSample core t s =
      if 1840 ≤ t.toNat then .next ((s.sampled core t).tripDevice core)
      else .next (if s.ready && decide (1520 ≤ t.toNat) then (s.sampled core t).hotCore core t.toNat else s.sampled core t) :=
  if_neg (not_or.mpr ⟨not_le.mpr hc, Bool.eq_false_iff.mp ht⟩)

theorem execThermalSensorSample_kept (h : t.toNat < 1520 ∨ t.toNat < 1840 ∧ s.ready = false) :
    execThermalSensorSample core t s = .next (s.sampled core t) := by
  have hkeep : ¬ (s.ready && decide (1520 ≤ t.toNat)) = true := by
    rw [Bool.and_eq_true, decide_eq_true_eq]
    rintro ⟨hr, hm⟩
    obtain h | ⟨-, hn⟩ := h
    · omega
    · rw [hn] at hr
      cases hr
  rw [execThermalSensorSample_sampled t hc ht, if_neg (by omega), if_neg hkeep]

theorem execThermalSensorSample_hot (hm : 1520 ≤ t.toNat) (hl : t.toNat < 1840) (hr : s.ready = true) :
    execThermalSensorSample core t s = .next ((s.sampled core t).hotCore core t.toNat) := by
  rw [execThermalSensorSample_sampled t hc ht, if_neg (not_le.mpr hl), if_pos (by rw [hr, decide_eq_true hm, Bool.and_self])]

theorem execThermalSensorSample_trips (h : 1840 ≤ t.toNat) : execThermalSensorSample core t s = .next ((s.sampled core t).tripDevice core) := by
  rw [execThermalSensorSample_sampled t hc ht, if_pos h]

end

/-! ### Cooling loops (R424, R505) -/

/-- A zone has read its loops. -/
def State.zoneRead (s : State) (zone : Nat) (lost : Bool × Bool) : State :=
  { s with loops := s.loops.modify zone fun x => (x.1 || lost.1, x.2 || lost.2) }

theorem loopTop_iff : s.loopTop = true ↔ ∃ x ∈ s.loops, x.1 = true := List.any_eq_true

theorem loopBottom_iff : s.loopBottom = true ↔ ∃ x ∈ s.loops, x.2 = true := List.any_eq_true

theorem loopTop_false (h : ∀ x ∈ s.loops, x.1 = false) : s.loopTop = false := List.any_eq_false.mpr fun x hx => Bool.eq_false_iff.mp (h x hx)

theorem loopBottom_false (h : ∀ x ∈ s.loops, x.2 = false) : s.loopBottom = false := List.any_eq_false.mpr fun x hx => Bool.eq_false_iff.mp (h x hx)

theorem execCoolingLoopLoss_tripped {zone : Nat} {lost : Bool × Bool} (h : s.trip = true) : execCoolingLoopLoss zone lost s = .next s := if_pos h

theorem execNominalTableReturn_tripped (h : s.trip = true) : execNominalTableReturn s = .next s := congrArg _ (if_pos h)

section

variable {zone : Nat} {lost : Bool × Bool} (h : s.trip = false)

include h

theorem execNominalTableReturn_returns : execNominalTableReturn s = .next (({ s with loops := List.replicate 8 (false, false) } : State).useTable 0) :=
  congrArg _ (if_neg (Bool.eq_false_iff.mp h))

variable {u : State} (hu : s.zoneRead zone lost = u)

include hu

theorem execCoolingLoopLoss_read : execCoolingLoopLoss zone lost s =
    .next (if u.loopTop && u.loopBottom then u.tripDevice (2 ^ 8) else if u.loopTop then u.useTable 1 else if u.loopBottom then u.useTable 2 else u) := by
  subst hu
  exact if_neg (Bool.eq_false_iff.mp h)

theorem execCoolingLoopLoss_both (h1 : ∃ x ∈ u.loops, x.1 = true) (h2 : ∃ x ∈ u.loops, x.2 = true) :
    execCoolingLoopLoss zone lost s = .next (u.tripDevice 256) := by
  rw [execCoolingLoopLoss_read h hu, loopTop_iff.mpr h1, loopBottom_iff.mpr h2]
  rfl

theorem execCoolingLoopLoss_top (h1 : ∃ x ∈ u.loops, x.1 = true) (h2 : ∀ x ∈ u.loops, x.2 = false) :
    execCoolingLoopLoss zone lost s = .next (u.useTable 1) := by
  rw [execCoolingLoopLoss_read h hu, loopTop_iff.mpr h1, loopBottom_false h2]
  rfl

theorem execCoolingLoopLoss_bottom (h1 : ∀ x ∈ u.loops, x.1 = false) (h2 : ∃ x ∈ u.loops, x.2 = true) :
    execCoolingLoopLoss zone lost s = .next (u.useTable 2) := by
  rw [execCoolingLoopLoss_read h hu, loopTop_false h1, loopBottom_iff.mpr h2]
  rfl

theorem execCoolingLoopLoss_neither (h1 : ∀ x ∈ u.loops, x.1 = false) (h2 : ∀ x ∈ u.loops, x.2 = false) :
    execCoolingLoopLoss zone lost s = .next u := by
  rw [execCoolingLoopLoss_read h hu, loopTop_false h1, loopBottom_false h2]
  rfl

end

theorem useTable_same {n : Nat} (h : s.table = n) : s.useTable n = s := if_pos h

theorem useTable_changed {n : Nat} (h : s.table ≠ n) : s.useTable n = { s with table := n, msix := s.msix ++ [17] } := if_neg h

/-! ### The reload of firmware (R443, R506) -/

theorem execFirmwareReload_ignored {v : BitVec 16} {fail : Option BringFail} (hr : s.ready = false) (hf : s.failed = false) :
    execFirmwareReload v fail s = .next s := if_pos (by rw [hr, hf]; decide)

section

variable {v : BitVec 16} (h : s.ready = true ∨ s.failed = true)

include h

theorem execFirmwareReload_runs : execFirmwareReload v none s = .next (({ s with fwver := v } : State).bringUp none) :=
  if_neg (not_and_or.mpr (h.imp (fun hr => by rw [hr]; decide) fun hf => by rw [hf]; decide))

theorem execFirmwareReload_fails (x : BringFail) :
    execFirmwareReload v (some x) s = .next (({ s with fwver := if x.step = 1 then s.fwver else v } : State).bringUp (some x)) := by
  have hgo : ¬ ((!s.ready) = true ∧ (!s.failed) = true) := not_and_or.mpr (h.imp (fun hr => by rw [hr]; decide) fun hf => by rw [hf]; decide)
  simp only [execFirmwareReload, hgo, if_false, beq_iff_eq]

end

/-! ### Answers to records (R442, R443) -/

section

variable {part action : Nat} {f : State → Awaited → Option State}

theorem serveAns_noLog (h : s.ansWord part = none) : s.serveAns part action f = s := by
  simp only [State.serveAns, h]

variable {ans : DWord} (h : s.ansWord part = some ans)

include h

theorem serveAns_notNew (hn : s.ansNew part ans = false ∨ ans.toNat % 256 ≠ action) : s.serveAns part action f = s := by
  have hold : (!s.ansNew part ans) = true ∨ ans.toNat % 256 ≠ action := hn.imp_left fun hn => by rw [hn, Bool.not_false]
  simp only [State.serveAns, h, hold, if_true]

variable (hn : s.ansNew part ans = true) (ha : ans.toNat % 256 = action)

include hn ha

theorem serveAns_noRecord (hr : (s.acquireAns part ans).answered? part ans = none) :
    s.serveAns part action f = (s.acquireAns part ans).acknowledgeAns part ans 1 := by
  simp only [State.serveAns, h, hn, ha, hr, Bool.not_true, Bool.false_eq_true, ne_eq, not_true_eq_false, or_self, if_false]

variable {a : Awaited} (hr : (s.acquireAns part ans).answered? part ans = some a)

include hr

theorem serveAns_notApplicable (hf : f (s.acquireAns part ans) a = none) : s.serveAns part action f = (s.acquireAns part ans).acknowledgeAns part ans 2 := by
  simp only [State.serveAns, h, hn, ha, hr, hf, Bool.not_true, Bool.false_eq_true, ne_eq, not_true_eq_false, or_self, if_false]

theorem serveAns_done {t : State} (hf : f (s.acquireAns part ans) a = some t) :
    s.serveAns part action f = (t.updPart part fun q => { q with awaited := q.awaited.filter fun x => x.seq != a.seq }).acknowledgeAns part ans 0 := by
  simp only [State.serveAns, h, hn, ha, hr, hf, Bool.not_true, Bool.false_eq_true, ne_eq, not_true_eq_false, or_self, if_false]

end

/-! ### A mismatch without an answer (R498) -/

section

variable {part : Nat}

/-- A mismatch whose answer has not come in time. -/
def Awaited.overdueMismatch (a : Awaited) (clock : Nat) : Bool :=
  a.cause == cReplMismatch && match a.due with | some d => decide (d ≤ clock) | none => false

theorem overdueMismatch_iff {a : Awaited} {clock : Nat} : a.overdueMismatch clock = true ↔ a.cause = cReplMismatch ∧ ∃ d, a.due = some d ∧ d ≤ clock := by
  rw [Awaited.overdueMismatch]
  cases a.due with
  | none => simp
  | some d => simp

theorem execReplMismatchTimeout_eq (part : Nat) (s : State) :
    execReplMismatchTimeout part s =
      match (s.partn part).awaited.find? fun a => a.overdueMismatch s.clock with
      | none => .next s
      | some a => .next ((s.updPart part fun q => { q with awaited := q.awaited.filter fun x => x.seq != a.seq }).terminate part a.pipe a.cause) := rfl

theorem execReplMismatchTimeout_none (h : ∀ a ∈ (s.partn part).awaited, ∀ d, a.due = some d → s.clock < d) : execReplMismatchTimeout part s = .next s := by
  have hnone : (s.partn part).awaited.find? (fun a => a.overdueMismatch s.clock) = none := List.find?_eq_none.mpr fun a ha ho => by
    obtain ⟨-, d, hd, hdue⟩ := overdueMismatch_iff.mp ho
    exact absurd hdue (not_le.mpr (h a ha d hd))
  rw [execReplMismatchTimeout_eq, hnone]

theorem execReplMismatchTimeout_terminates {a : Awaited} {d : Nat} (ha : a ∈ (s.partn part).awaited) (hm : a.cause = cReplMismatch) (hd : a.due = some d)
    (hdue : d ≤ s.clock) (hu : ∀ x ∈ (s.partn part).awaited, x.cause = cReplMismatch → x = a) :
    execReplMismatchTimeout part s =
      .next ((s.updPart part fun q => { q with awaited := q.awaited.filter fun x => x.seq != a.seq }).terminate part a.pipe a.cause) := by
  have hfind : (s.partn part).awaited.find? (fun a => a.overdueMismatch s.clock) = some a :=
    find?_unique ha (overdueMismatch_iff.mpr ⟨hm, d, hd, hdue⟩) fun x hx ho => hu x hx (overdueMismatch_iff.mp ho).1
  rw [execReplMismatchTimeout_eq, hfind]

end

/-! ### The statement -/

/-- The four answers, by their action. -/
theorem exec_ans {part action : Nat} {i : Instr} {f : State → Awaited → Option State}
    (h : (action = 1 ∧ i = .ansRollback part ∧ f = fun s a => some (s.rollback part a.cause)) ∨
      (action = 2 ∧ i = .ansTerminate part ∧ f = fun s a => some (s.terminate part a.pipe a.cause)) ∨
      (action = 3 ∧ i = .ansReset part ∧ f = fun s _ => some (s.resetPart part)) ∨
      (action = 4 ∧ i = .ansRelease part ∧ f = fun s a => if a.cause = cReplMismatch ∧ (s.fibre a.uid).live then some (s.releasePoint a) else none)) :
    exec i s = .next (s.serveAns part action f) := by
  obtain ⟨rfl, rfl, rfl⟩ | ⟨rfl, rfl, rfl⟩ | ⟨rfl, rfl, rfl⟩ | ⟨rfl, rfl, rfl⟩ := h
  · rfl
  · rfl
  · rfl
  · rfl

/-- Settles O56, event by event. That the reading of any one zone counts as the loss of its loop, and what bring-up reports and an answer reaches, are
the model's readings (notes/assumptions/64.md, notes/assumptions/89.md). -/
theorem deviceEvents : Obligations.DeviceEvents := by
  refine ⟨fun s core t => ⟨execThermalSensorSample_ignored, fun hc ht => ⟨execThermalSensorSample_kept t hc ht, execThermalSensorSample_hot t hc ht, fun h => ?_⟩⟩,
    fun s zone lost => ⟨fun h => ⟨execCoolingLoopLoss_tripped h, execNominalTableReturn_tripped h⟩, fun h => ⟨execCoolingLoopLoss_both h rfl, execCoolingLoopLoss_top h rfl,
      execCoolingLoopLoss_bottom h rfl, execCoolingLoopLoss_neither h rfl, execNominalTableReturn_returns h⟩⟩,
    fun s n => ⟨useTable_same, useTable_changed⟩,
    fun s => rfl,
    fun s x => rfl,
    fun s v fail => ⟨execFirmwareReload_ignored, fun h => ⟨?_, ?_⟩⟩,
    fun s part action i f hi => ?_,
    fun s part => ⟨fun a d ha hm hd hdue hu => execReplMismatchTimeout_terminates ha hm hd hdue hu, execReplMismatchTimeout_none⟩⟩
  · refine ⟨_, execThermalSensorSample_trips t hc ht h, ?_⟩
    rw [tripDevice_eq]
    exact ⟨rfl, rfl, rfl, rfl, rfl, rfl, rfl⟩
  · rintro rfl
    exact execFirmwareReload_runs h
  · rintro x rfl
    exact execFirmwareReload_fails h x
  · rw [exec_ans hi]
    exact ⟨fun h => congrArg _ (serveAns_noLog h), fun ans h => ⟨fun hn => congrArg _ (serveAns_notNew h hn), fun hn ha =>
      ⟨fun hr => congrArg _ (serveAns_noRecord h hn ha hr), fun a hr hf => congrArg _ (serveAns_notApplicable h hn ha hr hf),
        fun a t hr hf => congrArg _ (serveAns_done h hn ha hr hf)⟩⟩⟩

end

end Sys2Proof.Machine
